-- ==== Sys2Proof/Word.lean ====
section
/-! DEFINITION. The words of the device: a Ridge register (R27), a management register (R7), a byte. -/

namespace Sys2Proof

/-- A 64-bit Ridge register or CSR (R27, R59). -/
abbrev W64 := BitVec 64

/-- A 32-bit management register or a Ridge instruction word (R7, R30). -/
abbrev W32 := BitVec 32

/-- One byte of a memory. -/
abbrev Byte := BitVec 8

end Sys2Proof
end

