-- ==== Sys2Proof/Syntax.lean ====
section
/-! DEFINITION. The commands of the device: one constructor of `Instr` per row of spec/opcode_table.json, with the operands
the step needs, and the operand types. The table gives its rows no bits and no operands; the operands are what the rule of the
row names (which port, which core, which value) and what the outside world brings to the step (a received frame, a measured
level, the completion of a host). -/

namespace Sys2Proof

/-- A master of the management space (R474); its 8-bit code is that of R482. -/
inductive Master where
  | summit
  | debug
  | core (c : Fin 9)
  | mgmt (p : Fin 128)
  deriving DecidableEq, Repr

/-- The code of R482. -/
def Master.code : Master → Nat
  | .summit => 0
  | .debug => 1
  | .core c => 0x10 + c.val
  | .mgmt p => 0x80 + p.val

/-- The engine that executes a common Ridge instruction (R25): a Spur core, or the Notch program run with number `r`. -/
inductive Engine where
  | spur (c : Fin 9)
  | notch (r : Nat)
  deriving DecidableEq, Repr

/-- A source register: `g` with its bank bit 0, `h` with its bank bit 1 (R28). -/
inductive Src where
  | g (n : Fin 32)
  | h (n : Fin 16)
  deriving DecidableEq, Repr

/-- A destination register: `g` with its bank bit 0, `o` with its bank bit 1 (R28). -/
inductive Dst where
  | g (n : Fin 32)
  | o (n : Fin 8)
  deriving DecidableEq, Repr

/-- The conditions of R39; value 15 is reserved and has no constructor. -/
inductive Cond where
  | eq | ne | lt | ge | ltu | geu | gt | le | gtu | leu | hit | miss | xs | xc | al
  deriving DecidableEq, Repr

/-- Access sizes of R30: `sz` 0b00 to 0b11. -/
inductive Size where
  | b | h | w | d
  deriving DecidableEq, Repr

/-- The size in bytes. -/
def Size.bytes : Size → Nat
  | .b => 1
  | .h => 2
  | .w => 4
  | .d => 8

/-- The three sub-queues of a virtual output queue (R108, R481). -/
inductive SubQ where
  | posted | nonPosted | completion
  deriving DecidableEq, Repr

/-- What the link-layer and transaction checks find of a received frame before it reaches a pipeline (R274, R311). -/
inductive LinkCheck where
  | good
  /-- LCRC, flit CRC or uncorrectable FEC: discarded, NAK and replay. -/
  | badCrc
  /-- Malformed TLP, Data Link Protocol Error, Flow Control Protocol Error or Receiver Overflow: cause 1. -/
  | uncorrectable
  /-- ECRC error in a TLP the device consumes, with checking enabled. -/
  | ecrc
  /-- The IDE check of R311 fails. -/
  | ide (stream : Fin 256)
  /-- Good, and Summit has re-keyed the IDE stream of this TLP since the one before (R311). -/
  | rekeyed
  deriving DecidableEq, Repr

/-- A frame as a tile extracts it (R71 to R74). `h1` to `h7` are the extracted words of R74; `sub` is the sub-queue its own
protocol gives a frame of FTYPE 9 or 11 (R481); `head` is its header as received, `data` its payload. -/
structure Frame where
  ftype : Nat
  flit : Bool
  ep : Bool
  locked : Bool
  fabric : Bool
  sub : SubQ
  h1 : W64
  h2 : W64
  h3 : W64
  h4 : W64
  h5 : W64
  h6 : W64
  h7 : W64
  h14 : W64
  h15 : W64
  head : List Byte
  data : List Byte
  deriving DecidableEq, Repr

/-- A request that waits for a transfer context (R201). -/
inductive Waiter where
  /-- a tag-remapped or tunnelled request, by its packet -/
  | packet (k : Nat)
  /-- the ENABLE of a Traverse queue -/
  | queue (q : Fin 4096)
  /-- an engine read that needs a narrow tag (R213): the queue and the reorder-buffer entry -/
  | read (q : Fin 4096) (entry : Fin 256)
  deriving DecidableEq, Repr

/-- What is found after a packet's head has left (R134); the freeze of the egress port nullifies by itself. -/
inductive NullCause where
  | badIngress
  | missingCell
  | ranOut
  | blockError
  deriving DecidableEq, Repr

/-- What the error correction of Tarn finds in an access (R162, R163, R166), by the place of the line among those it touches. -/
inductive Ecc where
  | good
  | corrected (i : Nat)
  | bad (i : Nat)
  /-- command or address parity of the line's pseudo-channel still fails after 3 retries -/
  | parity (i : Nat)
  deriving DecidableEq, Repr
/-- A received DLLP (R289): credits given back, the last TLP acknowledged or received good before a loss, requests for L1 and L2. -/
inductive Dllp where
  | updateFc (sub : SubQ) (hdr data : Nat)
  | ack (seq : Fin 4096)
  | nak (seq : Fin 4096)
  | pmL1
  | pmL2
  deriving DecidableEq, Repr

/-- A request that the device times (R271): one that holds a transfer context, or an engine read by its engine and reorder-buffer
entry. -/
inductive TimedReq where
  | ctx (i : Fin 16384)
  | read (e : Fin 32) (entry : Fin 256)
  deriving DecidableEq, Repr

/-- A Theox flit as the receiver has it after FEC (R226): bytes 0 to 241, whether FEC left it correctable and its CRC holds, the lanes
whose symbols FEC corrected, one entry a symbol, and the frames that end in it as extraction reads them, in order. -/
structure Flit where
  bytes : List Byte
  good : Bool
  corrected : List (Fin 16)
  frames : List Frame
  deriving DecidableEq, Repr

/-- What the training of a PCI Express or CXL link brings to its lanes (R325, R342): lane order reversed, lanes of the port with inverted
polarity, and the coefficients C−1 and C+1 (magnitudes of FS 63) that the partner has requested last for a lane of the port. -/
structure Phy where
  reversed : Bool
  inverted : List (Fin 16)
  coeffs : List (Fin 16 × Fin 64 × Fin 64)
  deriving DecidableEq, Repr

/-- A failure that a part of a test finds (R428): the memory instance, 0 for a logic or lane failure; the row, lane or signature word; the
failing bit, 0x3FF for several; the mask bit of the part; the time base when it was found. -/
structure BistFail where
  inst : BitVec 16
  addr : BitVec 24
  bit : BitVec 10
  part : Fin 4
  time : W64
  deriving DecidableEq, Repr

/-- A request of the debug port (R389, R392): a register access, the control of a core, an access to a core's SRAM, an access to Tarn at
an offset of a region or window, a shift of the scan chain. -/
inductive DebugReq where
  | reg (off : Fin 268435456) (sz : Size) (w : Option W64)
  | halt (c : Fin 9)
  | step (c : Fin 9)
  | resume (c : Fin 9)
  | sram (c : Fin 9) (a : W64) (sz : Size) (w : Option W64)
  | tarn (i : Fin 4096) (off : Nat) (w : Option (List Byte)) (len : Nat)
  | scan
  deriving DecidableEq, Repr

/-- The commands: one constructor per row of spec/opcode_table.json, in the table's order. -/
inductive Instr where
  /-- REGISTER_WRITE (R2): A write to a management register that has no row of its own sets its fields according to their access codes. -/
  | registerWrite (m : Master) (off : Fin 268435456) (sz : Size) (v : W64)
  /-- HALF_LATCH_READ (R478): A read of the LO half of a latched 64-bit pair latches the other half for this master. -/
  | halfLatchRead (m : Master) (off : Fin 268435456) (sz : Size)
  /-- VAUX_POWER_ON (R443): VAUX rises through 1.62 V; the device leaves VAUX power-on reset and the island boots under R375. -/
  | vauxPowerOn
  /-- VAUX_LOSS (R443): VAUX falls below 1.55 V and the whole device is held in VAUX power-on reset. -/
  | vauxLoss
  /-- ROOT_PLL_LOSS_OF_LOCK (R17): The root PLL loses lock: the Cairn freezes, Summit moves to the island oscillator and the core is held in cold reset. -/
  | rootPllLossOfLock
  /-- PLL_LOCK_RETRY (R378): Every 10 ms Summit retries locking a root PLL that has failed to lock. -/
  | pllLockRetry (lock : Bool) (hbmFail : BitVec 4)
  /-- COLD_RESET_END (R447): The cold reset ends 100 µs after its end conditions last came to hold. -/
  | coldResetEnd (rails : BitVec 9)
  /-- CORE_PHASE_START (R376): At the later of the end of cold reset and STAGE 2, Summit starts the PLL, applies repair, trains the HBM, loads Foothill and releases the cores. -/
  | corePhaseStart (lock : Bool) (hbmFail : BitVec 4)
  /-- CAIRN_SAVE_DONE (R421): The copy of a frozen Cairn to flash ends and Summit re-arms the Cairn. -/
  | cairnSaveDone (ok : Bool)
  /-- WARM_RESET (R448): Mailbox command: a warm reset freezes the ports, puts the HBM in self-refresh and holds the core domain in reset. -/
  | warmReset (r : Fin 8) (m : Fin 4)
  /-- WARM_RESET_END (R448): The warm reset ends at 100 µs; the HBM leaves self-refresh and Summit follows R377. -/
  | warmResetEnd
  /-- RST_CTL_WRITE (R448): A write of DEV.RST_CTL starts a warm reset if it comes from a manager port with the key, and is otherwise counted as refused. -/
  | rstCtlWrite (m : Master) (v : W32)
  /-- TILE_RESET (R21): On a Foothill request, every port of the tile is frozen before the tile reset starts. -/
  | tileReset (t : Fin 16)
  /-- TILE_RESET_START (R21): Once the freeze has taken effect, the tile reset starts and the tile's Scree space returns to the free pool. -/
  | tileResetStart (t : Fin 16)
  /-- SPUR_CORE_RESET (R189): A Spur core reset discards undrained stores and outstanding loads, clears the CSRs and fetches from address 0. -/
  | spurCoreReset (c : Fin 9)
  /-- SUPPLY_MONITOR_FAULT (R442): A rail leaves its monitor limits while PWR_OK is asserted: the Cairn freezes and a cold reset follows. -/
  | supplyMonitorFault (r : Fin 9) (high : Bool) (mv : Fin 4096)
  /-- GRACE_EXPIRY (R190): The power-down grace ends and each core stops issuing, drains its store buffer and waits for its loads. -/
  | graceExpiry
  /-- PWRDN_READY (R190): A write of SPUR.PWRDN.READY ends the power-down grace at once. -/
  | pwrdnReady (m : Master)
  /-- POWER_DOWN_ACK (R450): The drained cores acknowledge; Summit turns slots off, freezes ports, puts the HBM in self-refresh and sets PWRDN. -/
  | powerDownAck
  /-- TEMP_UPDATE (R469): Every 1 ms DEV.TEMP takes the die and stack readings, and a stack above 85 °C doubles its refresh. -/
  | tempUpdate (die s0 s1 s2 s3 : Fin 256)
  /-- ADD (R33): rd = rs1 + rs2 modulo 2^64. -/
  | add (e : Engine) (rd : Dst) (rs1 rs2 : Src)
  /-- SUB (R33): rd = rs1 − rs2 modulo 2^64. -/
  | sub (e : Engine) (rd : Dst) (rs1 rs2 : Src)
  /-- AND (R33): rd = rs1 AND rs2. -/
  | and (e : Engine) (rd : Dst) (rs1 rs2 : Src)
  /-- OR (R33): rd = rs1 OR rs2. -/
  | or (e : Engine) (rd : Dst) (rs1 rs2 : Src)
  /-- XOR (R33): rd = rs1 XOR rs2. -/
  | xor (e : Engine) (rd : Dst) (rs1 rs2 : Src)
  /-- ANDN (R33): rd = rs1 AND NOT rs2. -/
  | andn (e : Engine) (rd : Dst) (rs1 rs2 : Src)
  /-- SHL (R33): rd = rs1 shifted left by rs2[5:0]. -/
  | shl (e : Engine) (rd : Dst) (rs1 rs2 : Src)
  /-- SHR (R33): rd = rs1 shifted right logically by rs2[5:0]. -/
  | shr (e : Engine) (rd : Dst) (rs1 rs2 : Src)
  /-- SAR (R33): rd = rs1 shifted right arithmetically by rs2[5:0]. -/
  | sar (e : Engine) (rd : Dst) (rs1 rs2 : Src)
  /-- MIN (R33): rd = the signed minimum of rs1 and rs2. -/
  | min (e : Engine) (rd : Dst) (rs1 rs2 : Src)
  /-- MAX (R33): rd = the signed maximum of rs1 and rs2. -/
  | max (e : Engine) (rd : Dst) (rs1 rs2 : Src)
  /-- MINU (R33): rd = the unsigned minimum of rs1 and rs2. -/
  | minu (e : Engine) (rd : Dst) (rs1 rs2 : Src)
  /-- MAXU (R33): rd = the unsigned maximum of rs1 and rs2. -/
  | maxu (e : Engine) (rd : Dst) (rs1 rs2 : Src)
  /-- CMP (R33): Computes rs1 − rs2 and sets Z, N, C and V. -/
  | cmp (e : Engine) (rs1 rs2 : Src)
  /-- TST (R33): Computes rs1 AND rs2, sets Z and N, and clears C and V. -/
  | tst (e : Engine) (rs1 rs2 : Src)
  /-- HASH (R33): rd = CRC-32C over the 16 bytes of rs1 and rs2. -/
  | hash (e : Engine) (rd : Dst) (rs1 rs2 : Src)
  /-- MUL (R33): rd = the low 64 bits of the product. -/
  | mul (c : Fin 9) (rd rs1 rs2 : Fin 32)
  /-- MULHU (R33): rd = the high 64 bits of the unsigned product. -/
  | mulhu (c : Fin 9) (rd rs1 rs2 : Fin 32)
  /-- DIVU (R34): Unsigned division; a divisor of 0 gives all ones. -/
  | divu (c : Fin 9) (rd rs1 rs2 : Fin 32)
  /-- REMU (R34): Unsigned remainder; a divisor of 0 gives the dividend. -/
  | remu (c : Fin 9) (rd rs1 rs2 : Fin 32)
  /-- CLZ (R34): rd = the number of leading zero bits; 64 for zero. -/
  | clz (c : Fin 9) (rd rs1 : Fin 32)
  /-- POPC (R33): rd = the number of one bits. -/
  | popc (c : Fin 9) (rd rs1 : Fin 32)
  /-- ADDI (R35): rd = rs1 + the sign-extended immediate. -/
  | addi (e : Engine) (rd : Dst) (rs1 : Src) (imm : BitVec 14)
  /-- ANDI (R35): rd = rs1 AND the zero-extended immediate. -/
  | andi (e : Engine) (rd : Dst) (rs1 : Src) (imm : BitVec 14)
  /-- ORI (R35): rd = rs1 OR the immediate. -/
  | ori (e : Engine) (rd : Dst) (rs1 : Src) (imm : BitVec 14)
  /-- XORI (R35): rd = rs1 XOR the immediate. -/
  | xori (e : Engine) (rd : Dst) (rs1 : Src) (imm : BitVec 14)
  /-- SHLI (R35): Shifts left by an immediate count. -/
  | shli (e : Engine) (rd : Dst) (rs1 : Src) (k : Fin 64)
  /-- SHRI (R35): Shifts right logically by an immediate count. -/
  | shri (e : Engine) (rd : Dst) (rs1 : Src) (k : Fin 64)
  /-- SARI (R35): Shifts right arithmetically by an immediate count. -/
  | sari (e : Engine) (rd : Dst) (rs1 : Src) (k : Fin 64)
  /-- CMPI (R35): Compares rs1 with the sign-extended immediate and sets the flags. -/
  | cmpi (e : Engine) (rs1 : Src) (imm : BitVec 14)
  /-- TSTI (R35): Tests rs1 AND the immediate and sets Z and N. -/
  | tsti (e : Engine) (rs1 : Src) (imm : BitVec 14)
  /-- CATI (R35): rd = (rs1 shifted left by 14) OR the immediate. -/
  | cati (e : Engine) (rd : Dst) (rs1 : Src) (imm : BitVec 14)
  /-- EXTI (R36): Extracts a zero-extended bit field, cut at bit 63. -/
  | exti (e : Engine) (rd : Dst) (rs1 : Src) (p n1 : Fin 64)
  /-- EXTSI (R36): Extracts a sign-extended bit field. -/
  | extsi (e : Engine) (rd : Dst) (rs1 : Src) (p n1 : Fin 64)
  /-- INSI (R36): Inserts the low bits of rs1 into a field of rd. -/
  | insi (e : Engine) (rd : Dst) (rs1 : Src) (p n1 : Fin 64)
  /-- JALR (R40): Jumps to rs1 + k and links; a misaligned target raises an alignment exception. -/
  | jalr (c : Fin 9) (rd rs1 : Fin 32) (imm : BitVec 14)
  /-- BCC (R39): Branches by off22 when its condition holds. -/
  | bcc (e : Engine) (cond : Cond) (off : BitVec 22)
  /-- JAL (R39): Jumps by off26 and writes the return address to g31. -/
  | jal (c : Fin 9) (off : BitVec 26)
  /-- LKX (R37): Exact-match or tenant-table lookup, which writes rd and H. -/
  | lkx (r : Nat) (rd : Fin 32) (rs1 rs2 : Src) (tenantTable : Bool) (space : BitVec 8) (ue : Bool)
  /-- LKW (R38): Range-window lookup, which writes rd, H and the straddle flag X. -/
  | lkw (r : Nat) (rd : Fin 32) (rs1 rs2 : Src) (space : BitVec 8) (ue : Bool)
  /-- LD (R49): Loads a zero-extended value of sz bytes. -/
  | ld (c : Fin 9) (sz : Size) (t a : Fin 32) (off : BitVec 14)
  /-- LDS (R49): Loads a sign-extended value of sz bytes. -/
  | lds (c : Fin 9) (sz : Size) (t a : Fin 32) (off : BitVec 14)
  /-- ST (R178): Places a store in the store buffer, or performs it directly through a Tarn aperture. -/
  | st (c : Fin 9) (sz : Size) (t a : Fin 32) (off : BitVec 14)
  /-- LDX (R51): Loads and sets a reservation on the 64-byte line. -/
  | ldx (c : Fin 9) (sz : Size) (t a : Fin 32) (off : BitVec 14)
  /-- STX (R49): Drains the store buffer, stores only if the reservation holds, and sets Z. -/
  | stx (c : Fin 9) (sz : Size) (t a : Fin 32) (off : BitVec 14)
  /-- LDIO (R52): A device read of a register or port address, issued after the drain and in strong order. -/
  | ldio (c : Fin 9) (sz : Size) (t a : Fin 32) (off : BitVec 14)
  /-- STIO (R54): A posted device write of a register or port address. -/
  | stio (c : Fin 9) (sz : Size) (t a : Fin 32) (off : BitVec 14)
  /-- LOAD_RESPONSE (R176): A response to an outstanding load arrives, goes to the reorder buffer and retires in order. -/
  | loadResponse (c : Fin 9) (tag : Fin 32)
  /-- STORE_BUFFER_DRAIN (R178): One store buffer entry drains to its bank when the bank is free. -/
  | storeBufferDrain (c : Fin 9)
  /-- LDIO_RESPONSE (R52): The response to an LDIO arrives; a late one is discarded and counted in DEVFAULT.LATE. -/
  | ldioResponse (c : Fin 9) (ok : Bool) (value : W64)
  /-- LDIO_TIMEOUT (R52): An LDIO without a response after 8,192 tb ends in a device-access error. -/
  | ldioTimeout (c : Fin 9)
  /-- STIO_ACCEPTED (R54): An STIO reaches its target and is accepted, or it is discarded at a frozen or dead port. -/
  | stioAccepted (c : Fin 9) (port : Option (Fin 128))
  /-- BAR_ST (R55): Drains the store buffer. -/
  | barSt (c : Fin 9)
  /-- BAR_DEV (R56): Drains the store buffer and waits for earlier STIO to be accepted or discarded. -/
  | barDev (c : Fin 9)
  /-- BAR_FULL (R55): Waits until every earlier access of any kind is complete. -/
  | barFull (c : Fin 9)
  /-- BAR_LATE (R56): After 2 µs a barrier completes anyway and sets DEVFAULT.BAR_LATE. -/
  | barLate (c : Fin 9)
  /-- IFLUSH (R55): Drains the store buffer and discards instructions already fetched. -/
  | iflush (c : Fin 9)
  /-- DLSET (R57): Arms or disarms deadline n; a deadline that has already passed misses at once. -/
  | dlset (c : Fin 9) (g : Fin 32) (imm : BitVec 14)
  /-- DLWAIT (R55): Stalls until the time base reaches g or an enabled event is set. -/
  | dlwait (c : Fin 9) (g : Fin 32)
  /-- DLWAIT_WAKE (R188): A DLWAIT ends when the time is reached (Z = 1) or on an event or deadline miss (Z = 0). -/
  | dlwaitWake (c : Fin 9)
  /-- DEADLINE_MISS (R57): The time base reaches an armed deadline, which disarms, and the miss becomes pending. -/
  | deadlineMiss (c : Fin 9) (n : Fin 8)
  /-- RESERVATION_EXPIRY (R51): An LDX reservation is lost after 4,096 sc. -/
  | reservationExpiry (c : Fin 9)
  /-- MBX (R381): Posts a word to a Summit mailbox, or sets Z = 0 if the mailbox is full. -/
  | mbx (c : Fin 9) (g : Fin 32) (imm : BitVec 14)
  /-- CSRR (R58): Reads a CSR. -/
  | csrr (c : Fin 9) (g : Fin 32) (csr : BitVec 14)
  /-- CSRW (R58): Writes a CSR; a read-only or unassigned CSR raises an illegal-instruction exception. -/
  | csrw (c : Fin 9) (g : Fin 32) (csr : BitVec 14)
  /-- CSRS (R58): Sets bits in a CSR. -/
  | csrs (c : Fin 9) (g : Fin 32) (csr : BitVec 14)
  /-- CSRC (R186): Clears bits in a CSR, such as EVENT; a bit set by hardware in the same sc stays set. -/
  | csrc (c : Fin 9) (g : Fin 32) (csr : BitVec 14)
  /-- HRET (R67): Restores the flags, clears HANDLER and resumes at HPC. -/
  | hret (c : Fin 9)
  /-- HRETB (R67): As HRET, and suppresses the breakpoint match at HPC. -/
  | hretb (c : Fin 9)
  /-- BRK (R62): Raises a breakpoint exception. -/
  | brk (c : Fin 9)
  /-- FWD (R41): Emit: forwards the packet to an egress port, with an optional rewrite or context remap. -/
  | fwd (r : Nat)
  /-- MCG (R126): Emit: multicasts a posted request to a group. -/
  | mcg (r : Nat)
  /-- POOL (R142): Emit: sends the access to Tarn with a region descriptor and a key. -/
  | pool (r : Nat)
  /-- TRV (R41): Emit: sends the packet to a Traverse queue. -/
  | trv (r : Nat)
  /-- FAB (R239): Emit: wraps the frame in a Theox segment toward a fabric device. -/
  | fab (r : Nat)
  /-- TRAP (R43): Emit: sends the packet to Foothill with a trap record. -/
  | trap (r : Nat) (imm : BitVec 14)
  /-- DROPU (R43): Emit: disposes of the packet with Unsupported Request and logs it. -/
  | dropu (r : Nat)
  /-- DROPA (R43): Emit: disposes of the packet with Completer Abort and logs it. -/
  | dropa (r : Nat)
  /-- FRAME_ARRIVAL (R70): A received frame is written into landing blocks, or discarded if it fails link checks. -/
  | frameArrival (p : Fin 128) (f : Frame) (check : LinkCheck)
  /-- NOTCH_PROGRAM_START (R80): A waiting header enters stage 1 of a pipeline after extraction and program selection. -/
  | notchProgramStart (t : Fin 16) (ue : Bool)
  /-- ADMISSION (R114): A packet is charged to its tenant and its credits are returned, or it waits and is retried each cc. -/
  | admission (k : Nat)
  /-- SCREE_RETURN (R120): At or below LOW, the tile reads back the oldest segment of eligible VOQs. -/
  | screeReturn (t : Fin 16) (seg : Nat)
  /-- SCREE_RETURN_DONE (R122): A returned segment is rewritten into SRAM, or its packets are discarded on an uncorrectable error. -/
  | screeReturnDone (t : Fin 16) (seg : Nat) (ue : Bool)
  /-- NOTCH_TBL_READ (R84): Table command: reads an entry into the staging registers. -/
  | notchTblRead (t : Fin 16) (table : Fin 4) (i : Fin 4096)
  /-- NOTCH_TBL_WRITE (R85): Table command: writes or inserts an entry, subject to FULL, OVERLAP and format checks. -/
  | notchTblWrite (t : Fin 16) (table : Fin 4) (i : Fin 4096)
  /-- NOTCH_TBL_INVALIDATE (R84): Table command: clears the valid bit, or removes an exact-match key. -/
  | notchTblInvalidate (t : Fin 16) (table : Fin 4) (i : Fin 4096)
  /-- NOTCH_TBL_CMD_END (R85): A table command ends with its status, or with BUSY_REFUSED if a second GO came. -/
  | notchTblCmdEnd (t : Fin 16)
  /-- PROGRAM_BANK_WRITE (R89): A program or selector write: ignored and counted on the active bank; sets the shadow bank UNCHECKED. -/
  | programBankWrite (t : Fin 16) (b : Fin 2) (prog : Option (Fin 8)) (i : Fin 32) (v : W32)
  /-- COMMIT (R91): NOTCH_BANK.COMMIT starts the check of the shadow bank. -/
  | commit (t : Fin 16)
  /-- COMMIT_CHECK_END (R91): The bank check ends as COMMITTED or REFUSED, with the error fields. -/
  | commitCheckEnd (t : Fin 16) (ue : Bool)
  /-- SWITCH (R92): Makes a committed shadow bank active, or sets SWITCH_REFUSED. -/
  | switch (t : Fin 16)
  /-- NOTCH_WORD_WRITE (R79): A write of the HI half of the port word applies both halves to later headers. -/
  | notchWordWrite (p : Fin 128) (v : W32)
  /-- TRAP_RECORD_WRITE (R95): When its ring entry is free, a trap's record and frame head are written and VALID is set. -/
  | trapRecordWrite (t : Fin 16) (n : Nat)
  /-- TRAP_RESOLVE (R97): NOTCH_RSLV_CMD carries out an action on a held trapped packet, or is refused. -/
  | trapResolve (t : Fin 16) (m : Master) (seq : BitVec 16) (action : Fin 8)
  /-- TRAP_TIMEOUT (R98): An unresolved trap is disposed of after TIMEOUT. -/
  | trapTimeout (t : Fin 16) (n : Nat)
  /-- CONTEXT_GRANT (R200): A waiting context request is granted from the guarantee or the shared pool. -/
  | contextGrant (w : Waiter)
  /-- CELL_GRANT (R110): A plane grants cells by class and tenant weights, and the cells cross to the egress tile. -/
  | cellGrant (k : Nat) (plane : Fin 4) (fault : Option (Fin 4))
  /-- MULTICAST_RESERVE (R130): After a multicast cell has waited 256 cc, the member egress ports reserve slots for it. -/
  | multicastReserve (k : Nat)
  /-- CELL_ACK (R103): The egress tile's acknowledgement frees the cell's blocks. -/
  | cellAck (k i : Nat)
  /-- ACK_TIMEOUT (R103): No acknowledgement within 256 cc faults the plane. -/
  | ackTimeout (k i : Nat) (lost : Bool)
  /-- PLANE_ISOLATE (R104): ISOLATE = 1 drains the plane out of service, or is refused for the last plane. -/
  | planeIsolate (k : Fin 4)
  /-- PLANE_RETURN (R107): ISOLATE = 0 returns the plane to service. -/
  | planeReturn (k : Fin 4)
  /-- EGRESS_TRANSMIT_START (R133): The egress starts transmitting once it holds F bytes of the packet. -/
  | egressTransmitStart (p : Fin 128) (k : Nat)
  /-- NULLIFY (R134): A packet in transmission is nullified, and is resent or lost according to its cause. -/
  | nullify (p : Fin 128) (k : Nat) (cause : NullCause)
  /-- MCG_READ (R127): Group command: reads an entry into the staging registers. -/
  | mcgRead (g : Fin 4096) (ue : Bool)
  /-- MCG_WRITE (R127): Group command: writes MAP and flags to all four copies. -/
  | mcgWrite (g : Fin 4096)
  /-- MCG_CLEAR_DROP (R127): Group command: clears the group's DROP count. -/
  | mcgClearDrop (g : Fin 4096)
  /-- MCG_CMD_END (R127): A group command ends with its status. -/
  | mcgCmdEnd
  /-- TARN_ACCESS (R147): A stack controller checks a pool access in order, and refuses it or schedules it with its directory flow. -/
  | tarnAccess (k : Nat) (ecc : Ecc) (dirMiss : Bool)
  /-- TARN_ACCESS_PERFORM (R158): The pseudo-channel controller performs the access; a write becomes visible and a read returns data. -/
  | tarnAccessPerform (k : Nat) (ecc : Ecc)
  /-- BIRSP (R153): A BIRsp arrives at the home; when all are in, the tracker closes and the state changes. -/
  | birsp (h : Fin 64) (tag : Nat)
  /-- BI_TIMEOUT (R156): A snoop without a BIRsp within TIMEOUT ejects the host from the region. -/
  | biTimeout (h : Fin 64) (tag : Nat)
  /-- READAHEAD_EXPIRY (R160): A buffered readahead line not used for 10 µs is dropped. -/
  | readaheadExpiry (h : Fin 64) (desc : Fin 4096) (line : Nat)
  /-- PATROL_SCRUB (R164): The scrub reads a line and rewrites it if corrected, and may queue its block for retirement. -/
  | patrolScrub (blk : Fin 140624896) (j : Fin 16) (ecc : Ecc) (first : Bool)
  /-- BLOCK_RETIRE (R165): A queued block is copied to a spare block and remapped. -/
  | blockRetire (blk : Fin 140624896)
  /-- EVACUATION_DONE (R167): The evacuation copy ends and EVAC_STATUS shows done. -/
  | evacuationDone
  /-- COMMIT_POINT (R146): All stack controllers switch to the new descriptor and ownership map at one CLK_MEM edge. -/
  | commitPoint
  /-- RECOLOUR_DONE (R150): A recolour completes over its range and the command replies. -/
  | recolourDone
  /-- PING (R385): Mailbox command that only replies. -/
  | ping (r : Fin 8) (m : Fin 4)
  /-- RWL_WRITE (R385): Mailbox command: Summit writes up to 16 RWL registers within the allow-list. -/
  | rwlWrite (r : Fin 8) (m : Fin 4)
  /-- REGION_COMMIT (R145): Mailbox command: Summit checks and commits a region descriptor, sweeping shared regions. -/
  | regionCommit (r : Fin 8) (m : Fin 4)
  /-- RECOLOUR (R150): Mailbox command: Summit recolours unowned granules, with optional zeroing. -/
  | recolour (r : Fin 8) (m : Fin 4)
  /-- PARTITION (R141): Mailbox command: Summit sets the spare blocks and the Scree size. -/
  | partition (r : Fin 8) (m : Fin 4)
  /-- EVACUATE (R167): Mailbox command: Summit lowers REGION_TOP and starts copying a pseudo-channel. -/
  | evacuate (r : Fin 8) (m : Fin 4)
  /-- DEADLINE_ARM (R386): Mailbox command: arms a Summit quiesce timer. -/
  | deadlineArm (r : Fin 8) (m : Fin 4)
  /-- DEADLINE_DONE (R386): Mailbox command: clears a Summit quiesce timer. -/
  | deadlineDone (r : Fin 8) (m : Fin 4)
  /-- SHUTDOWN (R451): Mailbox command: runs the power-down without PWR_WARN_N. -/
  | shutdown (r : Fin 8) (m : Fin 4)
  /-- FW_STAGE (R394): Mailbox command: writes an image to the inactive flash slot and verifies it. -/
  | fwStage (r : Fin 8) (m : Fin 4)
  /-- FW_ACTIVATE (R395): Mailbox command: moves every role to a new Foothill image through planned handovers. -/
  | fwActivate (r : Fin 8) (m : Fin 4)
  /-- SVN_COMMIT (R373): Mailbox command: raises the fuse security version to that of the running image. -/
  | svnCommit (r : Fin 8) (m : Fin 4)
  /-- UNKNOWN_OP (R385): A post with an unassigned opcode replies UNKNOWN_OP. -/
  | unknownOp (r : Fin 8) (m : Fin 4)
  /-- MBX_RPLY_READ (R382): A read of MBX_RPLY_HI consumes the reply and frees the mailbox. -/
  | mbxRplyRead (c : Master) (r : Fin 8) (m : Fin 4)
  /-- FORCED_QUIESCE (R386): A Summit timer expires and Summit cancels the target's work, freezing a whole tenant with cause 4. -/
  | forcedQuiesce (t : Fin 1024)
  /-- DEBUG_ACCESS (R389): A debug-port request passes the policy filter or is denied and recorded. -/
  | debugAccess (x : DebugReq)
  /-- SUBMIT (R391): DBG_CTL.SUBMIT hands a grant token to Summit, which accepts or refuses it and replaces the nonce. -/
  | submit (m : Master)
  /-- END (R391): DBG_CTL.END ends the active grant; after scan it starts a cold reset. -/
  | endGrant (m : Master)
  /-- GRANT_EXPIRY (R391): The grant ends when DURATION runs out. -/
  | grantExpiry
  /-- I3C_FLASH_WRITE (R380): The board management controller writes a flash slot over I3C, and Summit verifies it. -/
  | i3cFlashWrite (slot : Fin 6) (data : List Byte)
  /-- TENANT_CREATE (R214): Manager command: creates a tenant in a host domain. -/
  | tenantCreate (src : Fin 130) (seq : BitVec 16) (n : Fin 512) (h : Fin 64)
  /-- TENANT_DESTROY (R214): Manager command: destroys a quiesced tenant that holds no VF and no descriptor. -/
  | tenantDestroy (src : Fin 130) (seq : BitVec 16) (n : Fin 512)
  /-- VF_ALLOT (R198): Manager command: sets TOTALVFS and BAR2 size of a PF. -/
  | vfAllot (src : Fin 130) (seq : BitVec 16) (h : Fin 64) (total : Fin 1024) (log2 : Fin 64)
  /-- VF_BIND (R214): Manager command: binds a VF to a tenant. -/
  | vfBind (src : Fin 130) (seq : BitVec 16) (v n : Fin 512)
  /-- SHARE_SET (R116): Manager command: sets the tenant's VOQ minimum and cap. -/
  | shareSet (src : Fin 130) (seq : BitVec 16) (n : Fin 512) (tiles : BitVec 16) (min cap : Fin 131072)
  /-- WEIGHT_SET (R214): Manager command: sets the Saddle and Traverse weights. -/
  | weightSet (src : Fin 130) (seq : BitVec 16) (n : Fin 512) (saddle trv : Fin 256)
  /-- CTX_CAP_SET (R203): Manager command: sets the tenant's context cap. -/
  | ctxCapSet (src : Fin 130) (seq : BitVec 16) (n : Fin 512) (cap : Fin 32768)
  /-- REGION_SET (R214): Manager command: passes a descriptor to Summit for commit. -/
  | regionSet (src : Fin 130) (seq : BitVec 16) (i : Fin 4096) (w : Vector W32 6)
  /-- MGR_RECOLOUR (R214): Manager command RECOLOUR, passed to Summit. -/
  | mgrRecolour (src : Fin 130) (seq : BitVec 16) (first count : Fin 131072) (colour : Fin 16) (zero : Bool)
  /-- FUNC_ASSIGN (R294): Manager command: assigns downstream functions to a host domain. -/
  | funcAssign (src : Fin 130) (seq : BitVec 16) (h : Fin 64) (k : Fin 32) (dev : Fin 256) (p : Fin 128) (lo hi : BitVec 16)
  /-- TRVQ_SET (R214): Manager command: sets a queue's peer windows and allowed descriptors. -/
  | trvqSet (src : Fin 130) (seq : BitVec 16) (q : Fin 4096) (wins : List (W64 × W64 × Bool × Fin 128)) (descs : List (Fin 4096))
  /-- QUIESCE (R216): Manager command: drains or cancels a tenant's or VF's work before a deadline. -/
  | quiesce (src : Fin 130) (seq : BitVec 16) (t : Fin 1024) (cancel : Bool) (ms : BitVec 16)
  /-- QUIESCE_DEADLINE (R216): At the deadline, an unfinished QUIESCE returns DEADLINE_MISSED and cancels. -/
  | quiesceDeadline (t : Fin 1024)
  /-- RELEASE (R214): Manager command: returns a tenant or VF to normal. -/
  | release (src : Fin 130) (seq : BitVec 16) (t : Fin 1024)
  /-- QUERY (R214): Manager command: returns a tenant's state and counts. -/
  | query (src : Fin 130) (seq : BitVec 16) (n : Fin 512)
  /-- VF_UNBIND (R214): Manager command: unbinds a quiesced VF. -/
  | vfUnbind (src : Fin 130) (seq : BitVec 16) (v : Fin 512)
  /-- ENABLE (R209): Queue ENABLE = 1 requests a context and starts the queue; 0 disables it. -/
  | enable (q : Fin 4096) (on : Bool)
  /-- RESUME (R209): Restarts a stopped queue at HEAD. -/
  | resume (q : Fin 4096)
  /-- TAIL_WRITE (R209): The doorbell posts descriptors up to TAIL, or is kept or ignored according to STATE. -/
  | tailWrite (q : Fin 4096) (v : BitVec 16)
  /-- DESCRIPTOR_START (R205): An engine starts the next descriptor, or stops the queue on a bad descriptor. -/
  | descriptorStart (q : Fin 4096) (e : Fin 32) (w : Vector W64 8)
  /-- SEGMENT_WRITE (R204): Once all read data of a segment is in the reorder buffer, the engine issues its writes. -/
  | segmentWrite (q : Fin 4096) (ue : Bool)
  /-- ENGINE_READ_COMPLETION (R213): A completion for an engine read is placed by tag, or discarded if the transfer has ended. -/
  | engineReadCompletion (e : Fin 32) (entry : Fin 256) (status : Fin 3) (ep : Bool) (data : List Byte)
  /-- COMPLETION_RECORD (R211): The engine writes the completion record, and the MSI-X if asked, after the data writes. -/
  | completionRecord (q : Fin 4096)
  /-- BUS_MASTER_ENABLE_CLEAR (R218): Clearing BME stops the function's requests and its queues with CAUSE 1. -/
  | busMasterEnableClear (p : Fin 128) (v : Option (Fin 512))
  /-- FUNCTION_LEVEL_RESET (R219): An FLR puts the VF in reset-pending and stops its queues. -/
  | functionLevelReset (p : Fin 128) (v : Option (Fin 512))
  /-- FLR_COMPLETE (R219): By 100 ms the VF's state takes reset values and its queue contexts are released. -/
  | flrComplete (v : Fin 512)
  /-- PF_VFS_WRITE (R198): A write of FN.PF_VFS is taken, or refused and counted. -/
  | pfVfsWrite (m : Master) (i : Fin 64) (v : W32)
  /-- VOQ_TEN_MIN_WRITE (R116): A tenant minimum write is taken, or refused with MIN_REFUSED. -/
  | voqTenMinWrite (m : Master) (t : Fin 16) (v : W32)
  /-- FABRIC_ID_WRITE (R221): A write of DEV or FABRIC is refused while a Theox port is active. -/
  | fabricIdWrite (m : Master) (v : W32)
  /-- THX_CTL_WRITE (R222): A write of THX_CTL configures a Theox port or starts its training. -/
  | thxCtlWrite (m : Master) (p : Fin 128) (v : W32)
  /-- THEOX_DETECT (R223): Every 12 ms in T.DETECT, the port senses far-end termination on each lane. -/
  | theoxDetect (p : Fin 128) (lanes : Fin 17)
  /-- TRAINING_BLOCK (R224): A received training block drives equalisation and configuration, or is ignored on a bad CRC. -/
  | trainingBlock (p : Fin 128) (block : List Byte) (crcOk : Bool) (lane width : Fin 16) (reversed inverted done : Bool) (lost : Option (Fin 16))
  /-- THEOX_TRAINING_TIMEOUT (R223): A training or recovery state runs out of time and the port returns to T.DETECT. -/
  | theoxTrainingTimeout (p : Fin 128)
  /-- THEOX_FLIT (R230): A received flit is checked, delivered or NAKed, and its acknowledgement and credits are taken. -/
  | theoxFlit (p : Fin 128) (x : Flit)
  /-- SPARE_NOW (R236): Spares the named lane at once. -/
  | spareNow (p : Fin 128) (lane : Fin 16)
  /-- SPARE_REQ (R236): A received SPARE_REQ makes the partner drive the lane's stream on lane 15 too. -/
  | spareReq (p : Fin 128) (lane : Fin 16)
  /-- SPARE_ACK (R236): A received SPARE_ACK stops the old lane and sets SPARE_USED. -/
  | spareAck (p : Fin 128) (lane : Fin 16)
  /-- FABRIC_ROUTE_WRITE (R245): A route write reaches all tiles, with an optional drain hold. -/
  | fabricRouteWrite (m : Master) (dev : Fin 256) (v : W32)
  /-- ROUTE_DRAIN_END (R245): The drain hold ends once old segments are acknowledged and DRAIN_WAIT has passed. -/
  | routeDrainEnd (dev : Fin 256)
  /-- PD_NOTICE_SEND (R249): At the end of a 10 µs coalescing period, a gathered posted-discard notice is sent. -/
  | pdNoticeSend (dev : Fin 256) (port : Fin 128) (tenant : Fin 512)
  /-- PD_NOTICE (R251): A received notice reports an error to the host domain and may end a Traverse descriptor. -/
  | pdNotice (payload : List Byte)
  /-- SLOT_EVT (R252): A received slot event updates the mapped vDSP and sets EVENT.SLOT. -/
  | slotEvt (dev : Fin 256) (port : Fin 128) (ev : BitVec 8)
  /-- PWR_ALERT (R252): A received slot-power fault updates the mapped vDSP. -/
  | pwrAlert (dev : Fin 256) (port : Fin 128) (cause : Fin 8)
  /-- COL_MESSAGE_RECEIVE (R255): A Col message for this member goes to its hardware unit or to the receive ring, with a doorbell. -/
  | colMessageReceive (arrival : Fin 3) (src : Option (Fin 256 × Fin 128)) (m : List Byte)
  /-- COL_RING_FRAME (R258): A ring frame is delivered, forwarded with RING_HOPS − 1, or discarded. -/
  | colRingFrame (k : Fin 2) (frame : List Byte)
  /-- COL_TX (R259): Advancing TX_CTL.TAIL sends messages by their route. -/
  | colTx (m : Master) (v : W32)
  /-- CAIRN_REQ (R420): Summit answers with CAIRN_DATA messages of 7 records. -/
  | cairnReq (arrival : Fin 3) (dest : Fin 256) (first count : BitVec 16)
  /-- TIME_SYNC (R260): Every 1 µs the ends of a link exchange timestamps and the servo adjusts the time base. -/
  | timeSync (src : Fin 3) (p : Fin 128) (roundTrip : Fin 131072) (ahead : Int)
  /-- STEP (R260): TIME_CTL.STEP sets the count to the source's time. -/
  | step (m : Master) (ahead : Int)
  /-- TIME_SOURCE_LOSS (R261): The time source link goes down and the member enters holdover. -/
  | timeSourceLoss
  /-- JOIN (R262): COL.CTL.JOIN opens the bypass and runs the Col ports. -/
  | join (m : Master) (on : Bool)
  /-- PORT_CTN_FREEZE (R263): PORT[p].CTN_CTL.FREEZE freezes the port with cause 9. -/
  | portCtnFreeze (m : Master) (p : Fin 128)
  /-- TENANT_FREEZE (R268): CTN.TEN_CTL.FREEZE freezes the tenant with cause 5. -/
  | tenantFreeze (m : Master) (n : Fin 512)
  /-- CONTEXT_OVERRUN (R263): A request waiting at its tenant's cap longer than OVR_MS is a tenant trigger. -/
  | contextOverrun (k : Nat)
  /-- CTN_RELEASE (R277): CTN.RELEASE.GO releases a frozen domain if its preconditions hold. -/
  | ctnRelease (m : Master) (kind : Fin 4) (index : Fin 512)
  /-- COMPLETION_TIMEOUT (R271): The request is completed with an error, its context is quarantined, and a record is written. -/
  | completionTimeout (x : TimedReq)
  /-- QUARANTINE_END (R272): A quarantine ends after a further timeout interval. -/
  | quarantineEnd (x : TimedReq)
  /-- LINK_UP (R285): A port's link reaches L0, with flit-mode and CXL fallbacks applied. -/
  | linkUp (p : Fin 128) (rate : Fin 7) (width : Fin 5) (flit : Bool) (cxl : Fin 3) (tenBit : Bool) (fc : List (Nat × Nat)) (phy : Phy)
  /-- LINK_DOWN (R263): A link leaves L0 or T.ACTIVE; a downstream port freezes and an upstream port resets. -/
  | linkDown (p : Fin 128)
  /-- LINK_TRAINING_START (R285): Training of an upstream port starts after PERST_N and ENABLE. -/
  | linkTrainingStart (p : Fin 128)
  /-- REPLAY_TIMER_TIMEOUT (R274): A PCIe replay timer expires and is reported as a correctable error. -/
  | replayTimerTimeout (p : Fin 128)
  /-- L0P_WIDTH_CHANGE (R288): An L0p width change requested by the partner is honoured without loss. -/
  | l0pWidthChange (p : Fin 128) (width : Fin 5)
  /-- BIFUR_WRITE (R283): A bifurcation change is taken only while all ports are disabled and frozen. -/
  | bifurWrite (m : Master) (t : Fin 16) (v : W32)
  /-- PORT_CFG_WRITE (R284): A port configuration write is taken, ignored while enabled, or refused. -/
  | portCfgWrite (m : Master) (p : Fin 128) (v : W32)
  /-- CONFIG_REQUEST (R296): The configuration responder answers, refuses or forwards a host configuration request. -/
  | configRequest (k : Nat) (ack : Bool)
  /-- CFG_HOLD_EXPIRY (R298): A held routing write completes when CFG_HOLD expires, and a Cairn event is recorded. -/
  | cfgHoldExpiry (k : Nat)
  /-- IDMAP_READ (R302): IDMAP command: reads an entry. -/
  | idmapRead (i : Fin 4096)
  /-- IDMAP_WRITE (R302): IDMAP command: writes an entry to all copies, or reports DUPLICATE. -/
  | idmapWrite (i : Fin 4096)
  /-- IDMAP_INVALIDATE (R302): IDMAP command: invalidates an entry. -/
  | idmapInvalidate (i : Fin 4096)
  /-- IDMAP_CMD_END (R302): An IDMAP command ends with its status. -/
  | idmapCmdEnd
  /-- LINK_DISABLE (R303): vDSP Link Disable disables the link, or only the host's view. -/
  | linkDisable (h : Fin 64) (k : Fin 32) (on : Bool)
  /-- RETRAIN_LINK (R303): vDSP Retrain Link retrains a transparent local port. -/
  | retrainLink (h : Fin 64) (k : Fin 32)
  /-- SECONDARY_BUS_RESET (R303): Sends hot reset, or makes Foothill issue FLRs in shared mode. -/
  | secondaryBusReset (h : Fin 64) (k : Fin 32)
  /-- ASSERT_INTX (R304): A source asserts its wire and the count may send Assert_INTx. -/
  | assertIntx (dev : Fin 256) (p : Fin 128) (id : BitVec 16) (wire : Fin 4)
  /-- DEASSERT_INTX (R304): A source deasserts its wire and the count may send Deassert_INTx. -/
  | deassertIntx (dev : Fin 256) (p : Fin 128) (id : BitVec 16) (wire : Fin 4)
  /-- POWER_CONTROLLER_CONTROL (R308): The host turns a slot on through the R276 sequence, or off with a freeze. -/
  | powerControllerControl (h : Fin 64) (k : Fin 32) (off : Bool)
  /-- INDICATOR_CONTROL (R308): An indicator write is reported to the BMC and Command Completed is set. -/
  | indicatorControl (h : Fin 64) (k : Fin 32) (attn power : Fin 4)
  /-- DPC_SOFTWARE_TRIGGER (R309): The host's DPC Software Trigger freezes the physical port with cause 12. -/
  | dpcSoftwareTrigger (h : Fin 64) (k : Fin 32)
  /-- PTM_REQUEST (R313): A PTM responder answers with fabric time. -/
  | ptmRequest (p : Fin 128)
  /-- PTM_EXCHANGE (R314): At its interval the USP exchanges PTM with the host and latches the times. -/
  | ptmExchange (p : Fin 128) (host : W64)
  /-- HDM_COMMIT (R317): The host commits an HDM decoder, which Foothill mirrors or which ends in Error Not Committed. -/
  | hdmCommit (p : Fin 128) (i : Fin 8) (base size skip : W64) (ways : Fin 16) (ack : Bool)
  /-- CXL_MAILBOX_COMMAND (R318): Foothill serves a memory device mailbox command, and other opcodes are Unsupported. -/
  | cxlMailboxCommand (p : Fin 128) (op : BitVec 16)
  /-- DOWNSTREAM_PORT_RESET (R320): A downstream port reset freezes the port with cause 11 or 2. -/
  | downstreamPortReset (p : Fin 128) (surprise : Bool)
  /-- TX_TAPS_WRITE (R324): A TX_TAPS1 write applies both tap registers, or is refused. -/
  | txTapsWrite (n : Fin 258) (v : W32)
  /-- ADAPTATION_UPDATE (R328): Every 1,024 UI the receiver may step its CTLE, gain and DFE taps. -/
  | adaptationUpdate (n : Fin 258) (steps : Vector (Fin 3) 14)
  /-- DENSITY_WINDOW (R329): At the end of a 4,096-UI window, adaptation freezes or data resumes. -/
  | densityWindow (n : Fin 258) (transitions : Fin 4097) (idle : Bool)
  /-- RESUME_CHECK (R330): After data resumes, the lane runs a margin check. -/
  | resumeCheck (n : Fin 258)
  /-- PERIODIC_CHECK (R330): Every PERIOD ms the lane runs a margin check. -/
  | periodicCheck (n : Fin 258)
  /-- MARGIN_CHECK_END (R331): A failed check sets MARGIN_FAIL and spares the lane or requests an equalisation re-run. -/
  | marginCheckEnd (n : Fin 258) (height : Fin 256) (width : Fin 64)
  /-- EYE_SCAN (R333): EYE_CTL.GO starts an eye scan, or is refused. -/
  | eyeScan (n : Fin 258) (v : W32)
  /-- EYE_SCAN_END (R333): The scan ends after its dwell, or ends early. -/
  | eyeScanEnd (n : Fin 258) (count : Nat)
  /-- LANE_MARGINING (R334): A host Lane Margining command steps the auxiliary sampler. -/
  | laneMargining (p : Fin 128) (l : Fin 16) (type : Fin 8) (payload : Byte)
  /-- CDR_LOSS_OF_LOCK (R338): A CDR loses lock, which is counted and recorded. -/
  | cdrLossOfLock (n : Fin 258)
  /-- BITSLIP (R340): Moves the receive boundary COUNT UI, or is refused. -/
  | bitslip (n : Fin 258) (count : Fin 64)
  /-- LANE_CFG_WRITE (R344): A write of LOOP, TX_OVERRIDE or the generator is taken only on a disabled port. -/
  | laneCfgWrite (n : Fin 258) (prbs : Bool) (v : W32)
  /-- CLEAR (R346): PRBS_CTL.CLEAR clears the error and bit counts. -/
  | clear (n : Fin 258)
  /-- INJECT (R346): PRBS_CTL.INJECT inverts one generator bit. -/
  | inject (n : Fin 258)
  /-- ON (R349): PWR_CTL.ON = 1 enables the channel, or is refused for zero settings. -/
  | slotOn (s_ : Fin 32)
  /-- SLOT_OFF (R359): ON = 0 turns the gate off through 10 mA and starts the restart timer. -/
  | slotOff (s_ : Fin 32)
  /-- SLOT_CLEAR (R359): PWR_CTL.CLEAR clears LATCHED, RETRIES and the fault bits. -/
  | slotClear (s_ : Fin 32)
  /-- PWR_LIMIT_WRITE (R348): A limit or fold-back write is taken, or refused with LIMIT_REFUSED. -/
  | pwrLimitWrite (s_ : Fin 32) (fold : Bool) (v : W32)
  /-- RAMP_START (R350): When all R349 conditions hold, the channel starts a current-limited ramp. -/
  | rampStart (s_ : Fin 32) (vin src : Fin 4096)
  /-- POWER_GOOD_ASSERT (R351): After 1 ms of full enhancement, power-good asserts. -/
  | powerGoodAssert (s_ : Fin 32) (vin src vgs : Fin 4096)
  /-- POWER_GOOD_DEASSERT (R351): Power-good deasserts on a gate or source drop. -/
  | powerGoodDeassert (s_ : Fin 32) (vin src vgs : Fin 4096)
  /-- SLOT_PERST_RELEASE (R352): SLOT_PERST_N deasserts 100 ms after power-good, or when PERST is cleared after that. -/
  | slotPerstRelease (s_ : Fin 32)
  /-- FAULT_TIMER_EXPIRY (R353): The fault time in regulation ends and the channel trips. -/
  | faultTimerExpiry (s_ : Fin 32) (sense : Fin 4096)
  /-- HARD_SHORT (R355): Sense voltage above V_HS switches on the 2 A sink within 1 µs. -/
  | hardShort (s_ : Fin 32) (sense : Fin 4096)
  /-- GATE_FAIL (R356): 5 ms of sourcing with V_GS below 3 V latches the channel off. -/
  | gateFail (s_ : Fin 32) (vgs : Fin 4096)
  /-- FET_SHORT (R356): The source stays high with the gate off and the channel latches. -/
  | fetShort (s_ : Fin 32) (vin src : Fin 4096)
  /-- RESTART_TIMER_EXPIRY (R357): The restart timer ends and the channel may ramp again. -/
  | restartTimerExpiry (s_ : Fin 32)
  /-- RETRIES_CLEAR (R354): After power-good holds for 1 s, RETRIES clears. -/
  | retriesClear (s_ : Fin 32)
  /-- PRESENCE_STABLE (R358): Presence held for 200 ms becomes stable. -/
  | presenceStable (s_ : Fin 32)
  /-- SIDEBAND_EDGE (R364): A sideband input holds a level for DEB_US and its filtered value changes. -/
  | sidebandEdge (i : Fin 131) (level : Bool)
  /-- STUCK (R365): An input asserted for STUCK + 1 s is masked. -/
  | stuck (i : Fin 131)
  /-- CHATTER (R366): A window with too many raw edges masks the input. -/
  | chatter (i : Fin 131) (edges : Nat) (raw : Bool)
  /-- REARM (R367): Unmasks the input and restarts its debounce and chatter window. -/
  | rearm (m : Master) (i : Fin 131)
  /-- DOORBELL (R187): A write of SPUR[c].DOORBELL sets EVENT.DOORBELL of core c. -/
  | doorbell (m : Master) (c : Fin 9)
  /-- KICK (R191): WDOG.KICK restarts the watchdog. -/
  | kick (m : Master) (c : Fin 9)
  /-- WATCHDOG_EXPIRY (R191): A watchdog period passes without a kick and the core fails. -/
  | watchdogExpiry (c : Fin 9)
  /-- REQUEST (R192): SPUR.HANDOVER.REQUEST starts a planned handover, or is refused. -/
  | request (m : Master) (from_ : BitVec 4)
  /-- YIELD (R192): The outgoing handler yields and its role moves without discards. -/
  | yield (m : Master)
  /-- YIELD_TIMEOUT (R192): No YIELD within 4,096 tb fails the outgoing core. -/
  | yieldTimeout
  /-- CNT_SEL_WRITE (R401): A counter selection write is taken, or refused with SEL_REFUSED. -/
  | cntSelWrite (m : Master) (v : W32)
  /-- CNT_VAL_WRITE (R402): The VAL_HI write sets the 48-bit count, with events of that cc added. -/
  | cntValWrite (m : Master) (v : W32)
  /-- GO (R404): SNAP_CTL.GO requests a snapshot at the next eligible tb edge. -/
  | go (m : Master)
  /-- RUN (R406): A write of RUN starts or stops counting at its strobe. -/
  | run (m : Master) (on : Bool)
  /-- SNAPSHOT_STROBE (R404): Every counter is copied into a snapshot bank in one cc, or the strobe is skipped. -/
  | snapshotStrobe
  /-- DUMP_PERIOD (R407): A dump period boundary raises a strobe. -/
  | dumpPeriod
  /-- DUMP_ENTRY_COMPLETE (R409): A dump entry is written with VALID, or faults or overflows. -/
  | dumpEntryComplete
  /-- DUMP_CTL_WRITE (R409): Enabling a dump ring that does not fit is refused with DUMP_REFUSED. -/
  | dumpCtlWrite (m : Master) (v : W32)
  /-- BW_WINDOW_BOUNDARY (R411): At a window boundary, each window's bytes ÷ 64 become its value. -/
  | bwWindowBoundary (p : Fin 128)
  /-- CAIRN_RECORD (R414): A source's record is written to the Cairn ring, or dropped and counted. -/
  | cairnRecord (src inst : Fin 256)
  /-- FREEZE (R416): CAIRN.CTL.FREEZE freezes the Cairn with cause 4. -/
  | freeze (m : Master)
  /-- ARM (R418): A Summit write of ARM re-arms a frozen Cairn. -/
  | arm (m : Master)
  /-- RD_IDX_WRITE (R419): A write of CAIRN.RD_IDX latches a whole record for this master. -/
  | rdIdxWrite (m : Master) (i : Fin 8192)
  /-- BIST_START (R426): Mailbox command: requests a test, which waits for admission or is refused. -/
  | bistStart (r : Fin 8) (m : Fin 4)
  /-- BIST_ADMIT (R424): A waiting test is admitted within the budget and starts; a tile test follows R434. -/
  | bistAdmit
  /-- BIST_END (R428): A test ends, writes its result records and replies. -/
  | bistEnd (kind : Fin 4) (i : Fin 32) (failures : List BistFail)
  /-- BIST_ABORT (R427): Mailbox command: ends a running or waiting test with ABORTED. -/
  | bistAbort (r : Fin 8) (m : Fin 4)
  /-- SOFT_REPAIR (R432): Mailbox command: requests a soft repair of a row. -/
  | softRepair (r : Fin 8) (m : Fin 4)
  /-- SOFT_REPAIR_COPY (R432): In an idle window, or one forced after 1 ms, the row is copied to a spare and remapped. -/
  | softRepairCopy (inst : BitVec 16) (row : BitVec 24) (why : Fin 3)
  /-- FUSE_REPAIR (R430): Mailbox command: copies the unfused soft repairs into the fuses. -/
  | fuseRepair (r : Fin 8) (m : Fin 4)
  /-- RETURN (R435): Mailbox command: makes a tested core the spare, or returns an engine to service. -/
  | returnUnit (r : Fin 8) (m : Fin 4)
  /-- ILLEGAL_INSTRUCTION (R26): A Spur core fetches a Notch-only instruction, a reserved opcode or a word with a non-zero reserved field and takes an illegal-instruction exception. -/
  | illegalInstruction (c : Fin 9) (word : W32)
  /-- HANDOVER_DONE (R193): At the end of the SRAM copy the role moves to the spare, which takes exception 7 with DETAIL 0. -/
  | handoverDone
  /-- TILE_RESET_END (R21): A tile reset requested by Foothill ends, which meets part of the tile's release precondition. -/
  | tileResetEnd (t : Fin 16)
  /-- TARN_INITIALISATION_DONE (R376): The Tarn initialisation of R149 ends, so REGION_COMMIT, RECOLOUR, PARTITION and EVACUATE stop replying BUSY. -/
  | tarnInitialisationDone
  /-- FW_STAGE_DONE (R394): Flash programming and read-back verification of a staged image end, and Summit replies and may set SUMMIT_PENDING. -/
  | fwStageDone (ok : Bool)
  /-- SPARE_RELOAD_DONE (R395): During FW_ACTIVATE a freed core finishes its reload and verification from flash, becomes the spare, and the next role's handover is requested. -/
  | spareReloadDone (ok : Bool)
  /-- CLKREQ_N_CHANGE (R288): A port's CLKREQ_N pin changes level through its synchroniser, driving L1 PM Substates entry or exit. -/
  | clkreqNChange (p : Fin 128) (level : Bool)
  /-- DLLP_RECEIVED (R289): A received PCIe DLLP (UpdateFC, Ack or Nak, or power management) returns credits or drives acknowledgement and replay. -/
  | dllpReceived (p : Fin 128) (x : Dllp)
  /-- PRBS_CHECKER_LOCK (R346): The pattern checker locks after 64 consecutive error-free bits and starts counting. -/
  | prbsCheckerLock (n : Fin 258)
  /-- PRBS_CHECKER_LOCK_LOSS (R346): The checker sees 32 of 64 bits in error, drops lock, counts LOSS and seeds again. -/
  | prbsCheckerLockLoss (n : Fin 258) (errors : Nat)
  /-- COL_LOSS_OF_SIGNAL (R262): A Col port loses signal from its neighbour, sets STATE 3 and raises a link event. -/
  | colLossOfSignal (k : Fin 2)
  /-- COL_TRAINING_DONE (R256): A Col link finishes training, up to 1.5 ms after it starts, and its port goes up. -/
  | colTrainingDone (k : Fin 2)
  /-- TILE_REF_CHECK (R13): Every 40,000 tb the device measures each REFCLK_Tnn against CLK_TB and updates TILE_REF_OK. -/
  | tileRefCheck (ok : BitVec 16)
  deriving DecidableEq, Repr

end Sys2Proof
end

