-- ==== Sys2Proof/Decode.lean ====
section
/-! DEFINITION. `decodeTableWord` over the rows of the table that give bits (none does), and the Ridge instruction words:
their decoder and encoder (R28, R30 to R32, R41, R55), which the bank check (R47, R90) and the illegal-instruction exception
(R26) read. -/

namespace Sys2Proof

/-- No row of the table gives bits, so no word spells a command. -/
def decodeTableWord (_nbits _w : Nat) : Option Instr := none

/-- Common register operations of opcode 0x00 with a destination (R33). -/
inductive AluFn where
  | add | sub | and | or | xor | andn | shl | shr | sar | min | max | minu | maxu | hash
  deriving DecidableEq, Repr

/-- Spur-only register operations (R33). -/
inductive MulFn where
  | mul | mulhu | divu | remu
  deriving DecidableEq, Repr

/-- I-format operations with a full imm14 (R35). -/
inductive ImmFn where
  | addi | andi | ori | xori | cati
  deriving DecidableEq, Repr

/-- Shifts by an immediate (R35). -/
inductive ShiftFn where
  | shli | shri | sari
  deriving DecidableEq, Repr

/-- Field operations (R35). -/
inductive FieldFn where
  | exti | extsi | insi
  deriving DecidableEq, Repr

/-- Memory and device access (R49). -/
inductive MemFn where
  | ld | lds | st | ldx | stx | ldio | stio
  deriving DecidableEq, Repr

/-- System operations without operands (R55). -/
inductive SysFn where
  | barSt | barDev | barFull | iflush | hret | hretb | brk
  deriving DecidableEq, Repr

/-- CSR access (R55). -/
inductive CsrFn where
  | csrr | csrw | csrs | csrc
  deriving DecidableEq, Repr

/-- Emit actions without an immediate (R41). -/
inductive EmitFn where
  | fwd | mcg | pool | trv | fab | dropu | dropa
  deriving DecidableEq, Repr

/-- A Ridge instruction as its word gives it (R32). -/
inductive Ridge where
  | alu (f : AluFn) (rd : Dst) (rs1 rs2 : Src)
  | cmp (tst : Bool) (rs1 rs2 : Src)
  | mulop (f : MulFn) (rd rs1 rs2 : Fin 32)
  | count (popc : Bool) (rd rs1 : Fin 32)
  | immop (f : ImmFn) (rd : Dst) (rs1 : Src) (imm : Fin 16384)
  | shift (f : ShiftFn) (rd : Dst) (rs1 : Src) (k : Fin 64)
  | cmpImm (tst : Bool) (rs1 : Src) (imm : Fin 16384)
  | field (f : FieldFn) (rd : Dst) (rs1 : Src) (p n1 : Fin 64)
  | jalr (rd rs1 : Fin 32) (imm : Fin 16384)
  | lkx (rd : Fin 32) (rs1 rs2 : Src) (space : Fin 256)
  | lkxTenant (rd : Fin 32) (rs1 : Src)
  | lkw (rd : Fin 32) (rs1 rs2 : Src) (space : Fin 256)
  | bcc (cond : Cond) (off : Fin 4194304)
  | jal (off : Fin 67108864)
  | mem (f : MemFn) (t a : Fin 32) (sz : Size) (off : Fin 16384)
  | sys (f : SysFn)
  | dlset (g : Fin 32) (n : Fin 8)
  | dlwait (g : Fin 32)
  | mbx (g : Fin 32) (m : Fin 4)
  | csr (f : CsrFn) (g : Fin 32) (n : Fin 16384)
  | emit (f : EmitFn)
  | trap (reason : Fin 16384)
  deriving DecidableEq, Repr

/-- Why a word is no instruction: its encoding, or a bank value that R28 reserves. -/
inductive WordErr where
  | encoding | banks
  deriving DecidableEq, Repr

/-- Bits `[lsb + n - 1 : lsb]` of a word. -/
def bitsOf (w lsb n : Nat) : Nat := w / 2 ^ lsb % 2 ^ n

/-- A number below a bound. -/
def fin (n v : Nat) (h : 0 < n) : Fin n := ⟨v % n, Nat.mod_lt v h⟩

/-- The source register a field and a bank bit name; none for a bank value R28 reserves. -/
def srcOf (num bank : Nat) : Option Src :=
  if bank = 0 then some (.g (fin 32 num (by decide)))
  else if num < 16 then some (.h (fin 16 num (by decide))) else none

/-- The destination register a field and a bank bit name. -/
def dstOf (num bank : Nat) : Option Dst :=
  if bank = 0 then some (.g (fin 32 num (by decide)))
  else if num < 8 then some (.o (fin 8 num (by decide))) else none

/-- fn of the common register operations (R33). -/
def AluFn.code : AluFn → Nat
  | .add => 0x00 | .sub => 0x01 | .and => 0x02 | .or => 0x03 | .xor => 0x04 | .andn => 0x05 | .shl => 0x06
  | .shr => 0x07 | .sar => 0x08 | .min => 0x09 | .max => 0x0A | .minu => 0x0B | .maxu => 0x0C | .hash => 0x0F

def aluFnOf : Nat → Option AluFn
  | 0x00 => some .add | 0x01 => some .sub | 0x02 => some .and | 0x03 => some .or | 0x04 => some .xor
  | 0x05 => some .andn | 0x06 => some .shl | 0x07 => some .shr | 0x08 => some .sar | 0x09 => some .min
  | 0x0A => some .max | 0x0B => some .minu | 0x0C => some .maxu | 0x0F => some .hash | _ => none

def MulFn.code : MulFn → Nat
  | .mul => 0x10 | .mulhu => 0x11 | .divu => 0x12 | .remu => 0x13

def mulFnOf : Nat → Option MulFn
  | 0x10 => some .mul | 0x11 => some .mulhu | 0x12 => some .divu | 0x13 => some .remu | _ => none

/-- Major opcodes of the I format (R32). -/
def ImmFn.op : ImmFn → Nat
  | .addi => 0x01 | .andi => 0x02 | .ori => 0x03 | .xori => 0x04 | .cati => 0x0A

def ShiftFn.op : ShiftFn → Nat
  | .shli => 0x05 | .shri => 0x06 | .sari => 0x07

def FieldFn.op : FieldFn → Nat
  | .exti => 0x0B | .extsi => 0x0C | .insi => 0x0D

/-- Major opcodes of the M format (R32). -/
def MemFn.op : MemFn → Nat
  | .ld => 0x20 | .lds => 0x21 | .st => 0x22 | .ldx => 0x23 | .stx => 0x24 | .ldio => 0x28 | .stio => 0x29

def memFnOf : Nat → Option MemFn
  | 0x20 => some .ld | 0x21 => some .lds | 0x22 => some .st | 0x23 => some .ldx | 0x24 => some .stx
  | 0x28 => some .ldio | 0x29 => some .stio | _ => none

def sizeCode : Size → Nat
  | .b => 0 | .h => 1 | .w => 2 | .d => 3

def sizeOf : Nat → Size
  | 0 => .b | 1 => .h | 2 => .w | _ => .d

/-- fn of the system operations (R55). -/
def SysFn.code : SysFn → Nat
  | .barSt => 0x00 | .barDev => 0x01 | .barFull => 0x02 | .iflush => 0x03 | .hret => 0x18 | .hretb => 0x19 | .brk => 0x1A

def sysFnOf : Nat → Option SysFn
  | 0x00 => some .barSt | 0x01 => some .barDev | 0x02 => some .barFull | 0x03 => some .iflush | 0x18 => some .hret
  | 0x19 => some .hretb | 0x1A => some .brk | _ => none

def CsrFn.code : CsrFn → Nat
  | .csrr => 0x10 | .csrw => 0x11 | .csrs => 0x12 | .csrc => 0x13

def csrFnOf : Nat → Option CsrFn
  | 0x10 => some .csrr | 0x11 => some .csrw | 0x12 => some .csrs | 0x13 => some .csrc | _ => none

/-- fn of the emit actions (R41). -/
def EmitFn.code : EmitFn → Nat
  | .fwd => 0 | .mcg => 1 | .pool => 2 | .trv => 3 | .fab => 4 | .dropu => 6 | .dropa => 7

def emitFnOf : Nat → Option EmitFn
  | 0 => some .fwd | 1 => some .mcg | 2 => some .pool | 3 => some .trv | 4 => some .fab | 6 => some .dropu
  | 7 => some .dropa | _ => none

/-- cond of R39. -/
def condCode : Cond → Nat
  | .eq => 0 | .ne => 1 | .lt => 2 | .ge => 3 | .ltu => 4 | .geu => 5 | .gt => 6 | .le => 7 | .gtu => 8 | .leu => 9
  | .hit => 10 | .miss => 11 | .xs => 12 | .xc => 13 | .al => 14

def condOf : Nat → Option Cond
  | 0 => some .eq | 1 => some .ne | 2 => some .lt | 3 => some .ge | 4 => some .ltu | 5 => some .geu | 6 => some .gt
  | 7 => some .le | 8 => some .gtu | 9 => some .leu | 10 => some .hit | 11 => some .miss | 12 => some .xs
  | 13 => some .xc | 14 => some .al | _ => none

def srcNumber : Src → Nat
  | .g n => n.val
  | .h n => n.val

def srcBankBit : Src → Nat
  | .g _ => 0
  | .h _ => 1

def dstNumber : Dst → Nat
  | .g n => n.val
  | .o n => n.val

def dstBankBit : Dst → Nat
  | .g _ => 0
  | .o _ => 1

/-- Format A (R30). -/
def encA (fn : Nat) (rd : Dst) (rs1 rs2 : Src) : Nat :=
  dstNumber rd * 2 ^ 21 + srcNumber rs1 * 2 ^ 16 + srcNumber rs2 * 2 ^ 11 + fn * 2 ^ 5 + dstBankBit rd * 2 ^ 4
    + srcBankBit rs1 * 2 ^ 3 + srcBankBit rs2 * 2 ^ 2

/-- Format I (R30). -/
def encI (op : Nat) (rd : Dst) (rs1 : Src) (imm : Nat) : Nat :=
  op * 2 ^ 26 + dstNumber rd * 2 ^ 21 + srcNumber rs1 * 2 ^ 16 + dstBankBit rd * 2 ^ 15 + srcBankBit rs1 * 2 ^ 14 + imm

/-- Format L (R30). -/
def encL (op rd : Nat) (rs1 rs2 : Src) (tsel space : Nat) : Nat :=
  op * 2 ^ 26 + rd * 2 ^ 21 + srcNumber rs1 * 2 ^ 16 + srcNumber rs2 * 2 ^ 11 + srcBankBit rs1 * 2 ^ 10
    + srcBankBit rs2 * 2 ^ 9 + tsel * 2 ^ 8 + space

/-- Format S with a g register operand (R30). -/
def encS (op fn g imm : Nat) : Nat := op * 2 ^ 26 + fn * 2 ^ 20 + g * 2 ^ 15 + imm

/-- The word of an instruction (R30 to R32). -/
def encodeRidge : Ridge → Nat
  | .alu f rd a b => encA f.code rd a b
  | .cmp tst a b => encA (if tst then 0x0E else 0x0D) (.g 0) a b
  | .mulop f rd a b => encA f.code (.g rd) (.g a) (.g b)
  | .count popc rd a => encA (if popc then 0x15 else 0x14) (.g rd) (.g a) (.g 0)
  | .immop f rd a imm => encI f.op rd a imm
  | .shift f rd a k => encI f.op rd a k
  | .cmpImm tst a imm => encI (if tst then 0x09 else 0x08) (.g 0) a imm
  | .field f rd a p n1 => encI f.op rd a (p + 64 * n1)
  | .jalr rd a imm => encI 0x0E (.g rd) (.g a) imm
  | .lkx rd a b space => encL 0x10 rd a b 0 space
  | .lkxTenant rd a => encL 0x10 rd a (.g 0) 1 0
  | .lkw rd a b space => encL 0x11 rd a b 0 space
  | .bcc cond off => 0x18 * 2 ^ 26 + condCode cond * 2 ^ 22 + off
  | .jal off => 0x19 * 2 ^ 26 + off
  | .mem f t a sz off => f.op * 2 ^ 26 + t * 2 ^ 21 + a * 2 ^ 16 + sizeCode sz * 2 ^ 14 + off
  | .sys f => encS 0x38 f.code 0 0
  | .dlset g n => encS 0x38 0x08 g n
  | .dlwait g => encS 0x38 0x09 g 0
  | .mbx g m => encS 0x38 0x0A g m
  | .csr f g n => encS 0x38 f.code g n
  | .emit f => encS 0x3C f.code 0 0
  | .trap reason => encS 0x3C 0x05 0 reason

/-- Format A: a word of opcode 0x00. -/
def decodeA (w : Nat) : Except WordErr Ridge :=
  let rd := bitsOf w 21 5
  let r1 := bitsOf w 16 5
  let r2 := bitsOf w 11 5
  let fn := bitsOf w 5 6
  let bd := bitsOf w 4 1
  let b1 := bitsOf w 3 1
  let b2 := bitsOf w 2 1
  if bitsOf w 0 2 ≠ 0 then .error .encoding
  else if fn = 0x0D ∨ fn = 0x0E then
    if rd ≠ 0 ∨ bd ≠ 0 then .error .encoding
    else match srcOf r1 b1, srcOf r2 b2 with
      | some a, some b => .ok (.cmp (fn == 0x0E) a b)
      | _, _ => .error .banks
  else if fn = 0x14 ∨ fn = 0x15 then
    if r2 ≠ 0 ∨ b2 ≠ 0 ∨ bd ≠ 0 ∨ b1 ≠ 0 then .error .encoding
    else .ok (.count (fn == 0x15) (fin 32 rd (by decide)) (fin 32 r1 (by decide)))
  else match aluFnOf fn, mulFnOf fn with
    | some f, _ =>
      (match dstOf rd bd, srcOf r1 b1, srcOf r2 b2 with
        | some d, some a, some b => .ok (.alu f d a b)
        | _, _, _ => .error .banks)
    | none, some f =>
      if bd ≠ 0 ∨ b1 ≠ 0 ∨ b2 ≠ 0 then .error .encoding
      else .ok (.mulop f (fin 32 rd (by decide)) (fin 32 r1 (by decide)) (fin 32 r2 (by decide)))
    | none, none => .error .encoding

/-- Format I with operand checks `ok` on the immediate and a builder. -/
def decodeI (w : Nat) (ok : Bool) (mk : Dst → Src → Ridge) : Except WordErr Ridge :=
  if ok then
    match dstOf (bitsOf w 21 5) (bitsOf w 15 1), srcOf (bitsOf w 16 5) (bitsOf w 14 1) with
    | some d, some a => .ok (mk d a)
    | _, _ => .error .banks
  else .error .encoding

/-- CMPI and TSTI. -/
def decodeCmpI (w : Nat) (tst : Bool) : Except WordErr Ridge :=
  if bitsOf w 21 5 ≠ 0 ∨ bitsOf w 15 1 ≠ 0 then .error .encoding
  else match srcOf (bitsOf w 16 5) (bitsOf w 14 1) with
    | some a => .ok (.cmpImm tst a (fin 16384 w (by decide)))
    | none => .error .banks

/-- Format L: LKX and LKW. -/
def decodeL (w : Nat) (lkw : Bool) : Except WordErr Ridge :=
  let rd := fin 32 (bitsOf w 21 5) (by decide)
  let space := fin 256 w (by decide)
  let tsel := bitsOf w 8 1
  if tsel = 1 ∧ (lkw ∨ bitsOf w 11 5 ≠ 0 ∨ bitsOf w 9 1 ≠ 0 ∨ bitsOf w 0 8 ≠ 0) then .error .encoding
  else match srcOf (bitsOf w 16 5) (bitsOf w 10 1), srcOf (bitsOf w 11 5) (bitsOf w 9 1) with
    | some a, some b =>
      if lkw then .ok (.lkw rd a b space) else if tsel = 1 then .ok (.lkxTenant rd a) else .ok (.lkx rd a b space)
    | _, _ => .error .banks

/-- Opcode 0x38: system operations. -/
def decodeSys (w : Nat) : Except WordErr Ridge :=
  let fn := bitsOf w 20 6
  let gf := bitsOf w 15 5
  let g := fin 32 gf (by decide)
  let imm := bitsOf w 0 14
  if bitsOf w 14 1 ≠ 0 then .error .encoding
  else match sysFnOf fn, csrFnOf fn with
    | some f, _ => if gf ≠ 0 ∨ imm ≠ 0 then .error .encoding else .ok (.sys f)
    | none, some f => .ok (.csr f g (fin 16384 w (by decide)))
    | none, none =>
      if fn = 0x08 then (if 7 < imm then .error .encoding else .ok (.dlset g (fin 8 imm (by decide))))
      else if fn = 0x09 then (if imm ≠ 0 then .error .encoding else .ok (.dlwait g))
      else if fn = 0x0A then (if 3 < imm then .error .encoding else .ok (.mbx g (fin 4 imm (by decide))))
      else .error .encoding

/-- Opcode 0x3C: emit actions (R41). -/
def decodeEmit (w : Nat) : Except WordErr Ridge :=
  let fn := bitsOf w 20 6
  if bitsOf w 14 6 ≠ 0 then .error .encoding
  else if fn = 0x05 then .ok (.trap (fin 16384 w (by decide)))
  else match emitFnOf fn with
    | some f => if bitsOf w 0 14 ≠ 0 then .error .encoding else .ok (.emit f)
    | none => .error .encoding

/-- Opcode 0x18: Bcc. -/
def decodeBcc (w : Nat) : Except WordErr Ridge :=
  match condOf (bitsOf w 22 4) with
  | some c => .ok (.bcc c (fin 4194304 w (by decide)))
  | none => .error .encoding

/-- JALR: every bank bit is reserved in the full profile (R28). -/
def decodeJalr (w : Nat) : Except WordErr Ridge :=
  if bitsOf w 14 2 ≠ 0 then .error .encoding
  else .ok (.jalr (fin 32 (bitsOf w 21 5) (by decide)) (fin 32 (bitsOf w 16 5) (by decide)) (fin 16384 w (by decide)))

/-- Format M. -/
def decodeM (w : Nat) (f : MemFn) : Except WordErr Ridge :=
  .ok (.mem f (fin 32 (bitsOf w 21 5) (by decide)) (fin 32 (bitsOf w 16 5) (by decide)) (sizeOf (bitsOf w 14 2))
    (fin 16384 w (by decide)))

/-- The instruction a 32-bit word encodes, or why it encodes none (R30 to R32). -/
def decodeRidge (w : Nat) : Except WordErr Ridge :=
  let imm := fin 16384 w (by decide)
  match bitsOf w 26 6 with
  | 0x00 => decodeA w
  | 0x01 => decodeI w true fun d a => .immop .addi d a imm
  | 0x02 => decodeI w true fun d a => .immop .andi d a imm
  | 0x03 => decodeI w true fun d a => .immop .ori d a imm
  | 0x04 => decodeI w true fun d a => .immop .xori d a imm
  | 0x05 => decodeI w (bitsOf w 6 8 == 0) fun d a => .shift .shli d a (fin 64 w (by decide))
  | 0x06 => decodeI w (bitsOf w 6 8 == 0) fun d a => .shift .shri d a (fin 64 w (by decide))
  | 0x07 => decodeI w (bitsOf w 6 8 == 0) fun d a => .shift .sari d a (fin 64 w (by decide))
  | 0x08 => decodeCmpI w false
  | 0x09 => decodeCmpI w true
  | 0x0A => decodeI w true fun d a => .immop .cati d a imm
  | 0x0B => decodeI w (bitsOf w 12 2 == 0) fun d a =>
      .field .exti d a (fin 64 w (by decide)) (fin 64 (bitsOf w 6 6) (by decide))
  | 0x0C => decodeI w (bitsOf w 12 2 == 0) fun d a =>
      .field .extsi d a (fin 64 w (by decide)) (fin 64 (bitsOf w 6 6) (by decide))
  | 0x0D => decodeI w (bitsOf w 12 2 == 0) fun d a =>
      .field .insi d a (fin 64 w (by decide)) (fin 64 (bitsOf w 6 6) (by decide))
  | 0x0E => decodeJalr w
  | 0x10 => decodeL w false
  | 0x11 => decodeL w true
  | 0x18 => decodeBcc w
  | 0x19 => .ok (.jal (fin 67108864 w (by decide)))
  | 0x38 => decodeSys w
  | 0x3C => decodeEmit w
  | op => match memFnOf op with
    | some f => decodeM w f
    | none => .error .encoding

/-- A Spur-only instruction (R25). -/
def Ridge.spurOnly : Ridge → Bool
  | .mulop .. | .count .. | .jalr .. | .jal .. | .mem .. | .sys .. | .dlset .. | .dlwait .. | .mbx .. | .csr .. => true
  | _ => false

/-- A Notch-only instruction (R25). -/
def Ridge.notchOnly : Ridge → Bool
  | .lkx .. | .lkxTenant .. | .lkw .. | .emit .. | .trap .. => true
  | _ => false

def srcIsG : Src → Bool
  | .g _ => true
  | .h _ => false

def dstIsG : Dst → Bool
  | .g _ => true
  | .o _ => false

/-- No bank bit is set: what the full profile requires (R28). -/
def Ridge.noBanks : Ridge → Bool
  | .alu _ d a b => dstIsG d && srcIsG a && srcIsG b
  | .cmp _ a b => srcIsG a && srcIsG b
  | .immop _ d a _ => dstIsG d && srcIsG a
  | .shift _ d a _ => dstIsG d && srcIsG a
  | .cmpImm _ a _ => srcIsG a
  | .field _ d a _ _ => dstIsG d && srcIsG a
  | _ => true

end Sys2Proof
end

