-- ==== Sys2Proof/Config.lean ====
section
/-! DEFINITION. What the spec leaves open: constants without a body, of which nothing can be proved but that they are there.
A free value with a counter argument is drawn with the counter of `Dev.free`, which each draw advances. -/

namespace Sys2Proof

/-- The two hashes of the exact-match table (R82 does not give them): the bucket of `key` in half `h`, modulo 8,192. -/
opaque Config.bucketOf (h key : Nat) : Nat

/-- A word of a memory or register whose value the spec calls undefined (R8, R19, R163, R178). -/
opaque Config.freeWord : Nat → W64

/-- A result of Summit's cryptography or of an analogue measurement that the spec does not give. -/
opaque Config.freeNat : Nat → Nat

/-- Summit's checks of an image against the fuses and by cryptography (R372), of the bytes of the image: the key hash, the
signature, the body hash. -/
opaque Config.imageKeyOk : List Byte → Bool
opaque Config.imageSigOk : List Byte → Bool
opaque Config.imageHashOk : List Byte → Bool

/-- Summit's checks of a grant token (R391), of its bytes: the key hash against the fuses, the signature, the MAC of an entry
under the lock key of its region. -/
opaque Config.tokenKeyOk : List Byte → Bool
opaque Config.tokenSigOk : List Byte → Bool
opaque Config.tokenMacOk : List Byte → Nat → Bool

/-- What an endpoint behind a shared port has at a BAR register: the writable bits and the fixed ones (R299: sized from the PF's VF BARs),
by device, port, function and offset. -/
opaque Config.barMask (dev port id off : Nat) : Nat
opaque Config.barFixed (dev port id off : Nat) : Nat

/-- The bits of a presented function's Command and Status that the function itself holds (R300), at a time. -/
opaque Config.commandRest (dev port id time : Nat) : Nat

/-- Foothill's copy of the link registers of a port on another member (R295), at a time: updated within 1 ms of a link event. -/
opaque Config.linkCopy (dev port time : Nat) : Nat

/-- Slot Power Limit Value and Scale that Foothill sets from the channel's power limit (R307), by slot and limit. -/
opaque Config.slotPower (slot limit : Nat) : Nat

/-- The device serial in the fuses (R390). -/
opaque Config.serialFuses : W64
def Config.serial : Nat := Config.serialFuses.toNat

end Sys2Proof
end

