-- ==== Sys2Proof/Machine/Regs.lean ====
section
/-! DEFINITION. The register fields of the device, one constant per field of the register tables of spec/:
place, width, access code (R2) and Reset value (R6). A field is named BLOCK.REGISTER.FIELD as R2's chapter names it. -/

namespace Sys2Proof.Machine

/-- The blocks of R471 (LANE is the lane window of TILE and COL). -/
inductive Blk where
  | DEV
  | PORT
  | TILE
  | PLANE
  | SADDLE
  | TARN
  | SPUR
  | FN
  | CTX
  | TRV
  | FABRIC
  | COL
  | CTN
  | VSW
  | IDMAP
  | LANE
  | SLOT
  | SBIN
  | SUMMIT
  | CNT
  | CAIRN
  | BIST
  | SUP
  | MGR
  deriving DecidableEq, Repr

/-- Access codes of R2. `w1cAll` is the W1C of a count: writing any 1 clears the whole count. -/
inductive Acc where
  | ro | rw | w1c | w1cAll | rws | rwl | wo
  deriving DecidableEq, Repr

/-- The kinds of register: one constructor per register of the index (18_register_map, "Register index"). -/
inductive Reg where
  | DEV_CLK_STATUS | PORT_NOTCH_WORD_LO | PORT_NOTCH_WORD_HI | TILE_NOTCH_TBL_CMD | TILE_NOTCH_BANK
  | TILE_NOTCH_TRAP_RING | TILE_NOTCH_TRAP_CTL | TILE_NOTCH_RSLV_CMD | PLANE_CTL | PLANE_STATUS
  | PORT_EGR_CTL | PORT_EGR_WT_LO | SADDLE_TEN_WT_IDX | SADDLE_TEN_WT | TILE_VOQ_SHARE | TILE_VOQ_TEN_IDX
  | TILE_VOQ_TEN_MIN | TILE_VOQ_TEN_CAP | TILE_VOQ_TEN_USE | TILE_VOQ_STATUS | TILE_SCREE_CTL
  | TILE_SCREE_SHARE | TILE_SCREE_STATUS | SADDLE_MCG_CMD | TARN_PART | TARN_REGION_TOP | TARN_PORT_HOST
  | TARN_REMOTE_HOST | TARN_FLT_INFO | TARN_BI_CTL | TARN_RA_CTL | TARN_ECC_CTL | TARN_EVAC_STATUS
  | SPUR_TARN_APT | SPUR_EVSEL | SPUR_PWRDN | SPUR_WDOG | SPUR_HANDOVER | FN_PF_VFS | FN_VF_BIND | CTX_STATUS
  | CTX_PORT_USE | CTX_TEN_IDX | CTX_TEN_CAP | CTX_TEN_USE | TRV_TEN_CFG | TRV_TEN_UNRECALLED
  | TRV_TEN_DISCARD_LATE | TRV_ENG_STATUS | FABRIC_ID | PORT_THX_CTL | PORT_THX_STATUS | FABRIC_ROUTE
  | FABRIC_ROUTE_CTL | FABRIC_DROP | FABRIC_PD_COUNT | FABRIC_SLOT_ROUTE | COL_CTL | COL_TX_CTL
  | COL_TX_STATUS | COL_RX_CTL | COL_RX_STATUS | COL_LINK_CTL | COL_LINK_STATUS | FABRIC_TIME_CTL
  | FABRIC_TIME_STATUS | PORT_CPL_TO | CTN_RELEASE | PORT_CTN_CTL | PORT_CTN_STATUS | PORT_CTN_COUNT
  | CTN_TEN_CTL | CTN_TEN_STATUS | CTN_TILE_STATUS | CTN_LOG_CTL | CTN_LOG_STATUS | TILE_BIFUR | PORT_CFG
  | PORT_LINK_STATUS | VSW_VDSP_MAP | PORT_CFG_HOLD | IDMAP_ENTRY_LO | IDMAP_ENTRY_HI | IDMAP_CMD
  | PORT_REMAP_RID | PORT_TRV_RID | PORT_INTX_STATUS | LANE_TX_TAPS0 | LANE_TX_TAPS1 | LANE_MARGIN_CTL
  | LANE_MARGIN_RESULT | LANE_ADAPT_STATUS | TILE_REF_CTL | PORT_PHY_STATUS | LANE_CFG | LANE_PRBS_CTL
  | LANE_BITSLIP | LANE_EYE_CTL | SLOT_PWR_LIMIT | SLOT_PWR_FOLD | SLOT_PWR_TIMER | SLOT_PWR_CTL
  | SLOT_PWR_STATUS | SLOT_WARN_SHED | SBIN_CFG | SBIN_CTL | SBIN_STATUS | SUMMIT_BOOT_STATUS
  | SUMMIT_GRANT_STATUS | SPUR_IMG_AREA | CNT_IDX | CNT_SEL | CNT_QUAL | CNT_THR | CNT_VAL_LO | CNT_VAL_HI
  | CNT_SNAP_CTL | CNT_SNAP_STATUS | CNT_SNAP_LO | CNT_SNAP_HI | CNT_DUMP_CTL | CNT_DUMP_BASE | CNT_DUMP_RING
  | PORT_BW_CTL | CNT_BW_IDX | CNT_BW_VAL | CNT_BW_PEAK | CAIRN_CTL | CAIRN_TRIG | CAIRN_STATUS | CAIRN_COUNT
  | CAIRN_RD_IDX | BIST_BUDGET | BIST_STATUS | BIST_POWER | BIST_CE_ROW | BIST_REPAIR_STATUS | SUP_STATUS
  | SUP_FAULT | SUP_MEAS | DEV_RST_CTL | DEV_RST_STATUS | DEV_TEMP | TILE_LANE_SEL | COL_LANE_SEL | VSW_IDX
  | TARN_REMOTE_IDX | FN_REFUSED | TILE_NOTCH_TBL_KEY | TILE_NOTCH_TBL_DATA | TILE_NOTCH_RSLV_O0
  | TILE_NOTCH_RSLV_O1 | TILE_NOTCH_RSLV_O2_LO | TILE_NOTCH_RSLV_O2_HI | TILE_NOTCH_RSLV_O3 | PORT_EGR_WT_HI
  | SADDLE_MCG_MAP | SADDLE_MCG_ATTR | SADDLE_MCG_DROP | TARN_FLT_ADDR_LO | TARN_FLT_ADDR_HI | TARN_FLT_COUNT
  | TARN_DESC_IDX | TARN_DESC_STAGE | TARN_DESC_READ | TARN_PC_FROZEN_LO | TARN_PC_FROZEN_HI | SPUR_DOORBELL
  | SPUR_HANDOVER_PC_LO | SPUR_HANDOVER_PC_HI | SPUR_PORT_BASE_LO | SPUR_PORT_BASE_HI | TRV_TEN_IDX
  | CTN_TEN_IDX | MGR_PORTS | SUMMIT_MBX_RPLY_LO | SUMMIT_MBX_RPLY_HI | SUMMIT_DBG_CTL | SUMMIT_DBG_NONCE_LO
  | SUMMIT_DBG_NONCE_HI | SUMMIT_DBG_TOKEN | LANE_RX_EQ | LANE_DFE_TAPS | LANE_PRBS_ERR_LO
  | LANE_PRBS_BITS_LO | LANE_PRBS_ERR_HI | LANE_PRBS_BITS_HI | LANE_PRBS_USER_LO | LANE_PRBS_USER_HI
  | LANE_EYE_COUNT | SLOT_PWR_MEAS0 | SLOT_PWR_MEAS1 | PORT_PTM_HOST_LO | PORT_PTM_HOST_HI
  | PORT_PTM_LOCAL_LO | PORT_PTM_LOCAL_HI | CNT_SNAP_TIME_LO | CNT_SNAP_TIME_HI | CAIRN_RD_DATA
  deriving DecidableEq, Repr

/-- A field of a register. `num` is the field's own number, by which its value is stored. -/
structure Fld where
  num : Nat
  reg : Reg
  lsb : Nat
  width : Nat
  acc : Acc
  reset : Nat
  deriving DecidableEq, Repr

/-! DEV.CLK_STATUS: spec/01_tiles_planes_pool.md R17 -/
def DEV.CLK_STATUS.TILE_REF_OK : Fld := ⟨0, .DEV_CLK_STATUS, 0, 16, .ro, 0⟩
def DEV.CLK_STATUS.ROOT_LOCK : Fld := ⟨1, .DEV_CLK_STATUS, 16, 1, .ro, 0⟩
def DEV.CLK_STATUS.SUMMIT_ON_ROOT : Fld := ⟨2, .DEV_CLK_STATUS, 17, 1, .ro, 0⟩
/-! PORT.NOTCH_WORD_LO: spec/03_notch_programs.md R78 -/
def PORT.NOTCH_WORD_LO.WORD : Fld := ⟨3, .PORT_NOTCH_WORD_LO, 0, 32, .rw, 0⟩
/-! PORT.NOTCH_WORD_HI: spec/03_notch_programs.md R78 -/
def PORT.NOTCH_WORD_HI.WORD : Fld := ⟨4, .PORT_NOTCH_WORD_HI, 0, 32, .rw, 0⟩
/-! TILE.NOTCH_TBL_CMD: spec/03_notch_programs.md R84 -/
def TILE.NOTCH_TBL_CMD.TABLE : Fld := ⟨5, .TILE_NOTCH_TBL_CMD, 0, 2, .rw, 0⟩
def TILE.NOTCH_TBL_CMD.OP : Fld := ⟨6, .TILE_NOTCH_TBL_CMD, 2, 2, .rw, 0⟩
def TILE.NOTCH_TBL_CMD.INDEX : Fld := ⟨7, .TILE_NOTCH_TBL_CMD, 4, 12, .rw, 0⟩
def TILE.NOTCH_TBL_CMD.GO : Fld := ⟨8, .TILE_NOTCH_TBL_CMD, 16, 1, .wo, 0⟩
def TILE.NOTCH_TBL_CMD.BUSY : Fld := ⟨9, .TILE_NOTCH_TBL_CMD, 17, 1, .ro, 0⟩
def TILE.NOTCH_TBL_CMD.STATUS : Fld := ⟨10, .TILE_NOTCH_TBL_CMD, 18, 3, .ro, 0⟩
/-! TILE.NOTCH_BANK: spec/03_notch_programs.md R89 -/
def TILE.NOTCH_BANK.ACTIVE : Fld := ⟨11, .TILE_NOTCH_BANK, 0, 1, .ro, 0⟩
def TILE.NOTCH_BANK.SWITCH : Fld := ⟨12, .TILE_NOTCH_BANK, 1, 1, .wo, 0⟩
def TILE.NOTCH_BANK.COMMIT : Fld := ⟨13, .TILE_NOTCH_BANK, 2, 1, .wo, 0⟩
def TILE.NOTCH_BANK.SHADOW_STATE : Fld := ⟨14, .TILE_NOTCH_BANK, 3, 2, .ro, 0⟩
def TILE.NOTCH_BANK.SWITCH_REFUSED : Fld := ⟨15, .TILE_NOTCH_BANK, 5, 1, .w1c, 0⟩
def TILE.NOTCH_BANK.ERR_RULE : Fld := ⟨16, .TILE_NOTCH_BANK, 6, 4, .ro, 0⟩
def TILE.NOTCH_BANK.ERR_PROG : Fld := ⟨17, .TILE_NOTCH_BANK, 10, 3, .ro, 0⟩
def TILE.NOTCH_BANK.ERR_INDEX : Fld := ⟨18, .TILE_NOTCH_BANK, 13, 5, .ro, 0⟩
def TILE.NOTCH_BANK.SWITCH_COUNT : Fld := ⟨19, .TILE_NOTCH_BANK, 24, 8, .ro, 0⟩
/-! TILE.NOTCH_TRAP_RING: spec/03_notch_programs.md R95 -/
def TILE.NOTCH_TRAP_RING.BASE : Fld := ⟨20, .TILE_NOTCH_TRAP_RING, 0, 15, .rw, 0⟩
def TILE.NOTCH_TRAP_RING.SIZE : Fld := ⟨21, .TILE_NOTCH_TRAP_RING, 16, 4, .rw, 4⟩
/-! TILE.NOTCH_TRAP_CTL: spec/03_notch_programs.md R95 -/
def TILE.NOTCH_TRAP_CTL.ORDER : Fld := ⟨22, .TILE_NOTCH_TRAP_CTL, 0, 8, .rw, 255⟩
def TILE.NOTCH_TRAP_CTL.TIMEOUT : Fld := ⟨23, .TILE_NOTCH_TRAP_CTL, 16, 16, .rw, 1000⟩
/-! TILE.NOTCH_RSLV_CMD: spec/03_notch_programs.md R96 -/
def TILE.NOTCH_RSLV_CMD.SEQ : Fld := ⟨24, .TILE_NOTCH_RSLV_CMD, 0, 16, .wo, 0⟩
def TILE.NOTCH_RSLV_CMD.ACTION : Fld := ⟨25, .TILE_NOTCH_RSLV_CMD, 16, 3, .wo, 0⟩
/-! PLANE.CTL: spec/04_saddle_queues_ordering.md R107 -/
def PLANE.CTL.ISOLATE : Fld := ⟨26, .PLANE_CTL, 0, 1, .rw, 0⟩
/-! PLANE.STATUS: spec/04_saddle_queues_ordering.md R107 -/
def PLANE.STATUS.STATE : Fld := ⟨27, .PLANE_STATUS, 0, 2, .ro, 0⟩
def PLANE.STATUS.FAULT : Fld := ⟨28, .PLANE_STATUS, 2, 1, .w1c, 0⟩
def PLANE.STATUS.ISOLATE_REFUSED : Fld := ⟨29, .PLANE_STATUS, 3, 1, .w1c, 0⟩
def PLANE.STATUS.FAULT_CAUSE : Fld := ⟨30, .PLANE_STATUS, 4, 4, .ro, 0⟩
def PLANE.STATUS.RESENT : Fld := ⟨31, .PLANE_STATUS, 16, 16, .ro, 0⟩
/-! PORT.EGR_CTL: spec/04_saddle_queues_ordering.md R113 -/
def PORT.EGR_CTL.STRICT : Fld := ⟨32, .PORT_EGR_CTL, 0, 8, .rw, 0⟩
def PORT.EGR_CTL.CUT_EN : Fld := ⟨33, .PORT_EGR_CTL, 8, 1, .rw, 1⟩
/-! PORT.EGR_WT_LO: spec/04_saddle_queues_ordering.md R113 -/
def PORT.EGR_WT_LO.WT0 : Fld := ⟨34, .PORT_EGR_WT_LO, 0, 8, .rw, 1⟩
def PORT.EGR_WT_LO.WT1 : Fld := ⟨35, .PORT_EGR_WT_LO, 8, 8, .rw, 1⟩
def PORT.EGR_WT_LO.WT2 : Fld := ⟨36, .PORT_EGR_WT_LO, 16, 8, .rw, 1⟩
def PORT.EGR_WT_LO.WT3 : Fld := ⟨37, .PORT_EGR_WT_LO, 24, 8, .rw, 1⟩
/-! SADDLE.TEN_WT_IDX: spec/04_saddle_queues_ordering.md R113 -/
def SADDLE.TEN_WT_IDX.TENANT : Fld := ⟨38, .SADDLE_TEN_WT_IDX, 0, 9, .rw, 0⟩
/-! SADDLE.TEN_WT: spec/04_saddle_queues_ordering.md R113 -/
def SADDLE.TEN_WT.WEIGHT : Fld := ⟨39, .SADDLE_TEN_WT, 0, 8, .rw, 1⟩
/-! TILE.VOQ_SHARE: spec/04_saddle_queues_ordering.md R117 -/
def TILE.VOQ_SHARE.MIN : Fld := ⟨40, .TILE_VOQ_SHARE, 0, 17, .rw, 8192⟩
/-! TILE.VOQ_TEN_IDX: spec/04_saddle_queues_ordering.md R117 -/
def TILE.VOQ_TEN_IDX.TENANT : Fld := ⟨41, .TILE_VOQ_TEN_IDX, 0, 9, .rw, 0⟩
/-! TILE.VOQ_TEN_MIN: spec/04_saddle_queues_ordering.md R117 -/
def TILE.VOQ_TEN_MIN.MIN : Fld := ⟨42, .TILE_VOQ_TEN_MIN, 0, 17, .rw, 0⟩
/-! TILE.VOQ_TEN_CAP: spec/04_saddle_queues_ordering.md R117 -/
def TILE.VOQ_TEN_CAP.CAP : Fld := ⟨43, .TILE_VOQ_TEN_CAP, 0, 17, .rw, 65536⟩
/-! TILE.VOQ_TEN_USE: spec/04_saddle_queues_ordering.md R117 -/
def TILE.VOQ_TEN_USE.USED : Fld := ⟨44, .TILE_VOQ_TEN_USE, 0, 17, .ro, 0⟩
/-! TILE.VOQ_STATUS: spec/04_saddle_queues_ordering.md R117 -/
def TILE.VOQ_STATUS.USED : Fld := ⟨45, .TILE_VOQ_STATUS, 0, 17, .ro, 0⟩
def TILE.VOQ_STATUS.MIN_REFUSED : Fld := ⟨46, .TILE_VOQ_STATUS, 17, 1, .w1c, 0⟩
def TILE.VOQ_STATUS.SPILLING : Fld := ⟨47, .TILE_VOQ_STATUS, 18, 1, .ro, 0⟩
def TILE.VOQ_STATUS.WITHHOLD : Fld := ⟨48, .TILE_VOQ_STATUS, 19, 1, .ro, 0⟩
/-! TILE.SCREE_CTL: spec/04_saddle_queues_ordering.md R124 -/
def TILE.SCREE_CTL.HIGH : Fld := ⟨49, .TILE_SCREE_CTL, 0, 13, .rw, 3072⟩
def TILE.SCREE_CTL.LOW : Fld := ⟨50, .TILE_SCREE_CTL, 16, 13, .rw, 2560⟩
/-! TILE.SCREE_SHARE: spec/04_saddle_queues_ordering.md R124 -/
def TILE.SCREE_SHARE.SEGMENTS : Fld := ⟨51, .TILE_SCREE_SHARE, 0, 23, .rw, 0⟩
/-! TILE.SCREE_STATUS: spec/04_saddle_queues_ordering.md R124 -/
def TILE.SCREE_STATUS.IN_USE : Fld := ⟨52, .TILE_SCREE_STATUS, 0, 23, .ro, 0⟩
def TILE.SCREE_STATUS.FULL : Fld := ⟨53, .TILE_SCREE_STATUS, 23, 1, .ro, 0⟩
/-! SADDLE.MCG_CMD: spec/04_saddle_queues_ordering.md R126 -/
def SADDLE.MCG_CMD.GROUP : Fld := ⟨54, .SADDLE_MCG_CMD, 0, 12, .rw, 0⟩
def SADDLE.MCG_CMD.OP : Fld := ⟨55, .SADDLE_MCG_CMD, 12, 2, .rw, 0⟩
def SADDLE.MCG_CMD.GO : Fld := ⟨56, .SADDLE_MCG_CMD, 14, 1, .wo, 0⟩
def SADDLE.MCG_CMD.BUSY : Fld := ⟨57, .SADDLE_MCG_CMD, 15, 1, .ro, 0⟩
def SADDLE.MCG_CMD.STATUS : Fld := ⟨58, .SADDLE_MCG_CMD, 16, 2, .ro, 0⟩
/-! TARN.PART: spec/05_tarn_memory_pool.md R141 -/
def TARN.PART.SPARE : Fld := ⟨59, .TARN_PART, 0, 11, .rwl, 64⟩
def TARN.PART.SCREE_GIB : Fld := ⟨60, .TARN_PART, 11, 5, .rwl, 0⟩
def TARN.PART.LIVE : Fld := ⟨61, .TARN_PART, 16, 1, .ro, 0⟩
/-! TARN.REGION_TOP: spec/05_tarn_memory_pool.md R141 -/
def TARN.REGION_TOP.GRANULES : Fld := ⟨62, .TARN_REGION_TOP, 0, 17, .ro, 64365⟩
/-! TARN.PORT_HOST: spec/05_tarn_memory_pool.md R143 -/
def TARN.PORT_HOST.HOST_ID : Fld := ⟨63, .TARN_PORT_HOST, 0, 6, .rwl, 0⟩
def TARN.PORT_HOST.VALID : Fld := ⟨64, .TARN_PORT_HOST, 6, 1, .rwl, 0⟩
/-! TARN.REMOTE_HOST: spec/05_tarn_memory_pool.md R143 -/
def TARN.REMOTE_HOST.DEV : Fld := ⟨65, .TARN_REMOTE_HOST, 0, 8, .rwl, 0⟩
def TARN.REMOTE_HOST.PORT : Fld := ⟨66, .TARN_REMOTE_HOST, 8, 7, .rwl, 0⟩
def TARN.REMOTE_HOST.HOST_ID : Fld := ⟨67, .TARN_REMOTE_HOST, 15, 6, .rwl, 0⟩
def TARN.REMOTE_HOST.VALID : Fld := ⟨68, .TARN_REMOTE_HOST, 21, 1, .rwl, 0⟩
/-! TARN.FLT_INFO: spec/05_tarn_memory_pool.md R148 -/
def TARN.FLT_INFO.CAUSE : Fld := ⟨69, .TARN_FLT_INFO, 0, 4, .ro, 0⟩
def TARN.FLT_INFO.DESC : Fld := ⟨70, .TARN_FLT_INFO, 4, 12, .ro, 0⟩
def TARN.FLT_INFO.TENANT : Fld := ⟨71, .TARN_FLT_INFO, 16, 9, .ro, 0⟩
def TARN.FLT_INFO.HOST : Fld := ⟨72, .TARN_FLT_INFO, 25, 6, .ro, 0⟩
def TARN.FLT_INFO.VALID : Fld := ⟨73, .TARN_FLT_INFO, 31, 1, .w1c, 0⟩
/-! TARN.BI_CTL: spec/05_tarn_memory_pool.md R156 -/
def TARN.BI_CTL.TIMEOUT : Fld := ⟨74, .TARN_BI_CTL, 0, 16, .rw, 1000⟩
/-! TARN.RA_CTL: spec/05_tarn_memory_pool.md R160 -/
def TARN.RA_CTL.DEPTH : Fld := ⟨75, .TARN_RA_CTL, 0, 6, .rw, 8⟩
/-! TARN.ECC_CTL: spec/05_tarn_memory_pool.md R164 -/
def TARN.ECC_CTL.CE_LIMIT : Fld := ⟨76, .TARN_ECC_CTL, 0, 4, .rw, 4⟩
def TARN.ECC_CTL.SCRUB_HOURS : Fld := ⟨77, .TARN_ECC_CTL, 8, 8, .rw, 24⟩
/-! TARN.EVAC_STATUS: spec/05_tarn_memory_pool.md R167 -/
def TARN.EVAC_STATUS.STATE : Fld := ⟨78, .TARN_EVAC_STATUS, 0, 2, .ro, 0⟩
def TARN.EVAC_STATUS.PC : Fld := ⟨79, .TARN_EVAC_STATUS, 2, 8, .ro, 0⟩
def TARN.EVAC_STATUS.COUNT : Fld := ⟨80, .TARN_EVAC_STATUS, 10, 4, .ro, 0⟩
/-! SPUR.TARN_APT: spec/06_spur_cores_memory_order.md R172 -/
def SPUR.TARN_APT.DESC : Fld := ⟨81, .SPUR_TARN_APT, 0, 12, .rw, 0⟩
def SPUR.TARN_APT.VALID : Fld := ⟨82, .SPUR_TARN_APT, 12, 1, .rw, 0⟩
def SPUR.TARN_APT.WRITE : Fld := ⟨83, .SPUR_TARN_APT, 13, 1, .rw, 0⟩
/-! SPUR.EVSEL: spec/06_spur_cores_memory_order.md R187 -/
def SPUR.EVSEL.TILES : Fld := ⟨84, .SPUR_EVSEL, 0, 16, .rw, 0⟩
def SPUR.EVSEL.DUMP : Fld := ⟨85, .SPUR_EVSEL, 16, 1, .rw, 0⟩
def SPUR.EVSEL.SLOT : Fld := ⟨86, .SPUR_EVSEL, 17, 1, .rw, 0⟩
def SPUR.EVSEL.LINK : Fld := ⟨87, .SPUR_EVSEL, 18, 1, .rw, 0⟩
def SPUR.EVSEL.CONTAIN : Fld := ⟨88, .SPUR_EVSEL, 19, 1, .rw, 0⟩
/-! SPUR.PWRDN: spec/06_spur_cores_memory_order.md R190 -/
def SPUR.PWRDN.GRACE : Fld := ⟨89, .SPUR_PWRDN, 0, 16, .rw, 250⟩
def SPUR.PWRDN.READY : Fld := ⟨90, .SPUR_PWRDN, 16, 1, .wo, 0⟩
def SPUR.PWRDN.ACKED : Fld := ⟨91, .SPUR_PWRDN, 17, 1, .ro, 0⟩
/-! SPUR.WDOG: spec/06_spur_cores_memory_order.md R191 -/
def SPUR.WDOG.PERIOD : Fld := ⟨92, .SPUR_WDOG, 0, 16, .rw, 0⟩
def SPUR.WDOG.KICK : Fld := ⟨93, .SPUR_WDOG, 16, 1, .wo, 0⟩
/-! SPUR.HANDOVER: spec/06_spur_cores_memory_order.md R195 -/
def SPUR.HANDOVER.FROM : Fld := ⟨94, .SPUR_HANDOVER, 0, 4, .rw, 0⟩
def SPUR.HANDOVER.REQUEST : Fld := ⟨95, .SPUR_HANDOVER, 4, 1, .wo, 0⟩
def SPUR.HANDOVER.YIELD : Fld := ⟨96, .SPUR_HANDOVER, 5, 1, .wo, 0⟩
def SPUR.HANDOVER.STATE : Fld := ⟨97, .SPUR_HANDOVER, 6, 2, .ro, 0⟩
def SPUR.HANDOVER.SPARE : Fld := ⟨98, .SPUR_HANDOVER, 8, 4, .ro, 8⟩
def SPUR.HANDOVER.FAILED : Fld := ⟨99, .SPUR_HANDOVER, 12, 9, .ro, 0⟩
/-! FN.PF_VFS: spec/07_tenants_functions_traverse.md R197 -/
def FN.PF_VFS.TOTALVFS : Fld := ⟨100, .FN_PF_VFS, 0, 10, .rw, 0⟩
def FN.PF_VFS.BAR2_LOG2 : Fld := ⟨101, .FN_PF_VFS, 10, 6, .rw, 21⟩
def FN.PF_VFS.PORT : Fld := ⟨102, .FN_PF_VFS, 16, 7, .rw, 0⟩
def FN.PF_VFS.VALID : Fld := ⟨103, .FN_PF_VFS, 23, 1, .rw, 0⟩
/-! FN.VF_BIND: spec/07_tenants_functions_traverse.md R198 -/
def FN.VF_BIND.TENANT : Fld := ⟨104, .FN_VF_BIND, 0, 9, .rw, 0⟩
def FN.VF_BIND.BOUND : Fld := ⟨105, .FN_VF_BIND, 9, 1, .rw, 0⟩
def FN.VF_BIND.STATE : Fld := ⟨106, .FN_VF_BIND, 10, 2, .ro, 0⟩
/-! CTX.STATUS: spec/07_tenants_functions_traverse.md R202 -/
def CTX.STATUS.SHARED_FREE : Fld := ⟨107, .CTX_STATUS, 0, 15, .ro, 16384⟩
def CTX.STATUS.QUARANTINED : Fld := ⟨108, .CTX_STATUS, 16, 15, .ro, 0⟩
/-! CTX.PORT_USE: spec/07_tenants_functions_traverse.md R202 -/
def CTX.PORT_USE.USED : Fld := ⟨109, .CTX_PORT_USE, 0, 15, .ro, 0⟩
def CTX.PORT_USE.WAITING : Fld := ⟨110, .CTX_PORT_USE, 16, 15, .ro, 0⟩
/-! CTX.TEN_IDX: spec/07_tenants_functions_traverse.md R202 -/
def CTX.TEN_IDX.TENANT : Fld := ⟨111, .CTX_TEN_IDX, 0, 9, .rw, 0⟩
/-! CTX.TEN_CAP: spec/07_tenants_functions_traverse.md R202 -/
def CTX.TEN_CAP.CAP : Fld := ⟨112, .CTX_TEN_CAP, 0, 15, .rw, 256⟩
/-! CTX.TEN_USE: spec/07_tenants_functions_traverse.md R202 -/
def CTX.TEN_USE.USED : Fld := ⟨113, .CTX_TEN_USE, 0, 15, .ro, 0⟩
def CTX.TEN_USE.PEAK : Fld := ⟨114, .CTX_TEN_USE, 16, 15, .rw, 0⟩
/-! TRV.TEN_CFG: spec/07_tenants_functions_traverse.md R213 -/
def TRV.TEN_CFG.WEIGHT : Fld := ⟨115, .TRV_TEN_CFG, 0, 8, .rw, 1⟩
/-! TRV.TEN_UNRECALLED: spec/07_tenants_functions_traverse.md R213 -/
def TRV.TEN_UNRECALLED.COUNT : Fld := ⟨116, .TRV_TEN_UNRECALLED, 0, 32, .w1cAll, 0⟩
/-! TRV.TEN_DISCARD_LATE: spec/07_tenants_functions_traverse.md R213 -/
def TRV.TEN_DISCARD_LATE.COUNT : Fld := ⟨117, .TRV_TEN_DISCARD_LATE, 0, 32, .w1cAll, 0⟩
/-! TRV.ENG_STATUS: spec/07_tenants_functions_traverse.md R213 -/
def TRV.ENG_STATUS.FAULTED : Fld := ⟨118, .TRV_ENG_STATUS, 0, 32, .ro, 0⟩
/-! FABRIC.ID: spec/08_fabric_mode_col_ring.md  -/
def FABRIC.ID.DEV : Fld := ⟨119, .FABRIC_ID, 0, 8, .rws, 0⟩
def FABRIC.ID.FABRIC : Fld := ⟨120, .FABRIC_ID, 8, 8, .rws, 0⟩
def FABRIC.ID.HOPS_INIT : Fld := ⟨121, .FABRIC_ID, 16, 5, .rw, 16⟩
def FABRIC.ID.REFUSED : Fld := ⟨122, .FABRIC_ID, 21, 1, .w1c, 0⟩
/-! PORT.THX_CTL: spec/08_fabric_mode_col_ring.md R222 -/
def PORT.THX_CTL.THEOX : Fld := ⟨123, .PORT_THX_CTL, 0, 1, .rw, 0⟩
def PORT.THX_CTL.RATE128 : Fld := ⟨124, .PORT_THX_CTL, 1, 1, .rw, 1⟩
def PORT.THX_CTL.SPARED : Fld := ⟨125, .PORT_THX_CTL, 2, 1, .rw, 0⟩
def PORT.THX_CTL.ENABLE : Fld := ⟨126, .PORT_THX_CTL, 3, 1, .rw, 0⟩
def PORT.THX_CTL.SPARE_THR : Fld := ⟨127, .PORT_THX_CTL, 8, 8, .rw, 16⟩
def PORT.THX_CTL.SPARE_NOW : Fld := ⟨128, .PORT_THX_CTL, 16, 1, .wo, 0⟩
def PORT.THX_CTL.SPARE_LANE : Fld := ⟨129, .PORT_THX_CTL, 17, 4, .rw, 0⟩
/-! PORT.THX_STATUS: spec/08_fabric_mode_col_ring.md R225 -/
def PORT.THX_STATUS.STATE : Fld := ⟨130, .PORT_THX_STATUS, 0, 3, .ro, 0⟩
def PORT.THX_STATUS.RATE : Fld := ⟨131, .PORT_THX_STATUS, 3, 1, .ro, 0⟩
def PORT.THX_STATUS.WIDTH : Fld := ⟨132, .PORT_THX_STATUS, 4, 2, .ro, 0⟩
def PORT.THX_STATUS.SPARE_USED : Fld := ⟨133, .PORT_THX_STATUS, 6, 1, .ro, 0⟩
def PORT.THX_STATUS.SPARED_LANE : Fld := ⟨134, .PORT_THX_STATUS, 7, 4, .ro, 0⟩
def PORT.THX_STATUS.PEER_DEV : Fld := ⟨135, .PORT_THX_STATUS, 11, 8, .ro, 0⟩
def PORT.THX_STATUS.PEER_PORT : Fld := ⟨136, .PORT_THX_STATUS, 19, 7, .ro, 0⟩
def PORT.THX_STATUS.ID_FAULT : Fld := ⟨137, .PORT_THX_STATUS, 26, 1, .w1c, 0⟩
/-! FABRIC.ROUTE: spec/08_fabric_mode_col_ring.md R244 -/
def FABRIC.ROUTE.P0 : Fld := ⟨138, .FABRIC_ROUTE, 0, 7, .rw, 0⟩
def FABRIC.ROUTE.P1 : Fld := ⟨139, .FABRIC_ROUTE, 7, 7, .rw, 0⟩
def FABRIC.ROUTE.P2 : Fld := ⟨140, .FABRIC_ROUTE, 14, 7, .rw, 0⟩
def FABRIC.ROUTE.P3 : Fld := ⟨141, .FABRIC_ROUTE, 21, 7, .rw, 0⟩
def FABRIC.ROUTE.N : Fld := ⟨142, .FABRIC_ROUTE, 28, 2, .rw, 0⟩
def FABRIC.ROUTE.VALID : Fld := ⟨143, .FABRIC_ROUTE, 30, 1, .rw, 0⟩
def FABRIC.ROUTE.DRAIN : Fld := ⟨144, .FABRIC_ROUTE, 31, 1, .rw, 0⟩
/-! FABRIC.ROUTE_CTL: spec/08_fabric_mode_col_ring.md R245 -/
def FABRIC.ROUTE_CTL.DRAIN_WAIT : Fld := ⟨145, .FABRIC_ROUTE_CTL, 0, 16, .rw, 10⟩
def FABRIC.ROUTE_CTL.DRAINING : Fld := ⟨146, .FABRIC_ROUTE_CTL, 16, 1, .ro, 0⟩
/-! FABRIC.DROP: spec/08_fabric_mode_col_ring.md R245 -/
def FABRIC.DROP.HOPS : Fld := ⟨147, .FABRIC_DROP, 0, 16, .w1cAll, 0⟩
def FABRIC.DROP.NOROUTE : Fld := ⟨148, .FABRIC_DROP, 16, 16, .w1cAll, 0⟩
/-! FABRIC.PD_COUNT: spec/08_fabric_mode_col_ring.md R251 -/
def FABRIC.PD_COUNT.SENT : Fld := ⟨149, .FABRIC_PD_COUNT, 0, 16, .w1cAll, 0⟩
def FABRIC.PD_COUNT.RCVD : Fld := ⟨150, .FABRIC_PD_COUNT, 16, 16, .w1cAll, 0⟩
/-! FABRIC.SLOT_ROUTE: spec/08_fabric_mode_col_ring.md R252 -/
def FABRIC.SLOT_ROUTE.DEV : Fld := ⟨151, .FABRIC_SLOT_ROUTE, 0, 8, .rw, 0⟩
def FABRIC.SLOT_ROUTE.PORT : Fld := ⟨152, .FABRIC_SLOT_ROUTE, 8, 7, .rw, 0⟩
def FABRIC.SLOT_ROUTE.CLASS : Fld := ⟨153, .FABRIC_SLOT_ROUTE, 15, 3, .rw, 0⟩
def FABRIC.SLOT_ROUTE.VALID : Fld := ⟨154, .FABRIC_SLOT_ROUTE, 18, 1, .rw, 0⟩
/-! COL.CTL: spec/08_fabric_mode_col_ring.md R259 -/
def COL.CTL.JOIN : Fld := ⟨155, .COL_CTL, 0, 1, .rw, 0⟩
/-! COL.TX_CTL: spec/08_fabric_mode_col_ring.md R259 -/
def COL.TX_CTL.BASE : Fld := ⟨156, .COL_TX_CTL, 0, 14, .rw, 0⟩
def COL.TX_CTL.SIZE : Fld := ⟨157, .COL_TX_CTL, 14, 4, .rw, 4⟩
def COL.TX_CTL.TAIL : Fld := ⟨158, .COL_TX_CTL, 18, 8, .rw, 0⟩
/-! COL.TX_STATUS: spec/08_fabric_mode_col_ring.md R259 -/
def COL.TX_STATUS.HEAD : Fld := ⟨159, .COL_TX_STATUS, 0, 8, .ro, 0⟩
/-! COL.RX_CTL: spec/08_fabric_mode_col_ring.md R259 -/
def COL.RX_CTL.BASE : Fld := ⟨160, .COL_RX_CTL, 0, 14, .rw, 0⟩
def COL.RX_CTL.SIZE : Fld := ⟨161, .COL_RX_CTL, 14, 4, .rw, 4⟩
def COL.RX_CTL.ROLE : Fld := ⟨162, .COL_RX_CTL, 18, 3, .rw, 0⟩
/-! COL.RX_STATUS: spec/08_fabric_mode_col_ring.md R259 -/
def COL.RX_STATUS.TAIL : Fld := ⟨163, .COL_RX_STATUS, 0, 8, .ro, 0⟩
def COL.RX_STATUS.HEAD : Fld := ⟨164, .COL_RX_STATUS, 8, 8, .rw, 0⟩
def COL.RX_STATUS.OVERFLOW : Fld := ⟨165, .COL_RX_STATUS, 16, 1, .w1c, 0⟩
/-! COL.LINK_CTL: spec/08_fabric_mode_col_ring.md R259 -/
def COL.LINK_CTL.PRESET : Fld := ⟨166, .COL_LINK_CTL, 0, 4, .rw, 4⟩
def COL.LINK_CTL.ASYM : Fld := ⟨167, .COL_LINK_CTL, 4, 16, .rw, 0⟩
/-! COL.LINK_STATUS: spec/08_fabric_mode_col_ring.md R259 -/
def COL.LINK_STATUS.STATE : Fld := ⟨168, .COL_LINK_STATUS, 0, 2, .ro, 0⟩
def COL.LINK_STATUS.DELAY : Fld := ⟨169, .COL_LINK_STATUS, 2, 16, .ro, 0⟩
def COL.LINK_STATUS.CRC_ERR : Fld := ⟨170, .COL_LINK_STATUS, 18, 8, .w1cAll, 0⟩
/-! FABRIC.TIME_CTL: spec/08_fabric_mode_col_ring.md R261 -/
def FABRIC.TIME_CTL.ENABLE : Fld := ⟨171, .FABRIC_TIME_CTL, 0, 1, .rw, 0⟩
def FABRIC.TIME_CTL.MASTER : Fld := ⟨172, .FABRIC_TIME_CTL, 1, 1, .rw, 0⟩
def FABRIC.TIME_CTL.STEP : Fld := ⟨173, .FABRIC_TIME_CTL, 2, 1, .wo, 0⟩
def FABRIC.TIME_CTL.SOURCE : Fld := ⟨174, .FABRIC_TIME_CTL, 3, 2, .rw, 0⟩
def FABRIC.TIME_CTL.THX_PORT : Fld := ⟨175, .FABRIC_TIME_CTL, 5, 7, .rw, 0⟩
/-! FABRIC.TIME_STATUS: spec/08_fabric_mode_col_ring.md R261 -/
def FABRIC.TIME_STATUS.LOCKED : Fld := ⟨176, .FABRIC_TIME_STATUS, 0, 1, .ro, 0⟩
def FABRIC.TIME_STATUS.HOLDOVER : Fld := ⟨177, .FABRIC_TIME_STATUS, 1, 1, .ro, 0⟩
def FABRIC.TIME_STATUS.OFFSET_BIG : Fld := ⟨178, .FABRIC_TIME_STATUS, 2, 1, .w1c, 0⟩
def FABRIC.TIME_STATUS.OFFSET : Fld := ⟨179, .FABRIC_TIME_STATUS, 16, 16, .ro, 0⟩
/-! PORT.CPL_TO: spec/09_containment_timeouts.md R273 -/
def PORT.CPL_TO.VALUE : Fld := ⟨180, .PORT_CPL_TO, 0, 16, .rw, 50⟩
def PORT.CPL_TO.UNIT : Fld := ⟨181, .PORT_CPL_TO, 16, 1, .rw, 1⟩
/-! CTN.RELEASE: spec/09_containment_timeouts.md R278 -/
def CTN.RELEASE.KIND : Fld := ⟨182, .CTN_RELEASE, 0, 2, .rw, 0⟩
def CTN.RELEASE.INDEX : Fld := ⟨183, .CTN_RELEASE, 2, 9, .rw, 0⟩
def CTN.RELEASE.GO : Fld := ⟨184, .CTN_RELEASE, 11, 1, .wo, 0⟩
def CTN.RELEASE.STATUS : Fld := ⟨185, .CTN_RELEASE, 12, 3, .ro, 0⟩
/-! PORT.CTN_CTL: spec/09_containment_timeouts.md R278 -/
def PORT.CTN_CTL.FREEZE : Fld := ⟨186, .PORT_CTN_CTL, 0, 1, .wo, 0⟩
def PORT.CTN_CTL.POISON_TRIG : Fld := ⟨187, .PORT_CTN_CTL, 1, 1, .rw, 0⟩
def PORT.CTN_CTL.CTO_TRIG : Fld := ⟨188, .PORT_CTN_CTL, 2, 1, .rw, 0⟩
/-! PORT.CTN_STATUS: spec/09_containment_timeouts.md R278 -/
def PORT.CTN_STATUS.FROZEN : Fld := ⟨189, .PORT_CTN_STATUS, 0, 1, .ro, 1⟩
def PORT.CTN_STATUS.READY : Fld := ⟨190, .PORT_CTN_STATUS, 1, 1, .ro, 0⟩
def PORT.CTN_STATUS.CAUSE : Fld := ⟨191, .PORT_CTN_STATUS, 4, 4, .ro, 10⟩
def PORT.CTN_STATUS.SEEN : Fld := ⟨192, .PORT_CTN_STATUS, 8, 12, .w1c, 512⟩
/-! PORT.CTN_COUNT: spec/09_containment_timeouts.md R278 -/
def PORT.CTN_COUNT.UNEXP_CPL : Fld := ⟨193, .PORT_CTN_COUNT, 0, 16, .w1cAll, 0⟩
def PORT.CTN_COUNT.LATE_ENGINE : Fld := ⟨194, .PORT_CTN_COUNT, 16, 16, .w1cAll, 0⟩
/-! CTN.TEN_CTL: spec/09_containment_timeouts.md R278 -/
def CTN.TEN_CTL.FREEZE : Fld := ⟨195, .CTN_TEN_CTL, 0, 1, .wo, 0⟩
def CTN.TEN_CTL.REGION_TRIG : Fld := ⟨196, .CTN_TEN_CTL, 1, 1, .rw, 0⟩
def CTN.TEN_CTL.COLOUR_TRIG : Fld := ⟨197, .CTN_TEN_CTL, 2, 1, .rw, 1⟩
def CTN.TEN_CTL.CTX_TRIG : Fld := ⟨198, .CTN_TEN_CTL, 3, 1, .rw, 0⟩
def CTN.TEN_CTL.OVR_MS : Fld := ⟨199, .CTN_TEN_CTL, 4, 8, .rw, 10⟩
/-! CTN.TEN_STATUS: spec/09_containment_timeouts.md R278 -/
def CTN.TEN_STATUS.FROZEN : Fld := ⟨200, .CTN_TEN_STATUS, 0, 1, .ro, 0⟩
def CTN.TEN_STATUS.CAUSE : Fld := ⟨201, .CTN_TEN_STATUS, 1, 3, .ro, 0⟩
def CTN.TEN_STATUS.SEEN : Fld := ⟨202, .CTN_TEN_STATUS, 4, 5, .w1c, 0⟩
/-! CTN.TILE_STATUS: spec/09_containment_timeouts.md R278 -/
def CTN.TILE_STATUS.FROZEN : Fld := ⟨203, .CTN_TILE_STATUS, 0, 1, .ro, 0⟩
def CTN.TILE_STATUS.CAUSE : Fld := ⟨204, .CTN_TILE_STATUS, 1, 2, .ro, 0⟩
/-! CTN.LOG_CTL: spec/09_containment_timeouts.md R282 -/
def CTN.LOG_CTL.BASE : Fld := ⟨205, .CTN_LOG_CTL, 0, 17, .rw, 0⟩
def CTN.LOG_CTL.SIZE : Fld := ⟨206, .CTN_LOG_CTL, 17, 4, .rw, 4⟩
def CTN.LOG_CTL.ENABLE : Fld := ⟨207, .CTN_LOG_CTL, 21, 1, .rw, 0⟩
/-! CTN.LOG_STATUS: spec/09_containment_timeouts.md R282 -/
def CTN.LOG_STATUS.TAIL : Fld := ⟨208, .CTN_LOG_STATUS, 0, 12, .ro, 0⟩
def CTN.LOG_STATUS.HEAD : Fld := ⟨209, .CTN_LOG_STATUS, 12, 12, .rw, 0⟩
def CTN.LOG_STATUS.OVERFLOW : Fld := ⟨210, .CTN_LOG_STATUS, 24, 1, .w1c, 0⟩
/-! TILE.BIFUR: spec/10_host_ports_pcie_cxl.md  -/
def TILE.BIFUR.MODE : Fld := ⟨211, .TILE_BIFUR, 0, 2, .rw, 0⟩
def TILE.BIFUR.REFUSED : Fld := ⟨212, .TILE_BIFUR, 2, 1, .w1c, 0⟩
/-! PORT.CFG: spec/10_host_ports_pcie_cxl.md R283 -/
def PORT.CFG.ROLE : Fld := ⟨213, .PORT_CFG, 0, 2, .rw, 0⟩
def PORT.CFG.CXL : Fld := ⟨214, .PORT_CFG, 2, 1, .rw, 0⟩
def PORT.CFG.MAXRATE : Fld := ⟨215, .PORT_CFG, 3, 3, .rw, 6⟩
def PORT.CFG.TRANSPARENT : Fld := ⟨216, .PORT_CFG, 6, 1, .rw, 0⟩
def PORT.CFG.L0P_EN : Fld := ⟨217, .PORT_CFG, 7, 1, .rw, 1⟩
def PORT.CFG.SLOT : Fld := ⟨218, .PORT_CFG, 8, 5, .rw, 0⟩
def PORT.CFG.SLOT_V : Fld := ⟨219, .PORT_CFG, 13, 1, .rw, 0⟩
def PORT.CFG.ENABLE : Fld := ⟨220, .PORT_CFG, 14, 1, .rw, 0⟩
def PORT.CFG.DS_SECBUS : Fld := ⟨221, .PORT_CFG, 16, 8, .rw, 0⟩
def PORT.CFG.REFUSED : Fld := ⟨222, .PORT_CFG, 24, 1, .w1c, 0⟩
/-! PORT.LINK_STATUS: spec/10_host_ports_pcie_cxl.md R285 -/
def PORT.LINK_STATUS.STATE : Fld := ⟨223, .PORT_LINK_STATUS, 0, 4, .ro, 0⟩
def PORT.LINK_STATUS.RATE : Fld := ⟨224, .PORT_LINK_STATUS, 4, 3, .ro, 0⟩
def PORT.LINK_STATUS.WIDTH : Fld := ⟨225, .PORT_LINK_STATUS, 7, 3, .ro, 0⟩
def PORT.LINK_STATUS.FLIT : Fld := ⟨226, .PORT_LINK_STATUS, 10, 1, .ro, 0⟩
def PORT.LINK_STATUS.CXL_ACTIVE : Fld := ⟨227, .PORT_LINK_STATUS, 11, 1, .ro, 0⟩
def PORT.LINK_STATUS.DL_ACTIVE : Fld := ⟨228, .PORT_LINK_STATUS, 12, 1, .ro, 0⟩
def PORT.LINK_STATUS.L0P_WIDTH : Fld := ⟨229, .PORT_LINK_STATUS, 13, 3, .ro, 0⟩
def PORT.LINK_STATUS.CXL_FALLBACK : Fld := ⟨230, .PORT_LINK_STATUS, 16, 1, .ro, 0⟩
/-! VSW.VDSP_MAP: spec/10_host_ports_pcie_cxl.md R293 -/
def VSW.VDSP_MAP.PORT : Fld := ⟨231, .VSW_VDSP_MAP, 0, 7, .rw, 0⟩
def VSW.VDSP_MAP.DEV : Fld := ⟨232, .VSW_VDSP_MAP, 7, 8, .rw, 0⟩
def VSW.VDSP_MAP.VALID : Fld := ⟨233, .VSW_VDSP_MAP, 15, 1, .rw, 0⟩
/-! PORT.CFG_HOLD: spec/10_host_ports_pcie_cxl.md R298 -/
def PORT.CFG_HOLD.HOLD_US : Fld := ⟨234, .PORT_CFG_HOLD, 0, 16, .rw, 1000⟩
/-! IDMAP.ENTRY_LO: spec/10_host_ports_pcie_cxl.md R301 -/
def IDMAP.ENTRY_LO.DS_ID : Fld := ⟨235, .IDMAP_ENTRY_LO, 0, 16, .rw, 0⟩
def IDMAP.ENTRY_LO.DS_DEV : Fld := ⟨236, .IDMAP_ENTRY_LO, 16, 8, .rw, 0⟩
def IDMAP.ENTRY_LO.DS_PORT : Fld := ⟨237, .IDMAP_ENTRY_LO, 24, 7, .rw, 0⟩
def IDMAP.ENTRY_LO.VALID : Fld := ⟨238, .IDMAP_ENTRY_LO, 31, 1, .rw, 0⟩
/-! IDMAP.ENTRY_HI: spec/10_host_ports_pcie_cxl.md R301 -/
def IDMAP.ENTRY_HI.DOMAIN : Fld := ⟨239, .IDMAP_ENTRY_HI, 0, 6, .rw, 0⟩
def IDMAP.ENTRY_HI.VDSP : Fld := ⟨240, .IDMAP_ENTRY_HI, 6, 5, .rw, 0⟩
def IDMAP.ENTRY_HI.HFN : Fld := ⟨241, .IDMAP_ENTRY_HI, 11, 8, .rw, 0⟩
def IDMAP.ENTRY_HI.INTX : Fld := ⟨242, .IDMAP_ENTRY_HI, 19, 1, .ro, 0⟩
def IDMAP.ENTRY_HI.PIN : Fld := ⟨243, .IDMAP_ENTRY_HI, 20, 2, .ro, 0⟩
/-! IDMAP.CMD: spec/10_host_ports_pcie_cxl.md R301 -/
def IDMAP.CMD.INDEX : Fld := ⟨244, .IDMAP_CMD, 0, 12, .rw, 0⟩
def IDMAP.CMD.OP : Fld := ⟨245, .IDMAP_CMD, 12, 2, .rw, 0⟩
def IDMAP.CMD.GO : Fld := ⟨246, .IDMAP_CMD, 14, 1, .wo, 0⟩
def IDMAP.CMD.BUSY : Fld := ⟨247, .IDMAP_CMD, 15, 1, .ro, 0⟩
def IDMAP.CMD.STATUS : Fld := ⟨248, .IDMAP_CMD, 16, 2, .ro, 0⟩
/-! PORT.REMAP_RID: spec/10_host_ports_pcie_cxl.md R302 -/
def PORT.REMAP_RID.RID : Fld := ⟨249, .PORT_REMAP_RID, 0, 16, .rw, 0⟩
/-! PORT.TRV_RID: spec/10_host_ports_pcie_cxl.md R302 -/
def PORT.TRV_RID.RID : Fld := ⟨250, .PORT_TRV_RID, 0, 16, .rw, 0⟩
/-! PORT.INTX_STATUS: spec/10_host_ports_pcie_cxl.md R305 -/
def PORT.INTX_STATUS.WIRE : Fld := ⟨251, .PORT_INTX_STATUS, 0, 4, .ro, 0⟩
/-! LANE.TX_TAPS0: spec/11_serdes_lanes.md R326 -/
def LANE.TX_TAPS0.CM3 : Fld := ⟨252, .LANE_TX_TAPS0, 0, 7, .rw, 0⟩
def LANE.TX_TAPS0.CM2 : Fld := ⟨253, .LANE_TX_TAPS0, 8, 7, .rw, 0⟩
def LANE.TX_TAPS0.CM1 : Fld := ⟨254, .LANE_TX_TAPS0, 16, 7, .rw, 0⟩
def LANE.TX_TAPS0.C0 : Fld := ⟨255, .LANE_TX_TAPS0, 24, 7, .rw, 64⟩
/-! LANE.TX_TAPS1: spec/11_serdes_lanes.md R326 -/
def LANE.TX_TAPS1.CP1 : Fld := ⟨256, .LANE_TX_TAPS1, 0, 7, .rw, 0⟩
def LANE.TX_TAPS1.CP2 : Fld := ⟨257, .LANE_TX_TAPS1, 8, 7, .rw, 0⟩
/-! LANE.MARGIN_CTL: spec/11_serdes_lanes.md R334 -/
def LANE.MARGIN_CTL.EYE_MIN_NRZ : Fld := ⟨258, .LANE_MARGIN_CTL, 0, 8, .rw, 24⟩
def LANE.MARGIN_CTL.EYE_MIN_PAM4 : Fld := ⟨259, .LANE_MARGIN_CTL, 8, 8, .rw, 8⟩
def LANE.MARGIN_CTL.PERIOD : Fld := ⟨260, .LANE_MARGIN_CTL, 16, 8, .rw, 1⟩
def LANE.MARGIN_CTL.RERUN_EN : Fld := ⟨261, .LANE_MARGIN_CTL, 24, 1, .rw, 1⟩
/-! LANE.MARGIN_RESULT: spec/11_serdes_lanes.md R334 -/
def LANE.MARGIN_RESULT.HEIGHT : Fld := ⟨262, .LANE_MARGIN_RESULT, 0, 8, .ro, 0⟩
def LANE.MARGIN_RESULT.WIDTH : Fld := ⟨263, .LANE_MARGIN_RESULT, 8, 6, .ro, 0⟩
def LANE.MARGIN_RESULT.PASS : Fld := ⟨264, .LANE_MARGIN_RESULT, 14, 1, .ro, 0⟩
def LANE.MARGIN_RESULT.RESUME : Fld := ⟨265, .LANE_MARGIN_RESULT, 15, 1, .ro, 0⟩
def LANE.MARGIN_RESULT.AGE : Fld := ⟨266, .LANE_MARGIN_RESULT, 16, 16, .ro, 0⟩
/-! LANE.ADAPT_STATUS: spec/11_serdes_lanes.md R334 -/
def LANE.ADAPT_STATUS.FROZEN : Fld := ⟨267, .LANE_ADAPT_STATUS, 0, 1, .ro, 0⟩
def LANE.ADAPT_STATUS.EI : Fld := ⟨268, .LANE_ADAPT_STATUS, 1, 1, .ro, 1⟩
def LANE.ADAPT_STATUS.DENSITY : Fld := ⟨269, .LANE_ADAPT_STATUS, 2, 12, .ro, 0⟩
def LANE.ADAPT_STATUS.RX_POL_AUTO : Fld := ⟨270, .LANE_ADAPT_STATUS, 14, 1, .ro, 0⟩
def LANE.ADAPT_STATUS.MARGIN_FAIL : Fld := ⟨271, .LANE_ADAPT_STATUS, 15, 1, .w1c, 0⟩
def LANE.ADAPT_STATUS.RERUNS : Fld := ⟨272, .LANE_ADAPT_STATUS, 16, 4, .w1cAll, 0⟩
def LANE.ADAPT_STATUS.CDR_LOL : Fld := ⟨273, .LANE_ADAPT_STATUS, 20, 8, .w1cAll, 0⟩
/-! TILE.REF_CTL: spec/11_serdes_lanes.md R338 -/
def TILE.REF_CTL.MODE : Fld := ⟨274, .TILE_REF_CTL, 0, 1, .rw, 0⟩
/-! PORT.PHY_STATUS: spec/11_serdes_lanes.md R342 -/
def PORT.PHY_STATUS.REVERSED : Fld := ⟨275, .PORT_PHY_STATUS, 0, 1, .ro, 0⟩
def PORT.PHY_STATUS.INDEP : Fld := ⟨276, .PORT_PHY_STATUS, 1, 1, .ro, 0⟩
/-! LANE.CFG: spec/11_serdes_lanes.md R344 -/
def LANE.CFG.TX_INVERT : Fld := ⟨277, .LANE_CFG, 0, 1, .rw, 0⟩
def LANE.CFG.RX_INVERT : Fld := ⟨278, .LANE_CFG, 1, 1, .rw, 0⟩
def LANE.CFG.LOOP : Fld := ⟨279, .LANE_CFG, 2, 2, .rw, 0⟩
def LANE.CFG.TX_OVERRIDE : Fld := ⟨280, .LANE_CFG, 4, 1, .rw, 0⟩
def LANE.CFG.ADAPT_HOLD : Fld := ⟨281, .LANE_CFG, 5, 1, .rw, 0⟩
def LANE.CFG.REFUSED : Fld := ⟨282, .LANE_CFG, 6, 1, .w1c, 0⟩
/-! LANE.PRBS_CTL: spec/11_serdes_lanes.md R346 -/
def LANE.PRBS_CTL.GEN_PAT : Fld := ⟨283, .LANE_PRBS_CTL, 0, 3, .rw, 3⟩
def LANE.PRBS_CTL.GEN_EN : Fld := ⟨284, .LANE_PRBS_CTL, 3, 1, .rw, 0⟩
def LANE.PRBS_CTL.CHK_PAT : Fld := ⟨285, .LANE_PRBS_CTL, 4, 3, .rw, 3⟩
def LANE.PRBS_CTL.CHK_EN : Fld := ⟨286, .LANE_PRBS_CTL, 7, 1, .rw, 0⟩
def LANE.PRBS_CTL.LOCK : Fld := ⟨287, .LANE_PRBS_CTL, 8, 1, .ro, 0⟩
def LANE.PRBS_CTL.CLEAR : Fld := ⟨288, .LANE_PRBS_CTL, 9, 1, .wo, 0⟩
def LANE.PRBS_CTL.INJECT : Fld := ⟨289, .LANE_PRBS_CTL, 10, 1, .wo, 0⟩
def LANE.PRBS_CTL.LOSS : Fld := ⟨290, .LANE_PRBS_CTL, 12, 8, .w1cAll, 0⟩
/-! LANE.BITSLIP: spec/11_serdes_lanes.md R346 -/
def LANE.BITSLIP.COUNT : Fld := ⟨291, .LANE_BITSLIP, 0, 6, .wo, 0⟩
/-! LANE.EYE_CTL: spec/11_serdes_lanes.md R346 -/
def LANE.EYE_CTL.T_OFF : Fld := ⟨292, .LANE_EYE_CTL, 0, 6, .rw, 0⟩
def LANE.EYE_CTL.V_OFF : Fld := ⟨293, .LANE_EYE_CTL, 7, 8, .rw, 0⟩
def LANE.EYE_CTL.EYE : Fld := ⟨294, .LANE_EYE_CTL, 16, 2, .rw, 0⟩
def LANE.EYE_CTL.DWELL : Fld := ⟨295, .LANE_EYE_CTL, 18, 4, .rw, 0⟩
def LANE.EYE_CTL.GO : Fld := ⟨296, .LANE_EYE_CTL, 22, 1, .wo, 0⟩
def LANE.EYE_CTL.BUSY : Fld := ⟨297, .LANE_EYE_CTL, 23, 1, .ro, 0⟩
def LANE.EYE_CTL.STATUS : Fld := ⟨298, .LANE_EYE_CTL, 24, 2, .ro, 0⟩
/-! SLOT.PWR_LIMIT: spec/12_slot_power_sideband.md R348 -/
def SLOT.PWR_LIMIT.ILIM : Fld := ⟨299, .SLOT_PWR_LIMIT, 0, 12, .rw, 0⟩
def SLOT.PWR_LIMIT.RSENSE : Fld := ⟨300, .SLOT_PWR_LIMIT, 12, 16, .rw, 0⟩
/-! SLOT.PWR_FOLD: spec/12_slot_power_sideband.md R348 -/
def SLOT.PWR_FOLD.LIMIT : Fld := ⟨301, .SLOT_PWR_FOLD, 0, 12, .rw, 0⟩
/-! SLOT.PWR_TIMER: spec/12_slot_power_sideband.md R348 -/
def SLOT.PWR_TIMER.FAULT : Fld := ⟨302, .SLOT_PWR_TIMER, 0, 8, .rw, 20⟩
def SLOT.PWR_TIMER.RESTART : Fld := ⟨303, .SLOT_PWR_TIMER, 8, 8, .rw, 10⟩
/-! SLOT.PWR_CTL: spec/12_slot_power_sideband.md R360 -/
def SLOT.PWR_CTL.ON : Fld := ⟨304, .SLOT_PWR_CTL, 0, 1, .rw, 0⟩
def SLOT.PWR_CTL.AUTO_RETRY : Fld := ⟨305, .SLOT_PWR_CTL, 1, 1, .rw, 0⟩
def SLOT.PWR_CTL.RETRY_MAX : Fld := ⟨306, .SLOT_PWR_CTL, 2, 4, .rw, 0⟩
def SLOT.PWR_CTL.PRSNT_GATE : Fld := ⟨307, .SLOT_PWR_CTL, 6, 1, .rw, 1⟩
def SLOT.PWR_CTL.PERST : Fld := ⟨308, .SLOT_PWR_CTL, 7, 1, .rw, 1⟩
def SLOT.PWR_CTL.CLEAR : Fld := ⟨309, .SLOT_PWR_CTL, 8, 1, .wo, 0⟩
/-! SLOT.PWR_STATUS: spec/12_slot_power_sideband.md R360 -/
def SLOT.PWR_STATUS.STATE : Fld := ⟨310, .SLOT_PWR_STATUS, 0, 3, .ro, 0⟩
def SLOT.PWR_STATUS.PG : Fld := ⟨311, .SLOT_PWR_STATUS, 3, 1, .ro, 0⟩
def SLOT.PWR_STATUS.PRSNT_STABLE : Fld := ⟨312, .SLOT_PWR_STATUS, 4, 1, .ro, 0⟩
def SLOT.PWR_STATUS.RESTART_RUN : Fld := ⟨313, .SLOT_PWR_STATUS, 5, 1, .ro, 0⟩
def SLOT.PWR_STATUS.LATCHED : Fld := ⟨314, .SLOT_PWR_STATUS, 6, 1, .ro, 0⟩
def SLOT.PWR_STATUS.HARD_SHORT : Fld := ⟨315, .SLOT_PWR_STATUS, 7, 1, .w1c, 0⟩
def SLOT.PWR_STATUS.FLT_TIMER : Fld := ⟨316, .SLOT_PWR_STATUS, 8, 1, .w1c, 0⟩
def SLOT.PWR_STATUS.GATE_FAIL : Fld := ⟨317, .SLOT_PWR_STATUS, 9, 1, .w1c, 0⟩
def SLOT.PWR_STATUS.FET_SHORT : Fld := ⟨318, .SLOT_PWR_STATUS, 10, 1, .w1c, 0⟩
def SLOT.PWR_STATUS.SHED : Fld := ⟨319, .SLOT_PWR_STATUS, 11, 1, .w1c, 0⟩
def SLOT.PWR_STATUS.ON_REFUSED : Fld := ⟨320, .SLOT_PWR_STATUS, 12, 1, .w1c, 0⟩
def SLOT.PWR_STATUS.LIMIT_REFUSED : Fld := ⟨321, .SLOT_PWR_STATUS, 13, 1, .w1c, 0⟩
def SLOT.PWR_STATUS.RETRIES : Fld := ⟨322, .SLOT_PWR_STATUS, 16, 4, .ro, 0⟩
/-! SLOT.WARN_SHED: spec/12_slot_power_sideband.md R361 -/
def SLOT.WARN_SHED.MASK : Fld := ⟨323, .SLOT_WARN_SHED, 0, 32, .rw, 0⟩
/-! SBIN.CFG: spec/12_slot_power_sideband.md R367 -/
def SBIN.CFG.DEB_US : Fld := ⟨324, .SBIN_CFG, 0, 16, .rw, 0⟩
def SBIN.CFG.STUCK : Fld := ⟨325, .SBIN_CFG, 16, 6, .rw, 7⟩
def SBIN.CFG.STUCK_EN : Fld := ⟨326, .SBIN_CFG, 22, 1, .rw, 0⟩
def SBIN.CFG.CHAT_EDGES : Fld := ⟨327, .SBIN_CFG, 23, 8, .rw, 255⟩
def SBIN.CFG.CHAT_EN : Fld := ⟨328, .SBIN_CFG, 31, 1, .rw, 0⟩
/-! SBIN.CTL: spec/12_slot_power_sideband.md R367 -/
def SBIN.CTL.WIN_MS : Fld := ⟨329, .SBIN_CTL, 0, 10, .rw, 100⟩
def SBIN.CTL.REARM : Fld := ⟨330, .SBIN_CTL, 10, 1, .wo, 0⟩
/-! SBIN.STATUS: spec/12_slot_power_sideband.md R367 -/
def SBIN.STATUS.LEVEL : Fld := ⟨331, .SBIN_STATUS, 0, 1, .ro, 0⟩
def SBIN.STATUS.RAW : Fld := ⟨332, .SBIN_STATUS, 1, 1, .ro, 0⟩
def SBIN.STATUS.MASKED : Fld := ⟨333, .SBIN_STATUS, 2, 1, .ro, 0⟩
def SBIN.STATUS.STUCK : Fld := ⟨334, .SBIN_STATUS, 3, 1, .w1c, 0⟩
def SBIN.STATUS.CHATTER : Fld := ⟨335, .SBIN_STATUS, 4, 1, .w1c, 0⟩
def SBIN.STATUS.EDGE : Fld := ⟨336, .SBIN_STATUS, 5, 1, .w1c, 0⟩
def SBIN.STATUS.EDGES : Fld := ⟨337, .SBIN_STATUS, 8, 8, .ro, 0⟩
/-! SUMMIT.BOOT_STATUS: spec/13_summit_foothill_boot.md R379 -/
def SUMMIT.BOOT_STATUS.STAGE : Fld := ⟨338, .SUMMIT_BOOT_STATUS, 0, 4, .ro, 0⟩
def SUMMIT.BOOT_STATUS.FAIL : Fld := ⟨339, .SUMMIT_BOOT_STATUS, 4, 4, .ro, 0⟩
def SUMMIT.BOOT_STATUS.SUMMIT_SLOT : Fld := ⟨340, .SUMMIT_BOOT_STATUS, 8, 1, .ro, 0⟩
def SUMMIT.BOOT_STATUS.POLICY_SLOT : Fld := ⟨341, .SUMMIT_BOOT_STATUS, 9, 1, .ro, 0⟩
def SUMMIT.BOOT_STATUS.FOOTHILL_SLOT : Fld := ⟨342, .SUMMIT_BOOT_STATUS, 10, 1, .ro, 0⟩
def SUMMIT.BOOT_STATUS.FALLBACK : Fld := ⟨343, .SUMMIT_BOOT_STATUS, 11, 1, .ro, 0⟩
def SUMMIT.BOOT_STATUS.CAIRN_SAVING : Fld := ⟨344, .SUMMIT_BOOT_STATUS, 12, 1, .ro, 0⟩
def SUMMIT.BOOT_STATUS.SUMMIT_SVN : Fld := ⟨345, .SUMMIT_BOOT_STATUS, 16, 6, .ro, 0⟩
def SUMMIT.BOOT_STATUS.FOOTHILL_SVN : Fld := ⟨346, .SUMMIT_BOOT_STATUS, 22, 6, .ro, 0⟩
/-! SUMMIT.GRANT_STATUS: spec/13_summit_foothill_boot.md R392 -/
def SUMMIT.GRANT_STATUS.ACTIVE : Fld := ⟨347, .SUMMIT_GRANT_STATUS, 0, 1, .ro, 0⟩
def SUMMIT.GRANT_STATUS.SCOPE : Fld := ⟨348, .SUMMIT_GRANT_STATUS, 1, 5, .ro, 0⟩
def SUMMIT.GRANT_STATUS.REFUSED : Fld := ⟨349, .SUMMIT_GRANT_STATUS, 6, 1, .w1c, 0⟩
def SUMMIT.GRANT_STATUS.REASON : Fld := ⟨350, .SUMMIT_GRANT_STATUS, 7, 4, .ro, 0⟩
def SUMMIT.GRANT_STATUS.REMAIN : Fld := ⟨351, .SUMMIT_GRANT_STATUS, 11, 17, .ro, 0⟩
/-! SPUR.IMG_AREA: spec/13_summit_foothill_boot.md R393 -/
def SPUR.IMG_AREA.AREA : Fld := ⟨352, .SPUR_IMG_AREA, 0, 1, .ro, 0⟩
def SPUR.IMG_AREA.STATE_FMT : Fld := ⟨353, .SPUR_IMG_AREA, 8, 16, .ro, 0⟩
/-! CNT.IDX: spec/14_counters_cairn.md R402 -/
def CNT.IDX.K : Fld := ⟨354, .CNT_IDX, 0, 11, .rw, 0⟩
/-! CNT.SEL: spec/14_counters_cairn.md R402 -/
def CNT.SEL.EVENT : Fld := ⟨355, .CNT_SEL, 0, 10, .rw, 0⟩
def CNT.SEL.MODE : Fld := ⟨356, .CNT_SEL, 10, 2, .rw, 0⟩
def CNT.SEL.EN : Fld := ⟨357, .CNT_SEL, 12, 1, .rw, 0⟩
def CNT.SEL.OVF : Fld := ⟨358, .CNT_SEL, 13, 1, .w1c, 0⟩
def CNT.SEL.INST : Fld := ⟨359, .CNT_SEL, 14, 6, .rw, 0⟩
def CNT.SEL.INST_ALL : Fld := ⟨360, .CNT_SEL, 20, 1, .rw, 0⟩
/-! CNT.QUAL: spec/14_counters_cairn.md R402 -/
def CNT.QUAL.CLASS_MASK : Fld := ⟨361, .CNT_QUAL, 0, 8, .rw, 255⟩
def CNT.QUAL.SLOT_MASK : Fld := ⟨362, .CNT_QUAL, 8, 8, .rw, 255⟩
def CNT.QUAL.TENANT : Fld := ⟨363, .CNT_QUAL, 16, 9, .rw, 0⟩
def CNT.QUAL.TEN_EN : Fld := ⟨364, .CNT_QUAL, 25, 1, .rw, 0⟩
/-! CNT.THR: spec/14_counters_cairn.md R402 -/
def CNT.THR.VALUE : Fld := ⟨365, .CNT_THR, 0, 24, .rw, 0⟩
/-! CNT.VAL_LO: spec/14_counters_cairn.md R402 -/
def CNT.VAL_LO.COUNT : Fld := ⟨366, .CNT_VAL_LO, 0, 32, .rw, 0⟩
/-! CNT.VAL_HI: spec/14_counters_cairn.md R402 -/
def CNT.VAL_HI.COUNT : Fld := ⟨367, .CNT_VAL_HI, 0, 16, .rw, 0⟩
/-! CNT.SNAP_CTL: spec/14_counters_cairn.md R409 -/
def CNT.SNAP_CTL.GO : Fld := ⟨368, .CNT_SNAP_CTL, 0, 1, .wo, 0⟩
def CNT.SNAP_CTL.RUN : Fld := ⟨369, .CNT_SNAP_CTL, 1, 1, .rw, 1⟩
/-! CNT.SNAP_STATUS: spec/14_counters_cairn.md R409 -/
def CNT.SNAP_STATUS.SEQ : Fld := ⟨370, .CNT_SNAP_STATUS, 0, 16, .ro, 0⟩
def CNT.SNAP_STATUS.PENDING : Fld := ⟨371, .CNT_SNAP_STATUS, 16, 1, .ro, 0⟩
def CNT.SNAP_STATUS.SKIPPED : Fld := ⟨372, .CNT_SNAP_STATUS, 17, 1, .w1c, 0⟩
def CNT.SNAP_STATUS.OVERFLOW : Fld := ⟨373, .CNT_SNAP_STATUS, 18, 1, .w1c, 0⟩
def CNT.SNAP_STATUS.DUMP_FAULT : Fld := ⟨374, .CNT_SNAP_STATUS, 19, 1, .w1c, 0⟩
def CNT.SNAP_STATUS.DUMP_REFUSED : Fld := ⟨375, .CNT_SNAP_STATUS, 20, 1, .w1c, 0⟩
def CNT.SNAP_STATUS.SEL_REFUSED : Fld := ⟨376, .CNT_SNAP_STATUS, 21, 1, .w1c, 0⟩
/-! CNT.SNAP_LO: spec/14_counters_cairn.md R409 -/
def CNT.SNAP_LO.COUNT : Fld := ⟨377, .CNT_SNAP_LO, 0, 32, .ro, 0⟩
/-! CNT.SNAP_HI: spec/14_counters_cairn.md R409 -/
def CNT.SNAP_HI.COUNT : Fld := ⟨378, .CNT_SNAP_HI, 0, 16, .ro, 0⟩
/-! CNT.DUMP_CTL: spec/14_counters_cairn.md R409 -/
def CNT.DUMP_CTL.PERIOD_US : Fld := ⟨379, .CNT_DUMP_CTL, 0, 20, .rw, 1000⟩
def CNT.DUMP_CTL.EN : Fld := ⟨380, .CNT_DUMP_CTL, 20, 1, .rw, 0⟩
def CNT.DUMP_CTL.TARGET : Fld := ⟨381, .CNT_DUMP_CTL, 21, 1, .rw, 0⟩
def CNT.DUMP_CTL.SIZE : Fld := ⟨382, .CNT_DUMP_CTL, 22, 4, .rw, 4⟩
/-! CNT.DUMP_BASE: spec/14_counters_cairn.md R409 -/
def CNT.DUMP_BASE.DESC : Fld := ⟨383, .CNT_DUMP_BASE, 0, 12, .rw, 0⟩
def CNT.DUMP_BASE.BASE : Fld := ⟨384, .CNT_DUMP_BASE, 12, 20, .rw, 0⟩
/-! CNT.DUMP_RING: spec/14_counters_cairn.md R409 -/
def CNT.DUMP_RING.TAIL : Fld := ⟨385, .CNT_DUMP_RING, 0, 15, .ro, 0⟩
def CNT.DUMP_RING.HEAD : Fld := ⟨386, .CNT_DUMP_RING, 16, 15, .rw, 0⟩
/-! PORT.BW_CTL: spec/14_counters_cairn.md R411 -/
def PORT.BW_CTL.WIN_US : Fld := ⟨387, .PORT_BW_CTL, 0, 20, .rw, 1000⟩
def PORT.BW_CTL.EN : Fld := ⟨388, .PORT_BW_CTL, 20, 1, .rw, 1⟩
/-! CNT.BW_IDX: spec/14_counters_cairn.md R411 -/
def CNT.BW_IDX.W : Fld := ⟨389, .CNT_BW_IDX, 0, 11, .rw, 0⟩
/-! CNT.BW_VAL: spec/14_counters_cairn.md R411 -/
def CNT.BW_VAL.VALUE : Fld := ⟨390, .CNT_BW_VAL, 0, 32, .ro, 0⟩
/-! CNT.BW_PEAK: spec/14_counters_cairn.md R411 -/
def CNT.BW_PEAK.PEAK : Fld := ⟨391, .CNT_BW_PEAK, 0, 32, .rw, 0⟩
/-! CAIRN.CTL: spec/14_counters_cairn.md R421 -/
def CAIRN.CTL.FREEZE : Fld := ⟨392, .CAIRN_CTL, 0, 1, .wo, 0⟩
def CAIRN.CTL.ARM : Fld := ⟨393, .CAIRN_CTL, 1, 1, .rwl, 0⟩
/-! CAIRN.TRIG: spec/14_counters_cairn.md R421 -/
def CAIRN.TRIG.SYSRST : Fld := ⟨394, .CAIRN_TRIG, 0, 1, .rwl, 0⟩
def CAIRN.TRIG.PWRWARN : Fld := ⟨395, .CAIRN_TRIG, 1, 1, .rwl, 0⟩
def CAIRN.TRIG.TILE : Fld := ⟨396, .CAIRN_TRIG, 2, 1, .rwl, 1⟩
def CAIRN.TRIG.STACK : Fld := ⟨397, .CAIRN_TRIG, 3, 1, .rwl, 1⟩
def CAIRN.TRIG.NO_SPARE : Fld := ⟨398, .CAIRN_TRIG, 4, 1, .rwl, 1⟩
/-! CAIRN.STATUS: spec/14_counters_cairn.md R421 -/
def CAIRN.STATUS.FROZEN : Fld := ⟨399, .CAIRN_STATUS, 0, 1, .ro, 0⟩
def CAIRN.STATUS.WR_IDX : Fld := ⟨400, .CAIRN_STATUS, 1, 13, .ro, 0⟩
def CAIRN.STATUS.CAUSE : Fld := ⟨401, .CAIRN_STATUS, 14, 4, .ro, 0⟩
def CAIRN.STATUS.FREEZE_IDX : Fld := ⟨402, .CAIRN_STATUS, 18, 13, .ro, 0⟩
/-! CAIRN.COUNT: spec/14_counters_cairn.md R421 -/
def CAIRN.COUNT.DISCARDED : Fld := ⟨403, .CAIRN_COUNT, 0, 16, .w1cAll, 0⟩
def CAIRN.COUNT.TRIGGERS : Fld := ⟨404, .CAIRN_COUNT, 16, 16, .w1cAll, 0⟩
/-! CAIRN.RD_IDX: spec/14_counters_cairn.md R421 -/
def CAIRN.RD_IDX.INDEX : Fld := ⟨405, .CAIRN_RD_IDX, 0, 13, .rw, 0⟩
/-! BIST.BUDGET: spec/15_bist_service_repair.md R425 -/
def BIST.BUDGET.WATTS : Fld := ⟨406, .BIST_BUDGET, 0, 8, .rwl, 64⟩
/-! BIST.STATUS: spec/15_bist_service_repair.md R425 -/
def BIST.STATUS.TILES : Fld := ⟨407, .BIST_STATUS, 0, 16, .ro, 0⟩
def BIST.STATUS.PLANES : Fld := ⟨408, .BIST_STATUS, 16, 4, .ro, 0⟩
def BIST.STATUS.CORES : Fld := ⟨409, .BIST_STATUS, 20, 9, .ro, 0⟩
def BIST.STATUS.ENGINE : Fld := ⟨410, .BIST_STATUS, 29, 1, .ro, 0⟩
/-! BIST.POWER: spec/15_bist_service_repair.md R425 -/
def BIST.POWER.RUNNING_W : Fld := ⟨411, .BIST_POWER, 0, 8, .ro, 0⟩
def BIST.POWER.WAITING : Fld := ⟨412, .BIST_POWER, 8, 4, .ro, 0⟩
/-! BIST.CE_ROW: spec/15_bist_service_repair.md R433 -/
def BIST.CE_ROW.LIMIT : Fld := ⟨413, .BIST_CE_ROW, 0, 8, .rw, 8⟩
/-! BIST.REPAIR_STATUS: spec/15_bist_service_repair.md R433 -/
def BIST.REPAIR_STATUS.SOFT : Fld := ⟨414, .BIST_REPAIR_STATUS, 0, 12, .ro, 0⟩
def BIST.REPAIR_STATUS.FUSED : Fld := ⟨415, .BIST_REPAIR_STATUS, 12, 12, .ro, 0⟩
def BIST.REPAIR_STATUS.FULL : Fld := ⟨416, .BIST_REPAIR_STATUS, 24, 1, .w1c, 0⟩
/-! SUP.STATUS: spec/16_supplies_clocks_reset.md R443 -/
def SUP.STATUS.IN_RANGE : Fld := ⟨417, .SUP_STATUS, 0, 9, .ro, 1⟩
def SUP.STATUS.PWRDN : Fld := ⟨418, .SUP_STATUS, 9, 1, .ro, 0⟩
def SUP.STATUS.PWR_OK : Fld := ⟨419, .SUP_STATUS, 10, 1, .ro, 0⟩
/-! SUP.FAULT: spec/16_supplies_clocks_reset.md R443 -/
def SUP.FAULT.UNDER : Fld := ⟨420, .SUP_FAULT, 0, 9, .w1c, 0⟩
def SUP.FAULT.OVER : Fld := ⟨421, .SUP_FAULT, 9, 9, .w1c, 0⟩
/-! SUP.MEAS: spec/16_supplies_clocks_reset.md R443 -/
def SUP.MEAS.MV : Fld := ⟨422, .SUP_MEAS, 0, 12, .ro, 0⟩
/-! DEV.RST_CTL: spec/16_supplies_clocks_reset.md R448 -/
def DEV.RST_CTL.WARM : Fld := ⟨423, .DEV_RST_CTL, 0, 1, .wo, 0⟩
def DEV.RST_CTL.KEY : Fld := ⟨424, .DEV_RST_CTL, 16, 16, .wo, 0⟩
/-! DEV.RST_STATUS: spec/16_supplies_clocks_reset.md R448 -/
def DEV.RST_STATUS.COLD_CAUSE : Fld := ⟨425, .DEV_RST_STATUS, 0, 4, .ro, 0⟩
def DEV.RST_STATUS.WARM_CAUSE : Fld := ⟨426, .DEV_RST_STATUS, 4, 4, .ro, 0⟩
def DEV.RST_STATUS.COLD_COUNT : Fld := ⟨427, .DEV_RST_STATUS, 8, 8, .ro, 0⟩
def DEV.RST_STATUS.WARM_COUNT : Fld := ⟨428, .DEV_RST_STATUS, 16, 8, .ro, 0⟩
def DEV.RST_STATUS.REFUSED : Fld := ⟨429, .DEV_RST_STATUS, 24, 8, .w1cAll, 0⟩
/-! DEV.TEMP: spec/17_package_pins_electrical.md R469 -/
def DEV.TEMP.DIE : Fld := ⟨430, .DEV_TEMP, 0, 8, .ro, 0⟩
def DEV.TEMP.HBM : Fld := ⟨431, .DEV_TEMP, 8, 8, .ro, 0⟩
def DEV.TEMP.DIE_PEAK : Fld := ⟨432, .DEV_TEMP, 16, 8, .rw, 0⟩
def DEV.TEMP.HOT : Fld := ⟨433, .DEV_TEMP, 24, 1, .w1c, 0⟩
/-! TILE.LANE_SEL: spec/18_register_map.md R476 -/
def TILE.LANE_SEL.LANE : Fld := ⟨434, .TILE_LANE_SEL, 0, 4, .rw, 0⟩
/-! COL.LANE_SEL: spec/18_register_map.md R476 -/
def COL.LANE_SEL.LANE : Fld := ⟨435, .COL_LANE_SEL, 0, 1, .rw, 0⟩
/-! VSW.IDX: spec/18_register_map.md R476 -/
def VSW.IDX.DOMAIN : Fld := ⟨436, .VSW_IDX, 0, 6, .rw, 0⟩
def VSW.IDX.VDSP : Fld := ⟨437, .VSW_IDX, 6, 5, .rw, 0⟩
/-! TARN.REMOTE_IDX: spec/18_register_map.md R476 -/
def TARN.REMOTE_IDX.INDEX : Fld := ⟨438, .TARN_REMOTE_IDX, 0, 8, .rw, 0⟩
/-! FN.REFUSED: spec/18_register_map.md R478 -/
def FN.REFUSED.COUNT : Fld := ⟨439, .FN_REFUSED, 0, 16, .w1cAll, 0⟩
/-! TILE.NOTCH_TBL_KEY: spec/03_notch_programs.md R84 -/
def TILE.NOTCH_TBL_KEY.KEY : Fld := ⟨440, .TILE_NOTCH_TBL_KEY, 0, 32, .rw, 0⟩
/-! TILE.NOTCH_TBL_DATA: spec/03_notch_programs.md R84 -/
def TILE.NOTCH_TBL_DATA.DATA : Fld := ⟨441, .TILE_NOTCH_TBL_DATA, 0, 32, .rw, 0⟩
/-! TILE.NOTCH_RSLV_O0: spec/03_notch_programs.md R96 -/
def TILE.NOTCH_RSLV_O0.V : Fld := ⟨442, .TILE_NOTCH_RSLV_O0, 0, 32, .rw, 0⟩
/-! TILE.NOTCH_RSLV_O1: spec/03_notch_programs.md R96 -/
def TILE.NOTCH_RSLV_O1.V : Fld := ⟨443, .TILE_NOTCH_RSLV_O1, 0, 32, .rw, 0⟩
/-! TILE.NOTCH_RSLV_O2_LO: spec/03_notch_programs.md R96 -/
def TILE.NOTCH_RSLV_O2_LO.V : Fld := ⟨444, .TILE_NOTCH_RSLV_O2_LO, 0, 32, .rw, 0⟩
/-! TILE.NOTCH_RSLV_O2_HI: spec/03_notch_programs.md R96 -/
def TILE.NOTCH_RSLV_O2_HI.V : Fld := ⟨445, .TILE_NOTCH_RSLV_O2_HI, 0, 32, .rw, 0⟩
/-! TILE.NOTCH_RSLV_O3: spec/03_notch_programs.md R96 -/
def TILE.NOTCH_RSLV_O3.V : Fld := ⟨446, .TILE_NOTCH_RSLV_O3, 0, 32, .rw, 0⟩
/-! PORT.EGR_WT_HI: spec/04_saddle_queues_ordering.md R113 -/
def PORT.EGR_WT_HI.WT4 : Fld := ⟨447, .PORT_EGR_WT_HI, 0, 8, .rw, 1⟩
def PORT.EGR_WT_HI.WT5 : Fld := ⟨448, .PORT_EGR_WT_HI, 8, 8, .rw, 1⟩
def PORT.EGR_WT_HI.WT6 : Fld := ⟨449, .PORT_EGR_WT_HI, 16, 8, .rw, 1⟩
def PORT.EGR_WT_HI.WT7 : Fld := ⟨450, .PORT_EGR_WT_HI, 24, 8, .rw, 1⟩
/-! SADDLE.MCG_MAP: spec/04_saddle_queues_ordering.md R126 -/
def SADDLE.MCG_MAP.MAP : Fld := ⟨451, .SADDLE_MCG_MAP, 0, 32, .rw, 0⟩
/-! SADDLE.MCG_ATTR: spec/04_saddle_queues_ordering.md R126 -/
def SADDLE.MCG_ATTR.VALID : Fld := ⟨452, .SADDLE_MCG_ATTR, 0, 1, .rw, 0⟩
def SADDLE.MCG_ATTR.NO_REFLECT : Fld := ⟨453, .SADDLE_MCG_ATTR, 1, 1, .rw, 0⟩
/-! SADDLE.MCG_DROP: spec/04_saddle_queues_ordering.md R126 -/
def SADDLE.MCG_DROP.DROP : Fld := ⟨454, .SADDLE_MCG_DROP, 0, 32, .ro, 0⟩
/-! TARN.FLT_ADDR_LO: spec/05_tarn_memory_pool.md R148 -/
def TARN.FLT_ADDR_LO.ADDR : Fld := ⟨455, .TARN_FLT_ADDR_LO, 0, 32, .ro, 0⟩
/-! TARN.FLT_ADDR_HI: spec/05_tarn_memory_pool.md R148 -/
def TARN.FLT_ADDR_HI.ADDR : Fld := ⟨456, .TARN_FLT_ADDR_HI, 0, 32, .ro, 0⟩
/-! TARN.FLT_COUNT: spec/05_tarn_memory_pool.md R148 -/
def TARN.FLT_COUNT.COUNT : Fld := ⟨457, .TARN_FLT_COUNT, 0, 32, .w1cAll, 0⟩
/-! TARN.DESC_IDX: spec/05_tarn_memory_pool.md R144 -/
def TARN.DESC_IDX.INDEX : Fld := ⟨458, .TARN_DESC_IDX, 0, 12, .rw, 0⟩
/-! TARN.DESC_STAGE: spec/05_tarn_memory_pool.md R144 -/
def TARN.DESC_STAGE.W : Fld := ⟨459, .TARN_DESC_STAGE, 0, 32, .rw, 0⟩
/-! TARN.DESC_READ: spec/05_tarn_memory_pool.md R144 -/
def TARN.DESC_READ.W : Fld := ⟨460, .TARN_DESC_READ, 0, 32, .ro, 0⟩
/-! TARN.PC_FROZEN_LO: spec/05_tarn_memory_pool.md R166 -/
def TARN.PC_FROZEN_LO.MAP : Fld := ⟨461, .TARN_PC_FROZEN_LO, 0, 32, .ro, 0⟩
/-! TARN.PC_FROZEN_HI: spec/05_tarn_memory_pool.md R166 -/
def TARN.PC_FROZEN_HI.MAP : Fld := ⟨462, .TARN_PC_FROZEN_HI, 0, 32, .ro, 0⟩
/-! SPUR.DOORBELL: spec/06_spur_cores_memory_order.md R187 -/
def SPUR.DOORBELL.RING : Fld := ⟨463, .SPUR_DOORBELL, 0, 32, .wo, 0⟩
/-! SPUR.HANDOVER_PC_LO: spec/06_spur_cores_memory_order.md R193 -/
def SPUR.HANDOVER_PC_LO.PC : Fld := ⟨464, .SPUR_HANDOVER_PC_LO, 0, 32, .ro, 0⟩
/-! SPUR.HANDOVER_PC_HI: spec/06_spur_cores_memory_order.md R193 -/
def SPUR.HANDOVER_PC_HI.PC : Fld := ⟨465, .SPUR_HANDOVER_PC_HI, 0, 32, .ro, 0⟩
/-! SPUR.PORT_BASE_LO: spec/06_spur_cores_memory_order.md R175 -/
def SPUR.PORT_BASE_LO.RID : Fld := ⟨466, .SPUR_PORT_BASE_LO, 0, 16, .rw, 0⟩
/-! SPUR.PORT_BASE_HI: spec/06_spur_cores_memory_order.md R175 -/
def SPUR.PORT_BASE_HI.BASE : Fld := ⟨467, .SPUR_PORT_BASE_HI, 0, 32, .rw, 0⟩
/-! TRV.TEN_IDX: spec/07_tenants_functions_traverse.md R213 -/
def TRV.TEN_IDX.TENANT : Fld := ⟨468, .TRV_TEN_IDX, 0, 9, .rw, 0⟩
/-! CTN.TEN_IDX: spec/09_containment_timeouts.md R278 -/
def CTN.TEN_IDX.TENANT : Fld := ⟨469, .CTN_TEN_IDX, 0, 9, .rw, 0⟩
/-! MGR.PORTS: spec/13_summit_foothill_boot.md R374 -/
def MGR.PORTS.PORTS : Fld := ⟨470, .MGR_PORTS, 0, 32, .rwl, 0⟩
/-! SUMMIT.MBX_RPLY_LO: spec/13_summit_foothill_boot.md R382 -/
def SUMMIT.MBX_RPLY_LO.V : Fld := ⟨471, .SUMMIT_MBX_RPLY_LO, 0, 32, .ro, 0⟩
/-! SUMMIT.MBX_RPLY_HI: spec/13_summit_foothill_boot.md R382 -/
def SUMMIT.MBX_RPLY_HI.V : Fld := ⟨472, .SUMMIT_MBX_RPLY_HI, 0, 32, .ro, 0⟩
/-! SUMMIT.DBG_CTL: spec/13_summit_foothill_boot.md R392 -/
def SUMMIT.DBG_CTL.SUBMIT : Fld := ⟨473, .SUMMIT_DBG_CTL, 0, 1, .wo, 0⟩
def SUMMIT.DBG_CTL.END : Fld := ⟨474, .SUMMIT_DBG_CTL, 1, 1, .wo, 0⟩
/-! SUMMIT.DBG_NONCE_LO: spec/13_summit_foothill_boot.md R392 -/
def SUMMIT.DBG_NONCE_LO.V : Fld := ⟨475, .SUMMIT_DBG_NONCE_LO, 0, 32, .ro, 0⟩
/-! SUMMIT.DBG_NONCE_HI: spec/13_summit_foothill_boot.md R392 -/
def SUMMIT.DBG_NONCE_HI.V : Fld := ⟨476, .SUMMIT_DBG_NONCE_HI, 0, 32, .ro, 0⟩
/-! SUMMIT.DBG_TOKEN: spec/13_summit_foothill_boot.md R392 -/
def SUMMIT.DBG_TOKEN.V : Fld := ⟨477, .SUMMIT_DBG_TOKEN, 0, 32, .wo, 0⟩
/-! LANE.RX_EQ: spec/11_serdes_lanes.md R334 -/
def LANE.RX_EQ.CTLE : Fld := ⟨478, .LANE_RX_EQ, 0, 4, .ro, 0⟩
def LANE.RX_EQ.GAIN : Fld := ⟨479, .LANE_RX_EQ, 4, 6, .ro, 0⟩
def LANE.RX_EQ.H1 : Fld := ⟨480, .LANE_RX_EQ, 10, 8, .ro, 0⟩
/-! LANE.DFE_TAPS: spec/11_serdes_lanes.md R334 -/
def LANE.DFE_TAPS.H : Fld := ⟨481, .LANE_DFE_TAPS, 0, 32, .ro, 0⟩
/-! LANE.PRBS_ERR_LO: spec/11_serdes_lanes.md R346 -/
def LANE.PRBS_ERR_LO.V : Fld := ⟨482, .LANE_PRBS_ERR_LO, 0, 32, .ro, 0⟩
/-! LANE.PRBS_BITS_LO: spec/11_serdes_lanes.md R346 -/
def LANE.PRBS_BITS_LO.V : Fld := ⟨483, .LANE_PRBS_BITS_LO, 0, 32, .ro, 0⟩
/-! LANE.PRBS_ERR_HI: spec/11_serdes_lanes.md R346 -/
def LANE.PRBS_ERR_HI.V : Fld := ⟨484, .LANE_PRBS_ERR_HI, 0, 16, .ro, 0⟩
/-! LANE.PRBS_BITS_HI: spec/11_serdes_lanes.md R346 -/
def LANE.PRBS_BITS_HI.V : Fld := ⟨485, .LANE_PRBS_BITS_HI, 0, 16, .ro, 0⟩
/-! LANE.PRBS_USER_LO: spec/11_serdes_lanes.md R346 -/
def LANE.PRBS_USER_LO.V : Fld := ⟨486, .LANE_PRBS_USER_LO, 0, 32, .rw, 0⟩
/-! LANE.PRBS_USER_HI: spec/11_serdes_lanes.md R346 -/
def LANE.PRBS_USER_HI.V : Fld := ⟨487, .LANE_PRBS_USER_HI, 0, 32, .rw, 0⟩
/-! LANE.EYE_COUNT: spec/11_serdes_lanes.md R346 -/
def LANE.EYE_COUNT.COUNT : Fld := ⟨488, .LANE_EYE_COUNT, 0, 32, .ro, 0⟩
/-! SLOT.PWR_MEAS0: spec/12_slot_power_sideband.md R360 -/
def SLOT.PWR_MEAS0.VIN : Fld := ⟨489, .SLOT_PWR_MEAS0, 0, 12, .ro, 0⟩
def SLOT.PWR_MEAS0.SRC : Fld := ⟨490, .SLOT_PWR_MEAS0, 16, 12, .ro, 0⟩
/-! SLOT.PWR_MEAS1: spec/12_slot_power_sideband.md R360 -/
def SLOT.PWR_MEAS1.SENSE : Fld := ⟨491, .SLOT_PWR_MEAS1, 0, 12, .ro, 0⟩
def SLOT.PWR_MEAS1.VGS : Fld := ⟨492, .SLOT_PWR_MEAS1, 16, 12, .ro, 0⟩
/-! PORT.PTM_HOST_LO: spec/10_host_ports_pcie_cxl.md R314 -/
def PORT.PTM_HOST_LO.V : Fld := ⟨493, .PORT_PTM_HOST_LO, 0, 32, .ro, 0⟩
/-! PORT.PTM_HOST_HI: spec/10_host_ports_pcie_cxl.md R314 -/
def PORT.PTM_HOST_HI.V : Fld := ⟨494, .PORT_PTM_HOST_HI, 0, 32, .ro, 0⟩
/-! PORT.PTM_LOCAL_LO: spec/10_host_ports_pcie_cxl.md R314 -/
def PORT.PTM_LOCAL_LO.V : Fld := ⟨495, .PORT_PTM_LOCAL_LO, 0, 32, .ro, 0⟩
/-! PORT.PTM_LOCAL_HI: spec/10_host_ports_pcie_cxl.md R314 -/
def PORT.PTM_LOCAL_HI.V : Fld := ⟨496, .PORT_PTM_LOCAL_HI, 0, 32, .ro, 0⟩
/-! CNT.SNAP_TIME_LO: spec/14_counters_cairn.md R409 -/
def CNT.SNAP_TIME_LO.TIME : Fld := ⟨497, .CNT_SNAP_TIME_LO, 0, 32, .ro, 0⟩
/-! CNT.SNAP_TIME_HI: spec/14_counters_cairn.md R409 -/
def CNT.SNAP_TIME_HI.TIME : Fld := ⟨498, .CNT_SNAP_TIME_HI, 0, 32, .ro, 0⟩
/-! CAIRN.RD_DATA: spec/14_counters_cairn.md R419 -/
def CAIRN.RD_DATA.DATA : Fld := ⟨499, .CAIRN_RD_DATA, 0, 32, .ro, 0⟩

/-- The block a register belongs to (R471). -/
def Reg.blk : Reg → Blk
  | .DEV_CLK_STATUS => .DEV
  | .PORT_NOTCH_WORD_LO => .PORT
  | .PORT_NOTCH_WORD_HI => .PORT
  | .TILE_NOTCH_TBL_CMD => .TILE
  | .TILE_NOTCH_BANK => .TILE
  | .TILE_NOTCH_TRAP_RING => .TILE
  | .TILE_NOTCH_TRAP_CTL => .TILE
  | .TILE_NOTCH_RSLV_CMD => .TILE
  | .PLANE_CTL => .PLANE
  | .PLANE_STATUS => .PLANE
  | .PORT_EGR_CTL => .PORT
  | .PORT_EGR_WT_LO => .PORT
  | .SADDLE_TEN_WT_IDX => .SADDLE
  | .SADDLE_TEN_WT => .SADDLE
  | .TILE_VOQ_SHARE => .TILE
  | .TILE_VOQ_TEN_IDX => .TILE
  | .TILE_VOQ_TEN_MIN => .TILE
  | .TILE_VOQ_TEN_CAP => .TILE
  | .TILE_VOQ_TEN_USE => .TILE
  | .TILE_VOQ_STATUS => .TILE
  | .TILE_SCREE_CTL => .TILE
  | .TILE_SCREE_SHARE => .TILE
  | .TILE_SCREE_STATUS => .TILE
  | .SADDLE_MCG_CMD => .SADDLE
  | .TARN_PART => .TARN
  | .TARN_REGION_TOP => .TARN
  | .TARN_PORT_HOST => .TARN
  | .TARN_REMOTE_HOST => .TARN
  | .TARN_FLT_INFO => .TARN
  | .TARN_BI_CTL => .TARN
  | .TARN_RA_CTL => .TARN
  | .TARN_ECC_CTL => .TARN
  | .TARN_EVAC_STATUS => .TARN
  | .SPUR_TARN_APT => .SPUR
  | .SPUR_EVSEL => .SPUR
  | .SPUR_PWRDN => .SPUR
  | .SPUR_WDOG => .SPUR
  | .SPUR_HANDOVER => .SPUR
  | .FN_PF_VFS => .FN
  | .FN_VF_BIND => .FN
  | .CTX_STATUS => .CTX
  | .CTX_PORT_USE => .CTX
  | .CTX_TEN_IDX => .CTX
  | .CTX_TEN_CAP => .CTX
  | .CTX_TEN_USE => .CTX
  | .TRV_TEN_CFG => .TRV
  | .TRV_TEN_UNRECALLED => .TRV
  | .TRV_TEN_DISCARD_LATE => .TRV
  | .TRV_ENG_STATUS => .TRV
  | .FABRIC_ID => .FABRIC
  | .PORT_THX_CTL => .PORT
  | .PORT_THX_STATUS => .PORT
  | .FABRIC_ROUTE => .FABRIC
  | .FABRIC_ROUTE_CTL => .FABRIC
  | .FABRIC_DROP => .FABRIC
  | .FABRIC_PD_COUNT => .FABRIC
  | .FABRIC_SLOT_ROUTE => .FABRIC
  | .COL_CTL => .COL
  | .COL_TX_CTL => .COL
  | .COL_TX_STATUS => .COL
  | .COL_RX_CTL => .COL
  | .COL_RX_STATUS => .COL
  | .COL_LINK_CTL => .COL
  | .COL_LINK_STATUS => .COL
  | .FABRIC_TIME_CTL => .FABRIC
  | .FABRIC_TIME_STATUS => .FABRIC
  | .PORT_CPL_TO => .PORT
  | .CTN_RELEASE => .CTN
  | .PORT_CTN_CTL => .PORT
  | .PORT_CTN_STATUS => .PORT
  | .PORT_CTN_COUNT => .PORT
  | .CTN_TEN_CTL => .CTN
  | .CTN_TEN_STATUS => .CTN
  | .CTN_TILE_STATUS => .CTN
  | .CTN_LOG_CTL => .CTN
  | .CTN_LOG_STATUS => .CTN
  | .TILE_BIFUR => .TILE
  | .PORT_CFG => .PORT
  | .PORT_LINK_STATUS => .PORT
  | .VSW_VDSP_MAP => .VSW
  | .PORT_CFG_HOLD => .PORT
  | .IDMAP_ENTRY_LO => .IDMAP
  | .IDMAP_ENTRY_HI => .IDMAP
  | .IDMAP_CMD => .IDMAP
  | .PORT_REMAP_RID => .PORT
  | .PORT_TRV_RID => .PORT
  | .PORT_INTX_STATUS => .PORT
  | .LANE_TX_TAPS0 => .LANE
  | .LANE_TX_TAPS1 => .LANE
  | .LANE_MARGIN_CTL => .LANE
  | .LANE_MARGIN_RESULT => .LANE
  | .LANE_ADAPT_STATUS => .LANE
  | .TILE_REF_CTL => .TILE
  | .PORT_PHY_STATUS => .PORT
  | .LANE_CFG => .LANE
  | .LANE_PRBS_CTL => .LANE
  | .LANE_BITSLIP => .LANE
  | .LANE_EYE_CTL => .LANE
  | .SLOT_PWR_LIMIT => .SLOT
  | .SLOT_PWR_FOLD => .SLOT
  | .SLOT_PWR_TIMER => .SLOT
  | .SLOT_PWR_CTL => .SLOT
  | .SLOT_PWR_STATUS => .SLOT
  | .SLOT_WARN_SHED => .SLOT
  | .SBIN_CFG => .SBIN
  | .SBIN_CTL => .SBIN
  | .SBIN_STATUS => .SBIN
  | .SUMMIT_BOOT_STATUS => .SUMMIT
  | .SUMMIT_GRANT_STATUS => .SUMMIT
  | .SPUR_IMG_AREA => .SPUR
  | .CNT_IDX => .CNT
  | .CNT_SEL => .CNT
  | .CNT_QUAL => .CNT
  | .CNT_THR => .CNT
  | .CNT_VAL_LO => .CNT
  | .CNT_VAL_HI => .CNT
  | .CNT_SNAP_CTL => .CNT
  | .CNT_SNAP_STATUS => .CNT
  | .CNT_SNAP_LO => .CNT
  | .CNT_SNAP_HI => .CNT
  | .CNT_DUMP_CTL => .CNT
  | .CNT_DUMP_BASE => .CNT
  | .CNT_DUMP_RING => .CNT
  | .PORT_BW_CTL => .PORT
  | .CNT_BW_IDX => .CNT
  | .CNT_BW_VAL => .CNT
  | .CNT_BW_PEAK => .CNT
  | .CAIRN_CTL => .CAIRN
  | .CAIRN_TRIG => .CAIRN
  | .CAIRN_STATUS => .CAIRN
  | .CAIRN_COUNT => .CAIRN
  | .CAIRN_RD_IDX => .CAIRN
  | .BIST_BUDGET => .BIST
  | .BIST_STATUS => .BIST
  | .BIST_POWER => .BIST
  | .BIST_CE_ROW => .BIST
  | .BIST_REPAIR_STATUS => .BIST
  | .SUP_STATUS => .SUP
  | .SUP_FAULT => .SUP
  | .SUP_MEAS => .SUP
  | .DEV_RST_CTL => .DEV
  | .DEV_RST_STATUS => .DEV
  | .DEV_TEMP => .DEV
  | .TILE_LANE_SEL => .TILE
  | .COL_LANE_SEL => .COL
  | .VSW_IDX => .VSW
  | .TARN_REMOTE_IDX => .TARN
  | .FN_REFUSED => .FN
  | .TILE_NOTCH_TBL_KEY => .TILE
  | .TILE_NOTCH_TBL_DATA => .TILE
  | .TILE_NOTCH_RSLV_O0 => .TILE
  | .TILE_NOTCH_RSLV_O1 => .TILE
  | .TILE_NOTCH_RSLV_O2_LO => .TILE
  | .TILE_NOTCH_RSLV_O2_HI => .TILE
  | .TILE_NOTCH_RSLV_O3 => .TILE
  | .PORT_EGR_WT_HI => .PORT
  | .SADDLE_MCG_MAP => .SADDLE
  | .SADDLE_MCG_ATTR => .SADDLE
  | .SADDLE_MCG_DROP => .SADDLE
  | .TARN_FLT_ADDR_LO => .TARN
  | .TARN_FLT_ADDR_HI => .TARN
  | .TARN_FLT_COUNT => .TARN
  | .TARN_DESC_IDX => .TARN
  | .TARN_DESC_STAGE => .TARN
  | .TARN_DESC_READ => .TARN
  | .TARN_PC_FROZEN_LO => .TARN
  | .TARN_PC_FROZEN_HI => .TARN
  | .SPUR_DOORBELL => .SPUR
  | .SPUR_HANDOVER_PC_LO => .SPUR
  | .SPUR_HANDOVER_PC_HI => .SPUR
  | .SPUR_PORT_BASE_LO => .SPUR
  | .SPUR_PORT_BASE_HI => .SPUR
  | .TRV_TEN_IDX => .TRV
  | .CTN_TEN_IDX => .CTN
  | .MGR_PORTS => .MGR
  | .SUMMIT_MBX_RPLY_LO => .SUMMIT
  | .SUMMIT_MBX_RPLY_HI => .SUMMIT
  | .SUMMIT_DBG_CTL => .SUMMIT
  | .SUMMIT_DBG_NONCE_LO => .SUMMIT
  | .SUMMIT_DBG_NONCE_HI => .SUMMIT
  | .SUMMIT_DBG_TOKEN => .SUMMIT
  | .LANE_RX_EQ => .LANE
  | .LANE_DFE_TAPS => .LANE
  | .LANE_PRBS_ERR_LO => .LANE
  | .LANE_PRBS_BITS_LO => .LANE
  | .LANE_PRBS_ERR_HI => .LANE
  | .LANE_PRBS_BITS_HI => .LANE
  | .LANE_PRBS_USER_LO => .LANE
  | .LANE_PRBS_USER_HI => .LANE
  | .LANE_EYE_COUNT => .LANE
  | .SLOT_PWR_MEAS0 => .SLOT
  | .SLOT_PWR_MEAS1 => .SLOT
  | .PORT_PTM_HOST_LO => .PORT
  | .PORT_PTM_HOST_HI => .PORT
  | .PORT_PTM_LOCAL_LO => .PORT
  | .PORT_PTM_LOCAL_HI => .PORT
  | .CNT_SNAP_TIME_LO => .CNT
  | .CNT_SNAP_TIME_HI => .CNT
  | .CAIRN_RD_DATA => .CAIRN

/-- The fields of a register, in bit order. -/
def Reg.flds : Reg → List Fld
  | .DEV_CLK_STATUS => [DEV.CLK_STATUS.TILE_REF_OK, DEV.CLK_STATUS.ROOT_LOCK, DEV.CLK_STATUS.SUMMIT_ON_ROOT]
  | .PORT_NOTCH_WORD_LO => [PORT.NOTCH_WORD_LO.WORD]
  | .PORT_NOTCH_WORD_HI => [PORT.NOTCH_WORD_HI.WORD]
  | .TILE_NOTCH_TBL_CMD => [TILE.NOTCH_TBL_CMD.TABLE, TILE.NOTCH_TBL_CMD.OP, TILE.NOTCH_TBL_CMD.INDEX, TILE.NOTCH_TBL_CMD.GO, TILE.NOTCH_TBL_CMD.BUSY, TILE.NOTCH_TBL_CMD.STATUS]
  | .TILE_NOTCH_BANK => [TILE.NOTCH_BANK.ACTIVE, TILE.NOTCH_BANK.SWITCH, TILE.NOTCH_BANK.COMMIT, TILE.NOTCH_BANK.SHADOW_STATE, TILE.NOTCH_BANK.SWITCH_REFUSED, TILE.NOTCH_BANK.ERR_RULE, TILE.NOTCH_BANK.ERR_PROG, TILE.NOTCH_BANK.ERR_INDEX, TILE.NOTCH_BANK.SWITCH_COUNT]
  | .TILE_NOTCH_TRAP_RING => [TILE.NOTCH_TRAP_RING.BASE, TILE.NOTCH_TRAP_RING.SIZE]
  | .TILE_NOTCH_TRAP_CTL => [TILE.NOTCH_TRAP_CTL.ORDER, TILE.NOTCH_TRAP_CTL.TIMEOUT]
  | .TILE_NOTCH_RSLV_CMD => [TILE.NOTCH_RSLV_CMD.SEQ, TILE.NOTCH_RSLV_CMD.ACTION]
  | .PLANE_CTL => [PLANE.CTL.ISOLATE]
  | .PLANE_STATUS => [PLANE.STATUS.STATE, PLANE.STATUS.FAULT, PLANE.STATUS.ISOLATE_REFUSED, PLANE.STATUS.FAULT_CAUSE, PLANE.STATUS.RESENT]
  | .PORT_EGR_CTL => [PORT.EGR_CTL.STRICT, PORT.EGR_CTL.CUT_EN]
  | .PORT_EGR_WT_LO => [PORT.EGR_WT_LO.WT0, PORT.EGR_WT_LO.WT1, PORT.EGR_WT_LO.WT2, PORT.EGR_WT_LO.WT3]
  | .SADDLE_TEN_WT_IDX => [SADDLE.TEN_WT_IDX.TENANT]
  | .SADDLE_TEN_WT => [SADDLE.TEN_WT.WEIGHT]
  | .TILE_VOQ_SHARE => [TILE.VOQ_SHARE.MIN]
  | .TILE_VOQ_TEN_IDX => [TILE.VOQ_TEN_IDX.TENANT]
  | .TILE_VOQ_TEN_MIN => [TILE.VOQ_TEN_MIN.MIN]
  | .TILE_VOQ_TEN_CAP => [TILE.VOQ_TEN_CAP.CAP]
  | .TILE_VOQ_TEN_USE => [TILE.VOQ_TEN_USE.USED]
  | .TILE_VOQ_STATUS => [TILE.VOQ_STATUS.USED, TILE.VOQ_STATUS.MIN_REFUSED, TILE.VOQ_STATUS.SPILLING, TILE.VOQ_STATUS.WITHHOLD]
  | .TILE_SCREE_CTL => [TILE.SCREE_CTL.HIGH, TILE.SCREE_CTL.LOW]
  | .TILE_SCREE_SHARE => [TILE.SCREE_SHARE.SEGMENTS]
  | .TILE_SCREE_STATUS => [TILE.SCREE_STATUS.IN_USE, TILE.SCREE_STATUS.FULL]
  | .SADDLE_MCG_CMD => [SADDLE.MCG_CMD.GROUP, SADDLE.MCG_CMD.OP, SADDLE.MCG_CMD.GO, SADDLE.MCG_CMD.BUSY, SADDLE.MCG_CMD.STATUS]
  | .TARN_PART => [TARN.PART.SPARE, TARN.PART.SCREE_GIB, TARN.PART.LIVE]
  | .TARN_REGION_TOP => [TARN.REGION_TOP.GRANULES]
  | .TARN_PORT_HOST => [TARN.PORT_HOST.HOST_ID, TARN.PORT_HOST.VALID]
  | .TARN_REMOTE_HOST => [TARN.REMOTE_HOST.DEV, TARN.REMOTE_HOST.PORT, TARN.REMOTE_HOST.HOST_ID, TARN.REMOTE_HOST.VALID]
  | .TARN_FLT_INFO => [TARN.FLT_INFO.CAUSE, TARN.FLT_INFO.DESC, TARN.FLT_INFO.TENANT, TARN.FLT_INFO.HOST, TARN.FLT_INFO.VALID]
  | .TARN_BI_CTL => [TARN.BI_CTL.TIMEOUT]
  | .TARN_RA_CTL => [TARN.RA_CTL.DEPTH]
  | .TARN_ECC_CTL => [TARN.ECC_CTL.CE_LIMIT, TARN.ECC_CTL.SCRUB_HOURS]
  | .TARN_EVAC_STATUS => [TARN.EVAC_STATUS.STATE, TARN.EVAC_STATUS.PC, TARN.EVAC_STATUS.COUNT]
  | .SPUR_TARN_APT => [SPUR.TARN_APT.DESC, SPUR.TARN_APT.VALID, SPUR.TARN_APT.WRITE]
  | .SPUR_EVSEL => [SPUR.EVSEL.TILES, SPUR.EVSEL.DUMP, SPUR.EVSEL.SLOT, SPUR.EVSEL.LINK, SPUR.EVSEL.CONTAIN]
  | .SPUR_PWRDN => [SPUR.PWRDN.GRACE, SPUR.PWRDN.READY, SPUR.PWRDN.ACKED]
  | .SPUR_WDOG => [SPUR.WDOG.PERIOD, SPUR.WDOG.KICK]
  | .SPUR_HANDOVER => [SPUR.HANDOVER.FROM, SPUR.HANDOVER.REQUEST, SPUR.HANDOVER.YIELD, SPUR.HANDOVER.STATE, SPUR.HANDOVER.SPARE, SPUR.HANDOVER.FAILED]
  | .FN_PF_VFS => [FN.PF_VFS.TOTALVFS, FN.PF_VFS.BAR2_LOG2, FN.PF_VFS.PORT, FN.PF_VFS.VALID]
  | .FN_VF_BIND => [FN.VF_BIND.TENANT, FN.VF_BIND.BOUND, FN.VF_BIND.STATE]
  | .CTX_STATUS => [CTX.STATUS.SHARED_FREE, CTX.STATUS.QUARANTINED]
  | .CTX_PORT_USE => [CTX.PORT_USE.USED, CTX.PORT_USE.WAITING]
  | .CTX_TEN_IDX => [CTX.TEN_IDX.TENANT]
  | .CTX_TEN_CAP => [CTX.TEN_CAP.CAP]
  | .CTX_TEN_USE => [CTX.TEN_USE.USED, CTX.TEN_USE.PEAK]
  | .TRV_TEN_CFG => [TRV.TEN_CFG.WEIGHT]
  | .TRV_TEN_UNRECALLED => [TRV.TEN_UNRECALLED.COUNT]
  | .TRV_TEN_DISCARD_LATE => [TRV.TEN_DISCARD_LATE.COUNT]
  | .TRV_ENG_STATUS => [TRV.ENG_STATUS.FAULTED]
  | .FABRIC_ID => [FABRIC.ID.DEV, FABRIC.ID.FABRIC, FABRIC.ID.HOPS_INIT, FABRIC.ID.REFUSED]
  | .PORT_THX_CTL => [PORT.THX_CTL.THEOX, PORT.THX_CTL.RATE128, PORT.THX_CTL.SPARED, PORT.THX_CTL.ENABLE, PORT.THX_CTL.SPARE_THR, PORT.THX_CTL.SPARE_NOW, PORT.THX_CTL.SPARE_LANE]
  | .PORT_THX_STATUS => [PORT.THX_STATUS.STATE, PORT.THX_STATUS.RATE, PORT.THX_STATUS.WIDTH, PORT.THX_STATUS.SPARE_USED, PORT.THX_STATUS.SPARED_LANE, PORT.THX_STATUS.PEER_DEV, PORT.THX_STATUS.PEER_PORT, PORT.THX_STATUS.ID_FAULT]
  | .FABRIC_ROUTE => [FABRIC.ROUTE.P0, FABRIC.ROUTE.P1, FABRIC.ROUTE.P2, FABRIC.ROUTE.P3, FABRIC.ROUTE.N, FABRIC.ROUTE.VALID, FABRIC.ROUTE.DRAIN]
  | .FABRIC_ROUTE_CTL => [FABRIC.ROUTE_CTL.DRAIN_WAIT, FABRIC.ROUTE_CTL.DRAINING]
  | .FABRIC_DROP => [FABRIC.DROP.HOPS, FABRIC.DROP.NOROUTE]
  | .FABRIC_PD_COUNT => [FABRIC.PD_COUNT.SENT, FABRIC.PD_COUNT.RCVD]
  | .FABRIC_SLOT_ROUTE => [FABRIC.SLOT_ROUTE.DEV, FABRIC.SLOT_ROUTE.PORT, FABRIC.SLOT_ROUTE.CLASS, FABRIC.SLOT_ROUTE.VALID]
  | .COL_CTL => [COL.CTL.JOIN]
  | .COL_TX_CTL => [COL.TX_CTL.BASE, COL.TX_CTL.SIZE, COL.TX_CTL.TAIL]
  | .COL_TX_STATUS => [COL.TX_STATUS.HEAD]
  | .COL_RX_CTL => [COL.RX_CTL.BASE, COL.RX_CTL.SIZE, COL.RX_CTL.ROLE]
  | .COL_RX_STATUS => [COL.RX_STATUS.TAIL, COL.RX_STATUS.HEAD, COL.RX_STATUS.OVERFLOW]
  | .COL_LINK_CTL => [COL.LINK_CTL.PRESET, COL.LINK_CTL.ASYM]
  | .COL_LINK_STATUS => [COL.LINK_STATUS.STATE, COL.LINK_STATUS.DELAY, COL.LINK_STATUS.CRC_ERR]
  | .FABRIC_TIME_CTL => [FABRIC.TIME_CTL.ENABLE, FABRIC.TIME_CTL.MASTER, FABRIC.TIME_CTL.STEP, FABRIC.TIME_CTL.SOURCE, FABRIC.TIME_CTL.THX_PORT]
  | .FABRIC_TIME_STATUS => [FABRIC.TIME_STATUS.LOCKED, FABRIC.TIME_STATUS.HOLDOVER, FABRIC.TIME_STATUS.OFFSET_BIG, FABRIC.TIME_STATUS.OFFSET]
  | .PORT_CPL_TO => [PORT.CPL_TO.VALUE, PORT.CPL_TO.UNIT]
  | .CTN_RELEASE => [CTN.RELEASE.KIND, CTN.RELEASE.INDEX, CTN.RELEASE.GO, CTN.RELEASE.STATUS]
  | .PORT_CTN_CTL => [PORT.CTN_CTL.FREEZE, PORT.CTN_CTL.POISON_TRIG, PORT.CTN_CTL.CTO_TRIG]
  | .PORT_CTN_STATUS => [PORT.CTN_STATUS.FROZEN, PORT.CTN_STATUS.READY, PORT.CTN_STATUS.CAUSE, PORT.CTN_STATUS.SEEN]
  | .PORT_CTN_COUNT => [PORT.CTN_COUNT.UNEXP_CPL, PORT.CTN_COUNT.LATE_ENGINE]
  | .CTN_TEN_CTL => [CTN.TEN_CTL.FREEZE, CTN.TEN_CTL.REGION_TRIG, CTN.TEN_CTL.COLOUR_TRIG, CTN.TEN_CTL.CTX_TRIG, CTN.TEN_CTL.OVR_MS]
  | .CTN_TEN_STATUS => [CTN.TEN_STATUS.FROZEN, CTN.TEN_STATUS.CAUSE, CTN.TEN_STATUS.SEEN]
  | .CTN_TILE_STATUS => [CTN.TILE_STATUS.FROZEN, CTN.TILE_STATUS.CAUSE]
  | .CTN_LOG_CTL => [CTN.LOG_CTL.BASE, CTN.LOG_CTL.SIZE, CTN.LOG_CTL.ENABLE]
  | .CTN_LOG_STATUS => [CTN.LOG_STATUS.TAIL, CTN.LOG_STATUS.HEAD, CTN.LOG_STATUS.OVERFLOW]
  | .TILE_BIFUR => [TILE.BIFUR.MODE, TILE.BIFUR.REFUSED]
  | .PORT_CFG => [PORT.CFG.ROLE, PORT.CFG.CXL, PORT.CFG.MAXRATE, PORT.CFG.TRANSPARENT, PORT.CFG.L0P_EN, PORT.CFG.SLOT, PORT.CFG.SLOT_V, PORT.CFG.ENABLE, PORT.CFG.DS_SECBUS, PORT.CFG.REFUSED]
  | .PORT_LINK_STATUS => [PORT.LINK_STATUS.STATE, PORT.LINK_STATUS.RATE, PORT.LINK_STATUS.WIDTH, PORT.LINK_STATUS.FLIT, PORT.LINK_STATUS.CXL_ACTIVE, PORT.LINK_STATUS.DL_ACTIVE, PORT.LINK_STATUS.L0P_WIDTH, PORT.LINK_STATUS.CXL_FALLBACK]
  | .VSW_VDSP_MAP => [VSW.VDSP_MAP.PORT, VSW.VDSP_MAP.DEV, VSW.VDSP_MAP.VALID]
  | .PORT_CFG_HOLD => [PORT.CFG_HOLD.HOLD_US]
  | .IDMAP_ENTRY_LO => [IDMAP.ENTRY_LO.DS_ID, IDMAP.ENTRY_LO.DS_DEV, IDMAP.ENTRY_LO.DS_PORT, IDMAP.ENTRY_LO.VALID]
  | .IDMAP_ENTRY_HI => [IDMAP.ENTRY_HI.DOMAIN, IDMAP.ENTRY_HI.VDSP, IDMAP.ENTRY_HI.HFN, IDMAP.ENTRY_HI.INTX, IDMAP.ENTRY_HI.PIN]
  | .IDMAP_CMD => [IDMAP.CMD.INDEX, IDMAP.CMD.OP, IDMAP.CMD.GO, IDMAP.CMD.BUSY, IDMAP.CMD.STATUS]
  | .PORT_REMAP_RID => [PORT.REMAP_RID.RID]
  | .PORT_TRV_RID => [PORT.TRV_RID.RID]
  | .PORT_INTX_STATUS => [PORT.INTX_STATUS.WIRE]
  | .LANE_TX_TAPS0 => [LANE.TX_TAPS0.CM3, LANE.TX_TAPS0.CM2, LANE.TX_TAPS0.CM1, LANE.TX_TAPS0.C0]
  | .LANE_TX_TAPS1 => [LANE.TX_TAPS1.CP1, LANE.TX_TAPS1.CP2]
  | .LANE_MARGIN_CTL => [LANE.MARGIN_CTL.EYE_MIN_NRZ, LANE.MARGIN_CTL.EYE_MIN_PAM4, LANE.MARGIN_CTL.PERIOD, LANE.MARGIN_CTL.RERUN_EN]
  | .LANE_MARGIN_RESULT => [LANE.MARGIN_RESULT.HEIGHT, LANE.MARGIN_RESULT.WIDTH, LANE.MARGIN_RESULT.PASS, LANE.MARGIN_RESULT.RESUME, LANE.MARGIN_RESULT.AGE]
  | .LANE_ADAPT_STATUS => [LANE.ADAPT_STATUS.FROZEN, LANE.ADAPT_STATUS.EI, LANE.ADAPT_STATUS.DENSITY, LANE.ADAPT_STATUS.RX_POL_AUTO, LANE.ADAPT_STATUS.MARGIN_FAIL, LANE.ADAPT_STATUS.RERUNS, LANE.ADAPT_STATUS.CDR_LOL]
  | .TILE_REF_CTL => [TILE.REF_CTL.MODE]
  | .PORT_PHY_STATUS => [PORT.PHY_STATUS.REVERSED, PORT.PHY_STATUS.INDEP]
  | .LANE_CFG => [LANE.CFG.TX_INVERT, LANE.CFG.RX_INVERT, LANE.CFG.LOOP, LANE.CFG.TX_OVERRIDE, LANE.CFG.ADAPT_HOLD, LANE.CFG.REFUSED]
  | .LANE_PRBS_CTL => [LANE.PRBS_CTL.GEN_PAT, LANE.PRBS_CTL.GEN_EN, LANE.PRBS_CTL.CHK_PAT, LANE.PRBS_CTL.CHK_EN, LANE.PRBS_CTL.LOCK, LANE.PRBS_CTL.CLEAR, LANE.PRBS_CTL.INJECT, LANE.PRBS_CTL.LOSS]
  | .LANE_BITSLIP => [LANE.BITSLIP.COUNT]
  | .LANE_EYE_CTL => [LANE.EYE_CTL.T_OFF, LANE.EYE_CTL.V_OFF, LANE.EYE_CTL.EYE, LANE.EYE_CTL.DWELL, LANE.EYE_CTL.GO, LANE.EYE_CTL.BUSY, LANE.EYE_CTL.STATUS]
  | .SLOT_PWR_LIMIT => [SLOT.PWR_LIMIT.ILIM, SLOT.PWR_LIMIT.RSENSE]
  | .SLOT_PWR_FOLD => [SLOT.PWR_FOLD.LIMIT]
  | .SLOT_PWR_TIMER => [SLOT.PWR_TIMER.FAULT, SLOT.PWR_TIMER.RESTART]
  | .SLOT_PWR_CTL => [SLOT.PWR_CTL.ON, SLOT.PWR_CTL.AUTO_RETRY, SLOT.PWR_CTL.RETRY_MAX, SLOT.PWR_CTL.PRSNT_GATE, SLOT.PWR_CTL.PERST, SLOT.PWR_CTL.CLEAR]
  | .SLOT_PWR_STATUS => [SLOT.PWR_STATUS.STATE, SLOT.PWR_STATUS.PG, SLOT.PWR_STATUS.PRSNT_STABLE, SLOT.PWR_STATUS.RESTART_RUN, SLOT.PWR_STATUS.LATCHED, SLOT.PWR_STATUS.HARD_SHORT, SLOT.PWR_STATUS.FLT_TIMER, SLOT.PWR_STATUS.GATE_FAIL, SLOT.PWR_STATUS.FET_SHORT, SLOT.PWR_STATUS.SHED, SLOT.PWR_STATUS.ON_REFUSED, SLOT.PWR_STATUS.LIMIT_REFUSED, SLOT.PWR_STATUS.RETRIES]
  | .SLOT_WARN_SHED => [SLOT.WARN_SHED.MASK]
  | .SBIN_CFG => [SBIN.CFG.DEB_US, SBIN.CFG.STUCK, SBIN.CFG.STUCK_EN, SBIN.CFG.CHAT_EDGES, SBIN.CFG.CHAT_EN]
  | .SBIN_CTL => [SBIN.CTL.WIN_MS, SBIN.CTL.REARM]
  | .SBIN_STATUS => [SBIN.STATUS.LEVEL, SBIN.STATUS.RAW, SBIN.STATUS.MASKED, SBIN.STATUS.STUCK, SBIN.STATUS.CHATTER, SBIN.STATUS.EDGE, SBIN.STATUS.EDGES]
  | .SUMMIT_BOOT_STATUS => [SUMMIT.BOOT_STATUS.STAGE, SUMMIT.BOOT_STATUS.FAIL, SUMMIT.BOOT_STATUS.SUMMIT_SLOT, SUMMIT.BOOT_STATUS.POLICY_SLOT, SUMMIT.BOOT_STATUS.FOOTHILL_SLOT, SUMMIT.BOOT_STATUS.FALLBACK, SUMMIT.BOOT_STATUS.CAIRN_SAVING, SUMMIT.BOOT_STATUS.SUMMIT_SVN, SUMMIT.BOOT_STATUS.FOOTHILL_SVN]
  | .SUMMIT_GRANT_STATUS => [SUMMIT.GRANT_STATUS.ACTIVE, SUMMIT.GRANT_STATUS.SCOPE, SUMMIT.GRANT_STATUS.REFUSED, SUMMIT.GRANT_STATUS.REASON, SUMMIT.GRANT_STATUS.REMAIN]
  | .SPUR_IMG_AREA => [SPUR.IMG_AREA.AREA, SPUR.IMG_AREA.STATE_FMT]
  | .CNT_IDX => [CNT.IDX.K]
  | .CNT_SEL => [CNT.SEL.EVENT, CNT.SEL.MODE, CNT.SEL.EN, CNT.SEL.OVF, CNT.SEL.INST, CNT.SEL.INST_ALL]
  | .CNT_QUAL => [CNT.QUAL.CLASS_MASK, CNT.QUAL.SLOT_MASK, CNT.QUAL.TENANT, CNT.QUAL.TEN_EN]
  | .CNT_THR => [CNT.THR.VALUE]
  | .CNT_VAL_LO => [CNT.VAL_LO.COUNT]
  | .CNT_VAL_HI => [CNT.VAL_HI.COUNT]
  | .CNT_SNAP_CTL => [CNT.SNAP_CTL.GO, CNT.SNAP_CTL.RUN]
  | .CNT_SNAP_STATUS => [CNT.SNAP_STATUS.SEQ, CNT.SNAP_STATUS.PENDING, CNT.SNAP_STATUS.SKIPPED, CNT.SNAP_STATUS.OVERFLOW, CNT.SNAP_STATUS.DUMP_FAULT, CNT.SNAP_STATUS.DUMP_REFUSED, CNT.SNAP_STATUS.SEL_REFUSED]
  | .CNT_SNAP_LO => [CNT.SNAP_LO.COUNT]
  | .CNT_SNAP_HI => [CNT.SNAP_HI.COUNT]
  | .CNT_DUMP_CTL => [CNT.DUMP_CTL.PERIOD_US, CNT.DUMP_CTL.EN, CNT.DUMP_CTL.TARGET, CNT.DUMP_CTL.SIZE]
  | .CNT_DUMP_BASE => [CNT.DUMP_BASE.DESC, CNT.DUMP_BASE.BASE]
  | .CNT_DUMP_RING => [CNT.DUMP_RING.TAIL, CNT.DUMP_RING.HEAD]
  | .PORT_BW_CTL => [PORT.BW_CTL.WIN_US, PORT.BW_CTL.EN]
  | .CNT_BW_IDX => [CNT.BW_IDX.W]
  | .CNT_BW_VAL => [CNT.BW_VAL.VALUE]
  | .CNT_BW_PEAK => [CNT.BW_PEAK.PEAK]
  | .CAIRN_CTL => [CAIRN.CTL.FREEZE, CAIRN.CTL.ARM]
  | .CAIRN_TRIG => [CAIRN.TRIG.SYSRST, CAIRN.TRIG.PWRWARN, CAIRN.TRIG.TILE, CAIRN.TRIG.STACK, CAIRN.TRIG.NO_SPARE]
  | .CAIRN_STATUS => [CAIRN.STATUS.FROZEN, CAIRN.STATUS.WR_IDX, CAIRN.STATUS.CAUSE, CAIRN.STATUS.FREEZE_IDX]
  | .CAIRN_COUNT => [CAIRN.COUNT.DISCARDED, CAIRN.COUNT.TRIGGERS]
  | .CAIRN_RD_IDX => [CAIRN.RD_IDX.INDEX]
  | .BIST_BUDGET => [BIST.BUDGET.WATTS]
  | .BIST_STATUS => [BIST.STATUS.TILES, BIST.STATUS.PLANES, BIST.STATUS.CORES, BIST.STATUS.ENGINE]
  | .BIST_POWER => [BIST.POWER.RUNNING_W, BIST.POWER.WAITING]
  | .BIST_CE_ROW => [BIST.CE_ROW.LIMIT]
  | .BIST_REPAIR_STATUS => [BIST.REPAIR_STATUS.SOFT, BIST.REPAIR_STATUS.FUSED, BIST.REPAIR_STATUS.FULL]
  | .SUP_STATUS => [SUP.STATUS.IN_RANGE, SUP.STATUS.PWRDN, SUP.STATUS.PWR_OK]
  | .SUP_FAULT => [SUP.FAULT.UNDER, SUP.FAULT.OVER]
  | .SUP_MEAS => [SUP.MEAS.MV]
  | .DEV_RST_CTL => [DEV.RST_CTL.WARM, DEV.RST_CTL.KEY]
  | .DEV_RST_STATUS => [DEV.RST_STATUS.COLD_CAUSE, DEV.RST_STATUS.WARM_CAUSE, DEV.RST_STATUS.COLD_COUNT, DEV.RST_STATUS.WARM_COUNT, DEV.RST_STATUS.REFUSED]
  | .DEV_TEMP => [DEV.TEMP.DIE, DEV.TEMP.HBM, DEV.TEMP.DIE_PEAK, DEV.TEMP.HOT]
  | .TILE_LANE_SEL => [TILE.LANE_SEL.LANE]
  | .COL_LANE_SEL => [COL.LANE_SEL.LANE]
  | .VSW_IDX => [VSW.IDX.DOMAIN, VSW.IDX.VDSP]
  | .TARN_REMOTE_IDX => [TARN.REMOTE_IDX.INDEX]
  | .FN_REFUSED => [FN.REFUSED.COUNT]
  | .TILE_NOTCH_TBL_KEY => [TILE.NOTCH_TBL_KEY.KEY]
  | .TILE_NOTCH_TBL_DATA => [TILE.NOTCH_TBL_DATA.DATA]
  | .TILE_NOTCH_RSLV_O0 => [TILE.NOTCH_RSLV_O0.V]
  | .TILE_NOTCH_RSLV_O1 => [TILE.NOTCH_RSLV_O1.V]
  | .TILE_NOTCH_RSLV_O2_LO => [TILE.NOTCH_RSLV_O2_LO.V]
  | .TILE_NOTCH_RSLV_O2_HI => [TILE.NOTCH_RSLV_O2_HI.V]
  | .TILE_NOTCH_RSLV_O3 => [TILE.NOTCH_RSLV_O3.V]
  | .PORT_EGR_WT_HI => [PORT.EGR_WT_HI.WT4, PORT.EGR_WT_HI.WT5, PORT.EGR_WT_HI.WT6, PORT.EGR_WT_HI.WT7]
  | .SADDLE_MCG_MAP => [SADDLE.MCG_MAP.MAP]
  | .SADDLE_MCG_ATTR => [SADDLE.MCG_ATTR.VALID, SADDLE.MCG_ATTR.NO_REFLECT]
  | .SADDLE_MCG_DROP => [SADDLE.MCG_DROP.DROP]
  | .TARN_FLT_ADDR_LO => [TARN.FLT_ADDR_LO.ADDR]
  | .TARN_FLT_ADDR_HI => [TARN.FLT_ADDR_HI.ADDR]
  | .TARN_FLT_COUNT => [TARN.FLT_COUNT.COUNT]
  | .TARN_DESC_IDX => [TARN.DESC_IDX.INDEX]
  | .TARN_DESC_STAGE => [TARN.DESC_STAGE.W]
  | .TARN_DESC_READ => [TARN.DESC_READ.W]
  | .TARN_PC_FROZEN_LO => [TARN.PC_FROZEN_LO.MAP]
  | .TARN_PC_FROZEN_HI => [TARN.PC_FROZEN_HI.MAP]
  | .SPUR_DOORBELL => [SPUR.DOORBELL.RING]
  | .SPUR_HANDOVER_PC_LO => [SPUR.HANDOVER_PC_LO.PC]
  | .SPUR_HANDOVER_PC_HI => [SPUR.HANDOVER_PC_HI.PC]
  | .SPUR_PORT_BASE_LO => [SPUR.PORT_BASE_LO.RID]
  | .SPUR_PORT_BASE_HI => [SPUR.PORT_BASE_HI.BASE]
  | .TRV_TEN_IDX => [TRV.TEN_IDX.TENANT]
  | .CTN_TEN_IDX => [CTN.TEN_IDX.TENANT]
  | .MGR_PORTS => [MGR.PORTS.PORTS]
  | .SUMMIT_MBX_RPLY_LO => [SUMMIT.MBX_RPLY_LO.V]
  | .SUMMIT_MBX_RPLY_HI => [SUMMIT.MBX_RPLY_HI.V]
  | .SUMMIT_DBG_CTL => [SUMMIT.DBG_CTL.SUBMIT, SUMMIT.DBG_CTL.END]
  | .SUMMIT_DBG_NONCE_LO => [SUMMIT.DBG_NONCE_LO.V]
  | .SUMMIT_DBG_NONCE_HI => [SUMMIT.DBG_NONCE_HI.V]
  | .SUMMIT_DBG_TOKEN => [SUMMIT.DBG_TOKEN.V]
  | .LANE_RX_EQ => [LANE.RX_EQ.CTLE, LANE.RX_EQ.GAIN, LANE.RX_EQ.H1]
  | .LANE_DFE_TAPS => [LANE.DFE_TAPS.H]
  | .LANE_PRBS_ERR_LO => [LANE.PRBS_ERR_LO.V]
  | .LANE_PRBS_BITS_LO => [LANE.PRBS_BITS_LO.V]
  | .LANE_PRBS_ERR_HI => [LANE.PRBS_ERR_HI.V]
  | .LANE_PRBS_BITS_HI => [LANE.PRBS_BITS_HI.V]
  | .LANE_PRBS_USER_LO => [LANE.PRBS_USER_LO.V]
  | .LANE_PRBS_USER_HI => [LANE.PRBS_USER_HI.V]
  | .LANE_EYE_COUNT => [LANE.EYE_COUNT.COUNT]
  | .SLOT_PWR_MEAS0 => [SLOT.PWR_MEAS0.VIN, SLOT.PWR_MEAS0.SRC]
  | .SLOT_PWR_MEAS1 => [SLOT.PWR_MEAS1.SENSE, SLOT.PWR_MEAS1.VGS]
  | .PORT_PTM_HOST_LO => [PORT.PTM_HOST_LO.V]
  | .PORT_PTM_HOST_HI => [PORT.PTM_HOST_HI.V]
  | .PORT_PTM_LOCAL_LO => [PORT.PTM_LOCAL_LO.V]
  | .PORT_PTM_LOCAL_HI => [PORT.PTM_LOCAL_HI.V]
  | .CNT_SNAP_TIME_LO => [CNT.SNAP_TIME_LO.TIME]
  | .CNT_SNAP_TIME_HI => [CNT.SNAP_TIME_HI.TIME]
  | .CAIRN_RD_DATA => [CAIRN.RD_DATA.DATA]

/-- Field numbers of the island blocks (R471). -/
def islandNums : List Nat :=
  (List.range 3).map (· + 0) ++
  (List.range 28).map (· + 324) ++
  (List.range 42).map (· + 392) ++
  (List.range 8).map (· + 470) ++
  (List.range 1).map (· + 499)

end Sys2Proof.Machine
end

