-- ==== Sys2Proof/Machine/SMap.lean ====
section
/-! DEFINITION. Finite tables held as plain data: a list of (key, value) pairs, keys strictly rising, in which no value
equals the value an unlisted key reads as. Registers, memories and tables of the device are held so. -/

namespace Sys2Proof.Machine

/-- A table from numbers to values of `α`; `wf` says when it is in canonical form. -/
abbrev SMap (α : Type) := List (Nat × α)

namespace SMap

variable {α : Type}

/-- What key `k` reads as; `dflt` is what an unlisted key reads as. -/
def get (dflt : α) : SMap α → Nat → α
  | [], _ => dflt
  | (k', v) :: m, k => if k = k' then v else get dflt m k

/-- Takes key `k` off the list. -/
def del (k : Nat) : SMap α → SMap α
  | [] => []
  | (k', v) :: m => if k = k' then del k m else (k', v) :: del k m

/-- Puts key `k` at its place in the order, replacing what stood there. -/
def ins (k : Nat) (v : α) : SMap α → SMap α
  | [] => [(k, v)]
  | (k', v') :: m =>
    if k < k' then (k, v) :: (k', v') :: m
    else if k = k' then (k, v) :: m
    else (k', v') :: ins k v m

/-- Writes key `k`, keeping the canonical form: a value equal to the default is not listed. -/
def put [DecidableEq α] (dflt : α) (m : SMap α) (k : Nat) (v : α) : SMap α :=
  if v = dflt then del k m else ins k v m

/-- Applies `f` to the value at `k`. -/
def upd [DecidableEq α] (dflt : α) (m : SMap α) (k : Nat) (f : α → α) : SMap α :=
  put dflt m k (f (get dflt m k))

/-- Every listed key lies above `k`. -/
def above (k : Nat) : SMap α → Bool
  | [] => true
  | (k', _) :: m => decide (k < k') && above k m

/-- The canonical form: keys strictly rising and no listed value equal to the default. -/
def wf [DecidableEq α] (dflt : α) : SMap α → Bool
  | [] => true
  | (k, v) :: m => decide (v ≠ dflt) && above k m && wf dflt m

/-- Takes off every listed key for which `p` holds. -/
def drop (p : Nat → Bool) : SMap α → SMap α
  | [] => []
  | (k, v) :: m => if p k then drop p m else (k, v) :: drop p m

/-- The first listed key, in rising order, whose entry meets `p`. -/
def first (p : Nat → α → Bool) : SMap α → Option Nat
  | [] => none
  | (k, v) :: m => if p k v then some k else first p m

/-- The keys of the listed entries that meet `p`, rising. -/
def keys (p : Nat → α → Bool) : SMap α → List Nat
  | [] => []
  | (k, v) :: m => if p k v then k :: keys p m else keys p m

end SMap

end Sys2Proof.Machine
end

