-- ==== Sys2Proof/Machine/State.lean ====
section
/-! DEFINITION. The state of the device as plain data: everything the spec gives it, chapter by chapter, and the queue of
waiting commands. -/

namespace Sys2Proof.Machine

open Sys2Proof

/-- Why the machine stops. No command of the table ends in a fault: a refused access, a trap or an error is an effect on the
state that its rule describes. -/
inductive Fault where
  /-- Raised by nobody: the spec has no condition that stops the whole device without an effect. Safe. -/
  | none
  deriving DecidableEq, Repr

/-- Why a command has no meaning. -/
inductive Refusal where
  /-- Raised by `exec` for a command not modelled yet; the string is the row's mnemonic. Safe: the machine stops. -/
  | notModelled (mnemonic : String)
  deriving DecidableEq, Repr

/-! ### Spur cores (02_ridge_instruction_set, 06_spur_cores_memory_order) -/

/-- The flags of R29. -/
structure Flags where
  z : Bool := false
  n : Bool := false
  c : Bool := false
  v : Bool := false
  h : Bool := false
  x : Bool := false
  deriving DecidableEq, Repr

/-- Whether a core executes: held in reset, running, failed (R195), drained for power-down (R190), halted by the debug port
(R389). -/
inductive CoreMode where
  | held | running | failed | drained | halted
  deriving DecidableEq, Repr

/-- What a core stalls for: nothing, a DLWAIT time, a barrier, an LDIO, a device access behind four outstanding STIO (R54). -/
inductive CoreWait where
  | none
  | dlwait (t : Nat)
  | barDev
  | barFull
  | ldio
  deriving DecidableEq, Repr

/-- One entry of the store buffer (R178). -/
structure StoreEnt where
  addr : Nat
  size : Nat
  data : W64
  deriving DecidableEq, Repr

/-- What a performed load brings: a value, or the exception it ends in (code, detail). -/
inductive LoadResult where
  | value (v : W64)
  | fault (code detail : Nat)
  deriving DecidableEq, Repr

/-- An outstanding load in the response reorder buffer (R176). `arrived` when its response has come. -/
structure OutLoad where
  tag : Nat
  pc : W64
  rd : Nat
  /-- core address, for HADDR -/
  addr : Nat
  /-- where the bytes lie in the flat space -/
  flat : Nat
  /-- a load from Tarn, else from Spur memory (R182) -/
  tarn : Bool
  size : Nat
  signed : Bool
  result : Option LoadResult
  arrived : Bool
  deriving DecidableEq, Repr

/-- An STIO issued and not yet accepted (R54); `port` is none for a register. -/
structure OutStio where
  port : Option Nat
  addr : Nat
  size : Nat
  data : W64
  deriving DecidableEq, Repr

/-- The LDIO a core waits on (R52). -/
structure OutLdio where
  addr : Nat
  size : Nat
  rd : Nat
  pc : W64
  deriving DecidableEq, Repr

/-- A deadline (R57, R188): armed, pending after a miss, and its time-base value. -/
structure Deadline where
  armed : Bool := false
  pending : Bool := false
  value : W64 := 0
  deriving DecidableEq, Repr

/-- The state of a core that R193 moves between cores with its role, and the rest. -/
structure SpurCore where
  mode : CoreMode := .held
  /-- logical role 0 to 7, or 0xF for the spare (R59 CORE_ID) -/
  role : Nat := 15
  pc : W64 := 0
  g : SMap W64 := []
  flags : Flags := {}
  handler : Bool := false
  sflags : Flags := {}
  hcause : W64 := 0
  hpc : W64 := 0
  haddr : W64 := 0
  hvec : W64 := 0
  hsave : W64 := 0
  event : W64 := 0
  evmask : W64 := 0
  dfDiscard : Bool := false
  dfLate : Bool := false
  dfBarLate : Bool := false
  dfCount : Nat := 0
  dfLast : W32 := 0
  bpaddr : SMap W64 := []
  bpctl : BitVec 4 := 0
  dl : SMap Deadline := []
  /-- the 64-byte line of the reservation, by its address (R51) -/
  rsv : Option Nat := none
  sb : List StoreEnt := []
  loads : List OutLoad := []
  stios : List OutStio := []
  ldio : Option OutLdio := none
  /-- LDIO given up on under R52 or R193 whose responses are still to come -/
  lateLdio : Nat := 0
  wait : CoreWait := .none
  /-- HRETB: the breakpoint match of the next instruction is suppressed (R67) -/
  bpSkip : Bool := false
  /-- an outgoing handover waits to be taken (R65, R192) -/
  outgoing : Bool := false
  /-- its reload failed verification (R396): it is no spare -/
  unfit : Bool := false
  /-- time base of the last KICK (R191) -/
  kicked : Nat := 0
  deriving DecidableEq, Repr

/-- Spur complex: the nine cores and the handover in progress (R192 to R195). -/
structure SpurSt where
  cores : SMap SpurCore := []
  /-- core whose role is moving and whether it failed (R193) -/
  moving : Option (Nat × Bool) := none
  /-- 0 idle, 1 its YIELD is pending, 2 the role moves -/
  step : Nat := 0
  /-- the move makes no SRAM copy: the spare holds a new image (R395, R396) -/
  noCopy : Bool := false
  /-- words of the memories of the cores that hold an uncorrectable error (R178, R193), by flat address div 8 -/
  poison : SMap Bool := []
  /-- the power-down grace runs (R190) -/
  grace : Bool := false
  /-- STIO whose issuing core has been reset or has failed and that still go on to their targets (R189): core, access -/
  orphans : List (Nat × OutStio) := []
  /-- STIO accepted in the posted egress staging of their ports and not yet transmitted (R54) -/
  staged : List (Nat × OutStio) := []
  deriving DecidableEq, Repr

/-! ### Cairn (14_counters_cairn R412 to R421) -/

/-- A Cairn record (R413). -/
structure CairnRec where
  time : Nat
  src : Nat
  inst : Nat
  event : Nat
  freeze : Bool
  lost : Nat
  seq : Nat
  data0 : Nat
  data1 : Nat
  deriving DecidableEq, Repr

/-- The zero record: what an index never written reads as (R412). -/
def CairnRec.zero : CairnRec := ⟨0, 0, 0, 0, false, 0, 0, 0, 0⟩

/-- The records a source holds waiting, and how many it has dropped (R414). -/
structure CairnSrc where
  queue : List CairnRec := []
  lost : Nat := 0
  deriving DecidableEq, Repr

/-- The recorder. -/
structure CairnSt where
  ring : SMap CairnRec := []
  srcs : SMap CairnSrc := []
  seq : Nat := 0
  /-- records latched by RD_IDX, per master code (R419) -/
  latch : SMap CairnRec := []
  deriving DecidableEq, Repr

/-! ### Performance counters (14_counters_cairn R398 to R411) -/

/-- Counter values that no register field holds alone. -/
structure CntSt where
  /-- 48-bit counts by counter number (R398) -/
  count : SMap Nat := []
  /-- LO half staged by a write of VAL_LO, per master code (R402) -/
  staged : SMap Nat := []
  /-- value of the event in the cc before, for EDGE (R399) -/
  prev : SMap Nat := []
  /-- the two snapshot banks: bank × 2048 + counter (R405) -/
  snap : SMap Nat := []
  /-- bank of the latest completed snapshot -/
  bank : Nat := 0
  /-- snapshots taken since the last warm or cold reset (R408) -/
  seq : Nat := 0
  /-- strobes skipped since the previous entry written (R408) -/
  skipped : Nat := 0
  /-- the strobe asked for was asked by GO or RUN (R408 SW) -/
  sw : Bool := false
  /-- RUN value to apply at the pending strobe (R406) -/
  runNext : Option Bool := none
  /-- RUN as it applies now -/
  running : Bool := true
  /-- a dump entry is being written: its bank (R405, R409) -/
  dumping : Option Nat := none
  /-- the latest strobe's time base -/
  strobe : Nat := 0
  /-- DUMP_CTL values in use until the next period boundary (R407): period, enable, target, size -/
  dumpUse : Option (Nat × Bool × Bool × Nat) := none
  /-- bytes of the running bandwidth window, by window number (R410) -/
  bwBytes : SMap Nat := []
  /-- last completed value and peak, by window number (R411) -/
  bwVal : SMap Nat := []
  bwPeak : SMap Nat := []
  deriving DecidableEq, Repr

/-! ### Containment (09_containment_timeouts) -/

/-- A containment record (R279). -/
structure CtnRec where
  type : Nat
  kind : Nat
  index : Nat
  cause : Nat := 0
  froze : Bool := false
  count : Nat := 1
  time : Nat := 0
  addr : Nat := 0
  rid : Nat := 0
  tenant : Nat := 0
  port : Nat := 0
  dev : Nat := 0
  deriving DecidableEq, Repr

/-- The last record of a TYPE, KIND and INDEX and where it was written, for R280's coalescing. -/
structure CtnLast where
  rcd : CtnRec
  /-- offset in Spur memory of the device-log entry, if one was written -/
  logAt : Option Nat
  /-- host domains told and the host address of the entry -/
  hostAt : List (Nat × Nat)
  deriving DecidableEq, Repr

/-- The error ring of a PF (R281). -/
structure ErrRing where
  base : Nat := 0
  size : Nat := 4
  enable : Bool := false
  overflow : Bool := false
  tail : Nat := 0
  head : Nat := 0
  deriving DecidableEq, Repr

/-- Containment state beside the registers. -/
structure CtnSt where
  last : List CtnLast := []
  /-- error ring of the PF of each upstream port -/
  rings : SMap ErrRing := []
  /-- time of the last multicast advisory per group (R129), 1 + time base -/
  mcAdvised : SMap Nat := []
  /-- the link of a port has trained since its freeze (R277) -/
  trained : SMap Bool := []
  /-- reset of a tile since it froze: 0 none, 1 requested, 2 running, 3 ended, 4 held by a test (R21, R277) -/
  tileReset : SMap Nat := []
  deriving DecidableEq, Repr

/-! ### Notch pipelines (03_notch_programs) -/

/-- Where a Notch result lands (R46). -/
inductive LandTo where
  | g (n : Nat)
  | o (n : Nat)
  | zncv
  | hx
  deriving DecidableEq, Repr

/-- A result on its way: the stage in which it lands, where, and its value. -/
structure Land where
  stage : Nat
  dst : LandTo
  value : W64
  flags : Flags
  deriving DecidableEq, Repr

/-- A program in flight for one header (R80). -/
structure NRun where
  id : Nat
  pkt : Nat
  tile : Nat
  pipe : Nat
  bank : Nat
  prog : Nat
  /-- next instruction, 0 to 24 -/
  idx : Nat := 0
  g : SMap W64 := []
  h : SMap W64 := []
  o : SMap W64 := []
  flags : Flags := {}
  lands : List Land := []
  /-- the emit has been taken; slot 1 of its pair still executes (R45) -/
  emitted : Bool := false
  /-- first byte past the window of the first LKW with X = 1 on the path (R100) -/
  straddle : Option W64 := none
  /-- a lookup read an uncorrectable entry (R87) -/
  poisoned : Bool := false
  deriving DecidableEq, Repr

/-- An exact-match entry (R82). -/
structure ExactEnt where
  key : Nat
  data : W64
  valid : Bool
  poison : Bool
  deriving DecidableEq, Repr

def ExactEnt.zero : ExactEnt := ⟨0, 0, false, false⟩

/-- A range window (R83). -/
structure RangeEnt where
  base : Nat
  len : Nat
  tag : Nat
  data : W64
  valid : Bool
  poison : Bool
  deriving DecidableEq, Repr

def RangeEnt.zero : RangeEnt := ⟨0, 0, 0, 0, false, false⟩

/-- A tenant entry (R84). -/
structure TenEnt where
  data : W64
  valid : Bool
  poison : Bool
  deriving DecidableEq, Repr

def TenEnt.zero : TenEnt := ⟨0, false, false⟩

/-- The table command a tile runs (R85). -/
structure TblCmd where
  /-- status it will end with -/
  status : Nat
  /-- a second GO came while it ran -/
  second : Bool
  deriving DecidableEq, Repr

/-- An unresolved trap (R95 to R98). -/
structure Trap where
  tile : Nat
  /-- trap number n of the tile -/
  n : Nat
  pkt : Nat
  reason : Nat
  fn : Nat
  pipe : Nat
  time : Nat
  o0 : W64
  o1 : W64
  o4 : W64
  o5 : W64
  o6 : W64
  o7 : W64
  /-- its record is VALID in the ring -/
  valid : Bool
  deriving DecidableEq, Repr

/-- The tiles' decision side. -/
structure NotchSt where
  exact : SMap ExactEnt := []
  range : SMap RangeEnt := []
  tenant : SMap TenEnt := []
  /-- running table command per tile -/
  cmd : SMap (Option TblCmd) := []
  /-- program words: ((tile × 2 + bank) × 8 + program) × 32 + index (R479) -/
  prog : SMap Nat := []
  /-- selector words: (tile × 2 + bank) × 32 + word (R479) -/
  sel : SMap Nat := []
  /-- bank state per tile × 2 + bank: 0 UNCHECKED, 1 CHECKING, 2 COMMITTED, 3 REFUSED (R89) -/
  bankState : SMap Nat := []
  /-- ignored writes of the active bank, per tile (R89) -/
  ignored : SMap Nat := []
  /-- port words as applied (R79) -/
  portWord : SMap Nat := []
  runs : List NRun := []
  nextRun : Nat := 0
  /-- pipeline that takes the tile's next header -/
  nextPipe : SMap Nat := []
  traps : List Trap := []
  /-- trap number of the tile's next trap -/
  trapN : SMap Nat := []
  /-- refused resolves per tile (R97) -/
  rslvRefused : SMap Nat := []
  deriving DecidableEq, Repr

/-! ### Saddle (04_saddle_queues_ordering) -/

/-- An action as it is carried out: the emit's fn and operand words (R41). -/
structure Act where
  fn : Nat
  o0 : W64
  o1 : W64
  o2 : W64
  o3 : W64
  deriving DecidableEq, Repr

/-- Where a packet stands. -/
inductive Phase where
  /-- its header waits for a pipeline (R70) -/
  | waiting
  /-- in a pipeline -/
  | running
  /-- emitted; waits for a transfer context (R201) -/
  | ctxWait
  /-- emitted; in landing blocks, not admitted (R115) -/
  | landed
  /-- in its queue's SRAM -/
  | queued
  /-- in its queue's tail (R118) -/
  | tail
  /-- in Scree segment `seg` -/
  | scree (seg : Nat)
  /-- in segment `seg`, being read back (R120) -/
  | back (seg : Nat)
  /-- trapped (R96) -/
  | trapped
  /-- with the configuration responder of its port (R296) -/
  | cfg
  /-- a configuration write done and held until Foothill acknowledges (R298) -/
  | cfgHold
  deriving DecidableEq, Repr

/-- A cell granted: its plane, its sequence number, and whether the egress tile has acknowledged it (R102, R103). -/
structure Cell where
  plane : Nat
  seq : Nat
  acked : Bool
  deriving DecidableEq, Repr

/-- Where an emit sends a packet: its queue's destination. -/
inductive Dest where
  | none
  | port (p : Nat)
  | mgmt
  | traverse (queue : Nat)
  /-- pool port `p` of stack `s` is 8 × s + p (R11) -/
  | pool (port : Nat)
  | group (g : Nat)
  deriving DecidableEq, Repr

/-- The context a completion matched at extraction (R77). -/
structure CtxHit where
  index : Nat
  quarantined : Bool
  last : Bool
  /-- the context word as extracted -/
  word : W64
  /-- the kept tracking context (R242) -/
  trk : Option Nat
  deriving DecidableEq, Repr

/-- A packet in the device, from its arrival until its last block is freed. -/
structure Pkt where
  id : Nat
  /-- ingress port -/
  port : Nat
  frame : Frame
  /-- discarded at its emit: marked by the trigger of a freeze of its ingress port (R265) -/
  marked : Bool := false
  phase : Phase := .waiting
  act : Option Act := none
  dest : Dest := .none
  /-- the frame as forwarded, after the rewrites of R42, R77 and R202 -/
  fwd : Option Frame := none
  /-- it leaves in a Theox segment with this header (R239, R240) -/
  segHdr : Option Nat := none
  /-- it waits behind the hold of this device (R245) -/
  held : Option Nat := none
  ctx : Option CtxHit := none
  /-- a completion of a segment whose tracking context matches none: unexpected (R242) -/
  noTrk : Bool := false
  tenant : Nat := 0
  cls : Nat := 0
  /-- its blocks are charged to its tenant (R114) -/
  charged : Bool := false
  /-- its credits have gone back to the link partner (R114) -/
  credited : Bool := false
  /-- it takes cut-through (R132) -/
  cut : Bool := false
  cells : List Cell := []
  /-- must be sent again whole, on the queued path (R135) -/
  resend : Bool := false
  /-- a multicast cell has waited 256 cc and slots are reserved (R130) -/
  reserved : Bool := false
  /-- MAP bits and NO_REFLECT of the group as read with the first cell (R128) -/
  mcMap : Option (Nat × Bool) := none
  deriving DecidableEq, Repr

/-- A packet in the egress staging of a port (R109, R133): how many of its cells have come, and whether its transmission has
begun. -/
structure Staged where
  pkt : Pkt
  port : Nat
  have_ : Nat
  tx : Bool
  deriving DecidableEq, Repr

/-- A multicast group (R125). -/
structure Group where
  map : Nat
  valid : Bool
  noReflect : Bool
  drop : Nat
  poison : Bool
  deriving DecidableEq, Repr

def Group.zero : Group := ⟨0, false, false, 0, false⟩

/-- The crossbar and the queues. -/
structure SaddleSt where
  pkts : List Pkt := []
  staged : List Staged := []
  nextPkt : Nat := 0
  /-- next sequence number per (ingress tile, egress port, class) (R102) -/
  seq : SMap Nat := []
  groups : SMap Group := []
  mcgCmd : Option TblCmd := none
  nextSeg : Nat := 0
  /-- credits the link partner has given and not yet used: headers at 2 × (port × 3 + sub-queue), data of 16 bytes at one more
  (R109, R289); on a Theox port blocks, at port × 32 + pool (R231) -/
  credit : SMap Nat := []
  thxCredit : SMap Nat := []
  /-- tiles that spill now (R118) -/
  spilling : SMap Bool := []
  deriving DecidableEq, Repr

/-! ### Transfer contexts and Traverse (07_tenants_functions_traverse) -/

/-- Who uses a transfer context (R199). -/
inductive CtxUser where
  | queue | remap | tunnel | engine
  deriving DecidableEq, Repr

/-- A transfer context (R199, R202): free contexts are not listed. -/
structure CtxEnt where
  user : CtxUser
  tenant : Nat
  /-- port charged -/
  port : Nat
  /-- port and tag the request left with -/
  egress : Nat
  tag : Nat
  origTag : Nat
  origRid : Nat
  origDev : Nat
  origPort : Nat
  srcHost : Bool
  /-- tracking context of the device before (R242) -/
  trk : Option Nat
  /-- bytes its request is still owed -/
  owed : Nat
  quarantined : Bool
  /-- granted from its port's guarantee (R200) -/
  guar : Bool
  deriving DecidableEq, Repr

/-- A peer window of a queue (R207). -/
structure PeerWin where
  base : Nat
  len : Nat
  prefetchable : Bool
  port : Nat
  deriving DecidableEq, Repr

/-- An engine read (R204, R213): which entry of the reorder buffer, through which port (none: Tarn), where in the segment. -/
structure EngRead where
  entry : Nat
  port : Option Nat
  /-- of the destination, for COMPARE -/
  ofDst : Bool
  off : Nat
  len : Nat
  data : Option (List Byte)
  ctx : Option Nat
  discard : Bool
  deriving DecidableEq, Repr

/-- An engine read whose transfer has ended: its completion is still to come (R213): engine × 256 + entry, its narrow-tag context, its
port. -/
structure LateRead where
  key : Nat
  ctx : Option Nat
  port : Option Nat
  deriving DecidableEq, Repr

/-- A transfer an engine executes (R204, R210). -/
structure Xfer where
  engine : Nat
  index : Nat
  /-- the eight words of the descriptor -/
  words : List Nat
  /-- bytes of whole segments completed -/
  done : Nat
  reads : List EngRead
  nextEntry : Nat
  /-- status it has ended with, none while it runs (R212) -/
  status : Option Nat
  errAddr : Nat
  /-- the flush read is out -/
  flushing : Bool
  deriving DecidableEq, Repr

/-- A Traverse queue (R209) and its running transfer. -/
structure Queue where
  base : Nat := 0
  size : Nat := 4
  enable : Bool := false
  tail : Nat := 0
  head : Nat := 0
  st : Nat := 0
  cause : Nat := 0
  stopIndex : Nat := 0
  wins : List PeerWin := []
  descs : List Nat := []
  ctx : Option Nat := none
  /-- PHASE of the ring's pass: number of wraps -/
  wraps : Nat := 0
  /-- a drain or an FLR refuses new descriptors -/
  holdNew : Bool := false
  xfer : Option Xfer := none
  deriving DecidableEq, Repr

/-- Function state a host writes (R197, R218, R219). -/
structure FnSt where
  bme : Bool := false
  vfEnable : Bool := false
  numVfs : Nat := 0
  /-- an FLR is in progress, and whether its work has been quiesced -/
  flr : Bool := false
  deriving DecidableEq, Repr

/-- A quiesce in progress (R216). -/
structure Quiesce where
  /-- tenant, or 512 + VF -/
  target : Nat
  cancel : Bool
  /-- who asked: manager page of a port, 128 the board management controller, 129 Foothill itself -/
  source : Nat
  seq : Nat
  /-- time base of the deadline -/
  deadline : Nat
  deriving DecidableEq, Repr

/-- A tenant as the manager made it (R214). -/
structure Tenant where
  exists_ : Bool := false
  domain : Nat := 0
  /-- 0 normal, 1 quiescing, 2 quiesced -/
  st : Nat := 0
  deriving DecidableEq, Repr

/-- The manager page of a PF (R214). -/
structure MgrPage where
  cmd : List Nat := []
  resp0 : Nat := 0
  resp1 : Nat := 0
  /-- what QUERY returned: state, VFs, descriptors, queues, contexts; R214 gives their packing in the result no layout -/
  query : List Nat := []
  busy : Bool := false
  /-- the command is being carried out; its response comes later -/
  taken : Bool := false
  evBase : Nat := 0
  evSize : Nat := 0
  overflow : Bool := false
  tail : Nat := 0
  head : Nat := 0
  ignored : Nat := 0
  deriving DecidableEq, Repr

/-- Contexts, queues, functions, tenants and the manager. -/
structure TrvSt where
  ctx : SMap (Option CtxEnt) := []
  /-- free contexts in the guarantee of a port, and whether the port has one (R200) -/
  guarFree : SMap Nat := []
  guarOn : SMap Bool := []
  /-- tag bits the port has negotiated: 14, 10 or 8 -/
  tagBits : SMap Nat := []
  queues : SMap Queue := []
  /-- function state: PF of port p at p, VF v at 128 + v -/
  fns : SMap FnSt := []
  tenants : SMap Tenant := []
  quiesces : List Quiesce := []
  late : List LateRead := []
  /-- writes issued by the running transfer of a queue (R217) -/
  issued : SMap Nat := []
  mgr : SMap MgrPage := []
  deriving DecidableEq, Repr

/-! ### Fabric mode, Col ring (08_fabric_mode_col_ring) -/

/-- Posted discards of one origin and tenant being coalesced (R249). -/
structure PdKey where
  dev : Nat
  port : Nat
  tenant : Nat
  sentAt : Nat
  count : Nat
  addr : Nat
  rid : Nat
  reason : Nat
  dport : Nat
  deriving DecidableEq, Repr

/-- A packet's flits on a Theox link that the partner has not acknowledged (R230, R245): the last of their sequence numbers, their
number, the device the segment is bound for. -/
structure Flight where
  last : Nat
  flits : Nat
  dev : Nat
  deriving DecidableEq, Repr

/-- The link layer of a port: its replay buffer (R230, on a PCI Express port by TLP), and the rest of R233 and R236 on a Theox port. -/
structure ThxSt where
  /-- sequence number of the next flit to send, of the next to receive -/
  tx : Nat := 0
  rx : Nat := 0
  flight : List Flight := []
  /-- the flit last NAKed and how often in a row; times of the replays -/
  nakSeq : Nat := 0
  naks : Nat := 0
  replays : List Nat := []
  /-- bytes still to come of a frame that continues in the next payload flit; its frame word broke the rule -/
  rest : Nat := 0
  restBad : Bool := false
  /-- symbols corrected per lane since a time (R236) -/
  corr : SMap Nat := []
  corrAt : Nat := 0
  /-- spared mode runs (R224) -/
  spared : Bool := false
  /-- the partner supports 128 GT/s -/
  peer128 : Bool := false
  /-- a lane being spared at the receiver, at the transmitter, plus 1 -/
  sparing : Nat := 0
  driving : Nat := 0
  deriving DecidableEq, Repr

/-- Fabric state. -/
structure FabSt where
  pd : List PdKey := []
  /-- holds of R245: device → time base of its route write + 1 -/
  holds : SMap Nat := []
  thx : SMap ThxSt := []
  /-- frames discarded by the Theox receiver: stomped, and with a bad KIND or length (R233, R234) -/
  stomped : Nat := 0
  badFrames : Nat := 0
  /-- Col messages of a reserved type (R255) -/
  colReserved : Nat := 0
  /-- the count has been set at the first ENABLE; a set waits for the source's time (R260) -/
  timeSet : Bool := false
  stepDue : Bool := false
  /-- what the servo has moved the time base by and the count does not show yet, in ps; ticks that the count holds -/
  phase : Int := 0
  holdTicks : Nat := 0
  deriving DecidableEq, Repr

/-! ### Host ports (10_host_ports_pcie_cxl) -/

/-- A source asserting a virtual INTx wire of an upstream port (R304): behind which downstream port (device × 128 + port), which source
(vDSP × 65,536 + 4,096 × 4 for the PF, + 4,096 × 5 + the received wire of a transparent port, + the ID map index else). -/
structure IntxSrc where
  up : Nat
  wire : Nat
  down : Nat
  src : Nat
  deriving DecidableEq, Repr

/-- A virtual downstream port of a host domain (R293, R303, R308, R309). -/
structure Vdsp where
  dpcEnable : Bool := false
  dpcTrig : Bool := false
  dpcReason : Nat := 0
  dpcExt : Nat := 0
  linkDisable : Bool := false
  /-- host's view of the link is held down (shared mode) -/
  viewDown : Bool := false
  cmdCompleted : Bool := false
  powerOff : Bool := false
  attnInd : Nat := 0
  powerInd : Nat := 0
  pdState : Bool := false
  pdChanged : Bool := false
  dllChanged : Bool := false
  powerFault : Bool := false
  attention : Bool := false
  /-- time base + 1 at which Power Controller Control was written and Command Completed is still owed -/
  pccAt : Nat := 0
  deriving DecidableEq, Repr

/-- An entry of IDMAP (R301), with the INTx wire its function asserts. -/
structure IdEnt where
  dsId : Nat := 0
  dsDev : Nat := 0
  dsPort : Nat := 0
  valid : Bool := false
  domain : Nat := 0
  vdsp : Nat := 0
  hfn : Nat := 0
  intx : Bool := false
  pin : Nat := 0
  deriving DecidableEq, Repr

/-- An HDM decoder of a PF (R317). -/
structure Hdm where
  base : Nat := 0
  size : Nat := 0
  skip : Nat := 0
  committed : Bool := false
  error : Bool := false
  deriving DecidableEq, Repr

/-- Host side of the ports. -/
structure HostSt where
  intx : List IntxSrc := []
  /-- by domain × 32 + k -/
  vdsp : SMap Vdsp := []
  /-- Max_Payload_Size in bytes by port (R290); 128 until the host or Foothill sets it -/
  mps : SMap Nat := []
  idmap : SMap IdEnt := []
  idCmd : Option TblCmd := none
  /-- frames discarded for want of an ID map entry (R301) -/
  idDrop : Nat := 0
  /-- HDM decoders by port × 8 + decoder; return code of the last memory device mailbox command by port, plus 1 (R318) -/
  hdm : SMap Hdm := []
  cxlMbx : SMap Nat := []
  /-- CLKREQ_N is deasserted; the link is in a substate of L1 (R288) -/
  clkreq : SMap Bool := []
  l1sub : SMap Bool := []
  /-- last LTR requirement of the endpoint behind a port (R288): snoop latency + 65,536 × no-snoop latency, plus 1 -/
  ltr : SMap Nat := []
  /-- IDE streams in the Insecure state, by port × 256 + stream (R311) -/
  insecure : SMap Bool := []
  /-- words of configuration space as written, by (port × 1,024 + function) × 1,024 + doubleword (see Cfg) -/
  cfg : SMap Nat := []
  deriving DecidableEq, Repr

/-! ### Tarn (05_tarn_memory_pool) -/

/-- A region descriptor (R144) with its EJECTED field (R156). -/
structure Desc where
  hbase : Nat
  pbase : Nat
  subLog2 : Nat
  mask : Nat
  tenant : Nat
  key : Nat
  read : Bool
  write : Bool
  shared : Bool
  readahead : Bool
  valid : Bool
  locked : Bool
  hosts : Nat
  ejected : Nat
  deriving DecidableEq, Repr

def Desc.zero : Desc := ⟨0, 0, 0, 0, 0, 0, false, false, false, false, false, false, 0, 0⟩

/-- An entry of the ownership map (R145): unowned and CLEAN after cold boot (R149). -/
structure Own where
  owner : Nat := 0
  owned : Bool := false
  tenant : Nat := 0
  clean : Bool := true
  deriving DecidableEq, Repr

/-- Directory state of a line (R152); `hosts` are the sharers, or the one owner. -/
inductive DirSt where
  | i | s | e | so
  deriving DecidableEq, Repr

structure DirEnt where
  st : DirSt := .i
  hosts : List Nat := []
  deriving DecidableEq, Repr

/-- What an access does to a line's directory state (R153). -/
inductive TarnOp where
  /-- a read that leaves the requester not caching -/
  | read
  /-- M2S Req with MetaValue S, with MetaValue A -/
  | readS
  | readA
  /-- a write that is not an RwD -/
  | write
  | atomic
  /-- RwD with MetaValue I, S, A -/
  | rwdI
  | rwdS
  | rwdA
  /-- MemClnEvct -/
  | clean
  deriving DecidableEq, Repr

/-- Where a pool access stands. -/
inductive TarnPhase where
  /-- at its pool port, not checked -/
  | arrived
  /-- checked; waits for a tracker or behind one (R155) -/
  | waiting
  /-- checked; its trackers are open -/
  | tracked
  /-- scheduled: to be performed -/
  | sched
  deriving DecidableEq, Repr

/-- A pool access (R142 to R148): descriptor, key, access and pool address of the first byte, length. -/
structure TarnReq where
  pkt : Pkt
  op : TarnOp
  desc : Nat
  key : Nat
  host : Option Nat
  addr : Nat
  len : Nat
  pool : Nat
  phase : TarnPhase
  deriving DecidableEq, Repr

/-- Who a tracker is held for (R155, R157): a pool access by its packet, an access of a core or an engine, a sweep. -/
inductive TrackFor where
  | req (pkt : Nat)
  | device
  | sweep
  deriving DecidableEq, Repr

/-- A home tracker (R155): its tag, its line, the hosts whose BIRsp is outstanding, BISnpInv or BISnpData. -/
structure Tracker where
  tag : Nat
  line : Nat
  desc : Nat
  pending : List Nat
  inv : Bool
  owner : TrackFor
  deriving DecidableEq, Repr

/-- A line in the readahead buffer (R160). -/
structure RaLine where
  host : Nat
  desc : Nat
  line : Nat
  deriving DecidableEq, Repr

/-- A commit accepted and not yet at its commit point (R146, R157): who asked (a mailbox, or 1,000 + a manager source), the index,
the new descriptor, the lines in SO that its sweep has dealt with. -/
structure CommitRun where
  box : Nat
  index : Nat
  desc : Desc
  swept : List Nat
  deriving DecidableEq, Repr

/-- A recolour in progress (R150). -/
structure RecolourRun where
  box : Nat
  first : Nat
  count : Nat
  colour : Nat
  zero : Bool
  deriving DecidableEq, Repr

/-- The pool beside its registers and its data bytes, which lie in `mem`. -/
structure TarnSt where
  descs : SMap Desc := []
  own : SMap Own := []
  /-- colour by granule: a recolour covers whole granules (R150) -/
  colour : SMap Nat := []
  /-- directory by line -/
  dir : SMap DirEnt := []
  /-- poisoned data lines; blocks whose metadata line is uncorrectable (R163) -/
  poison : SMap Bool := []
  metaBad : SMap Bool := []
  /-- CE_COUNT by block (R139) -/
  ce : SMap Nat := []
  reqs : List TarnReq := []
  trackers : List Tracker := []
  nextTag : Nat := 0
  /-- late BIRsp discarded (R156) -/
  lateBirsp : Nat := 0
  ra : List RaLine := []
  /-- streams: host, descriptor, last line read -/
  streams : List RaLine := []
  /-- blocks queued for retirement with their cause (R165); the remap table, block to spare of its pseudo-channel + 1; spares used by
  pseudo-channel -/
  retireQ : List (Nat × Nat) := []
  remap : SMap Nat := []
  spares : SMap Nat := []
  /-- times of uncorrectable errors by pseudo-channel: g, time (R166) -/
  ueTimes : List (Nat × Nat) := []
  stackFrozen : SMap Bool := []
  /-- evacuated pseudo-channels; the one being copied, with its mailbox (R167) -/
  evacuated : List Nat := []
  evac : Option (Nat × Nat) := none
  commit : Option CommitRun := none
  recolour : Option RecolourRun := none
  /-- stacks whose controller refreshes at twice the rate (R468) -/
  refresh2 : BitVec 4 := 0
  deriving DecidableEq, Repr

/-! ### Summit and Foothill (13_summit_foothill_boot) -/

/-- A mailbox of a role (R381, R382): full from its post until its reply is consumed. -/
structure Mbx where
  full : Bool := false
  word : W64 := 0
  reply : Option Nat := none
  deriving DecidableEq, Repr

/-- A segment of an image (R371): target 0 instruction SRAM, 1 data SRAM, 2 Spur memory. -/
structure Seg where
  target : Nat
  dest : Nat
  data : List Byte
  deriving DecidableEq, Repr

/-- An image as a flash slot holds it (R371). What R372 checks by cryptography and against the fuses is not computed
here: the verdicts come from Config when the image is read. -/
structure Image where
  type : Nat
  svn : Nat
  stateVer : Nat
  stateMin : Nat
  /-- MAGIC, HDR_VER, reserved bytes and BODY_LEN are as stated -/
  formOk : Bool
  /-- the hash of PUBKEY is that of an unrevoked fuse key slot -/
  keyOk : Bool
  sigOk : Bool
  hashOk : Bool
  segs : List Seg
  deriving DecidableEq, Repr

/-- The policy in force (R374). -/
structure Policy where
  mgrPorts : Nat
  ideReqPorts : Nat
  i3cMgr : Bool
  i3cFlash : Bool
  debugScopes : Nat
  allow : List (Nat × Nat)
  deriving DecidableEq, Repr

/-- A save of the Cairn in flash (R370, R421). -/
structure CairnSave where
  seq : Nat
  ring : SMap CairnRec
  deriving DecidableEq, Repr

/-- An active debug grant (R389 to R391): scopes, and the locked descriptors it names. -/
structure Grant where
  scope : Nat
  locked : List Nat
  /-- time base at which DURATION runs out -/
  ends : Nat
  deriving DecidableEq, Repr

/-- A FW_ACTIVATE in progress (R395): the mailbox that asked, the slot, the roles moved, and what it waits for. -/
structure FwAct where
  box : Nat
  slot : Nat
  moved : Nat
  /-- image area of the new image -/
  area : Nat
  /-- a core failed or a reload did: the update ends ABORTED (R396) -/
  aborted : Bool
  /-- the freed core is being reloaded -/
  reloading : Option Nat
  deriving DecidableEq, Repr

/-- A slot being programmed (R380, R394): the slot, the bytes it takes, whether FW_STAGE asked for it. -/
structure Staging where
  slot : Nat
  image : Image
  byMailbox : Bool
  deriving DecidableEq, Repr

/-- A command in a queue of R384: its mailbox (role × 4 + m), its posted word, whether its reply is still wanted. -/
structure QCmd where
  box : Nat
  word : W64
  wanted : Bool
  deriving DecidableEq, Repr

/-- The island's firmware side. -/
structure SummitSt where
  /-- mailboxes by role × 4 + m -/
  mbx : SMap Mbx := []
  /-- commands in the state queue and in the flash queue, oldest first (R384) -/
  stateQ : List QCmd := []
  flashQ : List QCmd := []
  /-- the head of the state queue, of the flash queue, is being carried out -/
  stateRun : Bool := false
  flashRun : Bool := false
  /-- flash slots (R370): Summit A 0, B 1; policy A 2, B 3; Foothill A 4, B 5 -/
  flash : SMap (Option Image) := []
  /-- word 0 of the directory (R370) -/
  dir : Nat := 0
  saves : SMap (Option CairnSave) := []
  /-- save that a copy of the Cairn is being written to -/
  saving : Option Nat := none
  /-- blown security-version bits by TYPE (R373) -/
  fuseSvn : SMap Nat := []
  policy : Option Policy := none
  /-- STATE_VER of the running Foothill image; SVN of the running images by TYPE (R373) -/
  stateVer : Nat := 0
  svnRun : SMap Nat := []
  /-- quiesce timers (R386): tenant n at n, VF v at 512 + v; time base of the deadline + 10 ms -/
  timers : SMap Nat := []
  /-- region lock keys by descriptor, plus 1 (R387) -/
  lockKeys : SMap Nat := []
  /-- IDE keys: (port × 2 + direction) × 2 + set, plus 1 (R387) -/
  ideKeys : SMap Nat := []
  grant : Option Grant := none
  /-- cores the debugger halted -/
  halted : List Nat := []
  /-- cores that execute one instruction for the debugger (R389) -/
  stepping : List Nat := []
  /-- denied debug requests (R389) -/
  denied : Nat := 0
  /-- a scan shift has taken place (R392) -/
  scanned : Bool := false
  fw : Option FwAct := none
  staging : Option Staging := none
  /-- the Tarn initialisation of R149 runs (R376) -/
  tarnInit : Bool := false
  /-- a power-down runs (R450, R451) -/
  pdRun : Bool := false
  /-- the deassertion came before the powered-down state (R452) -/
  pdEnd : Bool := false
  deriving DecidableEq, Repr

/-! ### Serial lanes (11_serdes_lanes) -/

/-- What a lane holds beside its registers. -/
structure LaneSt where
  /-- TX_TAPS0 as staged (R324), its reset value C0 = 64 -/
  staged : Nat := 1073741824
  /-- UI that BITSLIP has moved the word boundary (R340) -/
  slip : Nat := 0
  /-- data has resumed and its check has not begun (R330); a resume check, a periodic check runs or is paused -/
  resumeDue : Bool := false
  resuming : Bool := false
  periodic : Bool := false
  /-- time base of the end of the last check, plus 1 (R330 AGE), of the last periodic check's start -/
  checkedAt : Nat := 0
  /-- host margining: type and payload of the command in force, type 7 for none (R334) -/
  marginType : Nat := 7
  marginArg : Nat := 0
  /-- PRBS_USER_LO as staged (R478) -/
  user : Nat := 0
  deriving DecidableEq, Repr

/-- The lanes, and the time base of a port's last re-run, plus 1 (R331): Col port k at 128 + k. -/
structure LanesSt where
  lanes : SMap LaneSt := []
  reran : SMap Nat := []
  deriving DecidableEq, Repr

/-! ### Slot power channels and sideband inputs (12_slot_power_sideband) -/

/-- What the channels hold beside their registers. -/
structure SlotSt where
  /-- SLOT_PERST_N is deasserted (R352) -/
  released : SMap Bool := []
  /-- time base at which power-good asserted, plus 1 -/
  pgAt : SMap Nat := []
  /-- the 2 A sink is on (R353, R355) -/
  strong : SMap Bool := []
  /-- the next ramp is a retry (R354) -/
  retry : SMap Bool := []
  deriving DecidableEq, Repr

/-! ### Self-test and repair (15_bist_service_repair) -/

/-- A test requested by BIST_START (R426): its kind and target, its parts, the mailbox and SEQ that asked, the Spur memory offset
of its result block. -/
structure BTest where
  kind : Nat
  index : Nat
  mask : Nat
  box : Nat
  seq : Nat
  ptr : Nat
  deriving DecidableEq, Repr

/-- A row of a memory instance (R429). -/
structure MemRow where
  inst : Nat
  row : Nat
  deriving DecidableEq, Repr

/-- A soft repair asked for and not yet made (R432): the row, and the mailbox and SEQ that wait for it. -/
structure RepairReq where
  row : MemRow
  box : Option (Nat × Nat)
  deriving DecidableEq, Repr

/-- Tests and repairs. -/
structure BistSt where
  /-- tests that run, and requests that wait, in arrival order -/
  running : List BTest := []
  waiting : List BTest := []
  /-- last test by kind × 256 + index: 0 none since the last failure of the target, 1 passed without LOGIC and MEMORY both, 2 passed
  with both, 3 did not pass -/
  last : SMap Nat := []
  /-- soft repairs in Summit's table, and in the fuses -/
  soft : List MemRow := []
  fused : List MemRow := []
  pend : List RepairReq := []
  deriving DecidableEq, Repr

/-! ### The device -/

/-- How an access of the management space ends for its master (R7, R472, R389). -/
inductive AccStatus where
  | ok
  /-- Unsupported Request on a host port -/
  | ur
  /-- device-access error on a Spur core, with its DETAIL -/
  | devErr (detail : Nat)
  /-- DENIED on the debug port -/
  | denied
  /-- access-error status to Summit firmware -/
  | accErr
  deriving DecidableEq, Repr

/-- Pins the device drives. -/
inductive Pin where
  | slotPerst | slotPwrEn | gate2A | colBypass
  deriving DecidableEq, Repr

/-- What the device has sent out, latest first. -/
inductive Out where
  /-- end of a management access: master, status, read data -/
  | access (m : Master) (st : AccStatus) (data : Nat)
  /-- credits of a packet's sub-queue given back to the link partner (R114) -/
  | credits (port : Nat) (sub : SubQ) (blocks : Nat)
  /-- a packet's transmission starts at a port -/
  | transmit (port : Nat) (pkt : Nat)
  /-- a packet has left a port whole, as forwarded -/
  | sent (port : Nat) (f : Frame)
  /-- a packet in transmission was nullified (R134) -/
  | nullify (port : Nat) (pkt : Nat)
  /-- a completion made by the device: port, requester ID, tag, status (0 SC, 1 UR, 4 CA), EP, data -/
  | completion (port rid tag status : Nat) (ep : Bool) (data : List Byte)
  /-- a CXL.mem response: port, tag, DRS with data or NDR, poison, data -/
  | s2m (port tag : Nat) (drs poison : Bool) (data : List Byte)
  /-- a back-invalidate snoop: host ID, tracker tag, line, BISnpInv or BISnpData -/
  | bisnp (host tag line : Nat) (inv : Bool)
  /-- a PCIe message: port, code, function it speaks for -/
  | message (port code rid : Nat)
  /-- MSI-X: upstream port, function (0 the PF, v + 1 the VF v), vector -/
  | msix (port fn vector : Nat)
  /-- Foothill's response to a manager command (R214): its source, response words 0 and 1 -/
  | mgrResp (src word0 word1 : Nat)
  /-- a posted write of the device's own: port, requester ID, address, data -/
  | hostWrite (port rid addr : Nat) (data : List Byte)
  /-- a read of a Traverse engine: port, requester ID, tag, address, length (R207, R213) -/
  | hostRead (port rid tag addr len : Nat)
  /-- a request of a Spur core at port space: core, port, requester ID, kind (0 memory, 1 and 2 configuration Type 0 and 1), write,
  address, size, data (R175) -/
  | portReq (core port rid kind : Nat) (write : Bool) (addr size : Nat) (data : W64)
  /-- a frame the device itself sends into the fabric: destination device and port, class, frame word KIND, TRK, bytes -/
  | fabric (dev port cls kind : Nat) (trk : Option Nat) (data : List Byte)
  /-- a frame leaves in a Theox segment: port, header as a 96-bit number -/
  | segment (port hdr : Nat)
  /-- a NAK on a Theox link, in the link control of the next flit: port, last flit received good (R229) -/
  | nak (port ackseq : Nat)
  /-- the port replays from a flit (R230) -/
  | replay (port seq : Nat)
  /-- a control flit of R236: port, SPARE_REQ or SPARE_ACK, lane -/
  | spare (port : Nat) (ack : Bool) (lane : Nat)
  /-- a frame on the Col ring, from its start marker to its CRC: Col port (R257) -/
  | ring (k : Nat) (frame : List Byte)
  /-- the least LTR requirement of a domain, sent to its host: port, no-snoop and snoop latency as the standard encodes them (R288) -/
  | ltr (port noSnoop snoop : Nat)
  /-- hot reset down the link of a port (R303, R319) -/
  | hotReset (port : Nat)
  /-- Foothill issues an FLR to a function of an endpoint: its device, port, ID (R303, R319) -/
  | funcFlr (dev port id : Nat)
  /-- the MSI of vDSP `k` of an upstream port (R295) -/
  | msi (port k : Nat)
  /-- a PTM response with fabric time in ns (R313) -/
  | ptm (port time : Nat)
  /-- the transmitter's response to a Theox equalisation step (R326): lane, byte 3 of its training block -/
  | eqStep (lane byte : Nat)
  /-- one bit of a lane's generator output is inverted (R346) -/
  | inject (lane : Nat)
  /-- Lane Margining status: port, lane of the port, margin type, payload (R334) -/
  | margining (port lane type payload : Nat)
  /-- indicator states of a slot, to the board management controller (R307) -/
  | indicator (slot attn power : Nat)
  /-- a level on a pin -/
  | pin (p : Pin) (index : Nat) (level : Bool)
  deriving DecidableEq, Repr

/-- Which reset, if any, holds the core domain, and whether it runs (R19, R376, R450). -/
inductive Power where
  /-- VAUX power-on reset -/
  | vaux
  /-- cold reset -/
  | cold
  /-- cold reset over, the core phase not yet started -/
  | waitCore
  /-- the core domain runs -/
  | run
  /-- warm reset -/
  | warm
  /-- powered down (R450) -/
  | down
  deriving DecidableEq, Repr

/-- Everything the device holds but the queue of commands. -/
structure Dev where
  power : Power := .vaux
  /-- the 64-bit time base (R15) -/
  timeBase : Nat := 0
  /-- island oscillator cycles since VAUX power-on (R413) -/
  osc : Nat := 0
  /-- the model's own: number of free values drawn -/
  free : Nat := 0
  /-- the registers, field by field -/
  regs : SMap Nat := []
  /-- half latches of R478: value + 1, by register and master -/
  latch : SMap Nat := []
  /-- refused writes of RWL fields (R4) -/
  rwlRefused : Nat := 0
  /-- every RAM of the device, one flat space (see Ops) -/
  mem : List Host.Cell := []
  spur : SpurSt := {}
  cairn : CairnSt := {}
  cnt : CntSt := {}
  ctn : CtnSt := {}
  notch : NotchSt := {}
  sad : SaddleSt := {}
  trv : TrvSt := {}
  fab : FabSt := {}
  host : HostSt := {}
  tarn : TarnSt := {}
  summit : SummitSt := {}
  phy : LanesSt := {}
  slot : SlotSt := {}
  bist : BistSt := {}
  out : List Out := []
  deriving DecidableEq, Repr

/-- The machine: the waiting commands, first in, first out, and the device. -/
structure State where
  pending : List Instr
  dev : Dev
  deriving DecidableEq, Repr

/-- The device held in VAUX power-on reset with nothing waiting: every register reads its Reset value, memories list
nothing. -/
def State.reset : State := { pending := [], dev := {} }

end Sys2Proof.Machine
end

