-- ==== Sys2Proof/Machine/Ops.lean ====
section
/-! DEFINITION. The named operations every meaning is built from: register fields, memories, free values, what is sent out,
Spur events, the Cairn, counters. -/

namespace Sys2Proof.Machine

open Sys2Proof

/-- Runs an effect on the device and goes on; the queue is not touched. -/
def State.lift (s : State) (f : Dev → Dev) : Host.Outcome State Fault Refusal :=
  .next { s with dev := f s.dev }

/-- Applies `f` for each number below `n`, rising. -/
def Dev.each (d : Dev) (n : Nat) (f : Nat → Dev → Dev) : Dev :=
  (List.range n).foldl (fun d i => f i d) d

/-- Applies `f` for each element of a list, in order. -/
def Dev.forIn' {α : Type} (d : Dev) (l : List α) (f : α → Dev → Dev) : Dev :=
  l.foldl (fun d a => f a d) d

/-- Applies `f` if `b`. -/
def Dev.when (d : Dev) (b : Bool) (f : Dev → Dev) : Dev := if b then f d else d

/-! ### Register fields (R2, R6) -/

/-- Where the value of field `f` of register number `i` is stored. -/
def Fld.key (f : Fld) (i : Nat) : Nat := f.num + 1024 * i

/-- Reset value of SBIN[i].CFG's fields (R364): debounce in µs, stuck detection, chatter detection. -/
def sbinReset (f : Fld) (i : Nat) : Nat :=
  if f = SBIN.CFG.DEB_US then
    if i < 64 then 100 else if i < 96 then 10000 else if i < 128 then 20 else 10
  else if f = SBIN.CFG.STUCK_EN then (if 96 ≤ i ∧ i < 128 then 1 else 0)
  else if f = SBIN.CFG.CHAT_EN then (if i < 129 then 1 else 0)
  else f.reset

/-- Reset value of field `f` of register number `i`. -/
def Fld.resetAt (f : Fld) (i : Nat) : Nat :=
  if f.reg = .SBIN_CFG then sbinReset f i else f.reset

/-- The value of a field. -/
def Dev.rd (d : Dev) (f : Fld) (i : Nat := 0) : Nat := SMap.get (f.resetAt i) d.regs (f.key i)

/-- Sets a field, cut to its width, whatever its access code: what hardware does. -/
def Dev.wr (d : Dev) (f : Fld) (i : Nat) (v : Nat) : Dev :=
  { d with regs := SMap.put (f.resetAt i) d.regs (f.key i) (v % 2 ^ f.width) }

/-- A one-bit field as a Bool. -/
def Dev.on (d : Dev) (f : Fld) (i : Nat := 0) : Bool := d.rd f i == 1

/-- Sets a one-bit field. -/
def Dev.setOn (d : Dev) (f : Fld) (i : Nat) (b : Bool) : Dev := d.wr f i (if b then 1 else 0)

/-- Adds to a count that saturates at its width. -/
def Dev.bump (d : Dev) (f : Fld) (i : Nat) (n : Nat := 1) : Dev :=
  d.wr f i (min (d.rd f i + n) (2 ^ f.width - 1))

/-- Adds to a count that wraps at its width. -/
def Dev.wrapAdd (d : Dev) (f : Fld) (i : Nat) (n : Nat := 1) : Dev := d.wr f i (d.rd f i + n)

/-- Sets a bit of a multi-bit field. -/
def Dev.orBit (d : Dev) (f : Fld) (i b : Nat) : Dev := d.wr f i (d.rd f i ||| 2 ^ b)

/-- The word a register reads as: its fields at their places, write-only fields reading zero (R2). -/
def Dev.word (d : Dev) (r : Reg) (i : Nat) : Nat :=
  r.flds.foldl (fun w f => if f.acc = .wo then w else w + d.rd f i * 2 ^ f.lsb) 0

/-- Bits `[lsb + w - 1 : lsb]` of `v`. -/
def bits (v lsb w : Nat) : Nat := v / 2 ^ lsb % 2 ^ w

/-- The bits of field `f` in a written word. -/
def Fld.of (f : Fld) (v : Nat) : Nat := bits v f.lsb f.width

/-- The value a field takes when `v` is written to its bits by a master that is Summit or not (R2, R4). -/
def Fld.written (f : Fld) (summit : Bool) (old v : Nat) : Nat :=
  match f.acc with
  | .ro => old
  | .wo => old
  | .rw => v
  | .rws => v
  | .rwl => if summit then v else old
  | .w1c => old - (old &&& v)
  | .w1cAll => if v = 0 then old else 0

/-- Writes every field of a register by its access code (R2, R3); a field that software cannot write is left alone. -/
def Dev.writeFields (d : Dev) (summit : Bool) (r : Reg) (i v : Nat) : Dev :=
  r.flds.foldl (fun d f => if f.acc = .ro ∨ f.acc = .wo then d else d.wr f i (f.written summit (d.rd f i) (f.of v))) d

/-! ### Memories

One flat space of bytes: the SRAMs of core `c` at `coreBase c` plus the core's own address, Spur memory at `spurBase` plus its
offset, the Tarn pool at `tarnBase` plus the pool address. -/

/-- Where the SRAMs of core `c` lie in the flat space. -/
def coreBase (c : Nat) : Nat := 2 ^ 20 * (c + 1)

/-- Where Spur memory lies in the flat space. -/
def spurBase : Nat := 2 ^ 24

/-- Where the Tarn pool lies in the flat space. -/
def tarnBase : Nat := 2 ^ 40

/-- What a byte never written reads as (DESIGN CHOICE: zero). -/
def Memory.unwritten : Byte := 0

/-- The canonical form of a memory. -/
def Memory.wf (m : List Host.Cell) : Bool := SMap.wf Memory.unwritten m

/-- One byte. -/
def Dev.byte (d : Dev) (a : Nat) : Byte := SMap.get Memory.unwritten d.mem a

/-- Writes one byte. -/
def Dev.setByte (d : Dev) (a : Nat) (v : Byte) : Dev :=
  { d with mem := SMap.put Memory.unwritten d.mem a v }

/-- `n` bytes from `a`, first byte least significant (R29: little-endian). -/
def Dev.load (d : Dev) (a : Nat) : Nat → Nat
  | 0 => 0
  | n + 1 => (d.byte a).toNat + 256 * Dev.load d (a + 1) n

/-- Stores the low `n` bytes of `v` from `a` on, least significant first. -/
def Dev.store (d : Dev) (a : Nat) : Nat → Nat → Dev
  | 0, _ => d
  | n + 1, v => Dev.store (d.setByte a (BitVec.ofNat 8 v)) (a + 1) n (v / 256)

/-- Stores a list of bytes. -/
def Dev.storeBytes (d : Dev) (a : Nat) : List Byte → Dev
  | [] => d
  | b :: bs => Dev.storeBytes (d.setByte a b) (a + 1) bs

/-- A list of `n` bytes from `a`. -/
def Dev.loadBytes (d : Dev) (a : Nat) : Nat → List Byte
  | 0 => []
  | n + 1 => d.byte a :: Dev.loadBytes d (a + 1) n

/-- The `n` low bytes of a number, least significant first. -/
def natBytes : Nat → Nat → List Byte
  | 0, _ => []
  | n + 1, v => BitVec.ofNat 8 v :: natBytes n (v / 256)

/-- A number from its bytes, least significant first. -/
def bytesNat : List Byte → Nat
  | [] => 0
  | b :: bs => b.toNat + 256 * bytesNat bs

/-- An `n`-byte little-endian field at offset `o`. -/
def fieldAt (bs : List Byte) (o n : Nat) : Nat := bytesNat ((bs.drop o).take n)

/-- The flat address of an offset in Spur memory; offsets wrap at 4 MiB (R171). -/
def spurAt (off : Nat) : Nat := spurBase + off % 0x400000

/-- Puts bytes into Spur memory at an offset, wrapping at 4 MiB (R171). -/
def Dev.spurBytes (d : Dev) (off : Nat) : List Byte → Dev
  | [] => d
  | b :: bs => Dev.spurBytes (d.setByte (spurAt off) b) (off + 1) bs

/-! ### Free values, outputs, time -/

/-- Draws a free 64-bit value. -/
def Dev.draw (d : Dev) : W64 × Dev := (Config.freeWord d.free, { d with free := d.free + 1 })

/-- Draws a free number. -/
def Dev.drawNat (d : Dev) : Nat × Dev := (Config.freeNat d.free, { d with free := d.free + 1 })

/-- Sends something out of the device. -/
def Dev.emit (d : Dev) (o : Out) : Dev := { d with out := o :: d.out }

/-- The core domain is powered and out of reset (R473). -/
def Dev.coreUp (d : Dev) : Bool := d.power == .run

/-- VAUX is up: the island answers (R473). -/
def Dev.vauxUp (d : Dev) : Bool := d.power != .vaux

/-- The time stamp of a Cairn record (R413): the time base, or island cycles with bit 63 set. -/
def Dev.stamp (d : Dev) : Nat :=
  if d.on DEV.CLK_STATUS.ROOT_LOCK then d.timeBase % 2 ^ 64 else d.osc % 2 ^ 63 + 2 ^ 63

/-! ### Spur cores and their events -/

/-- The state of core `c`. -/
def Dev.core (d : Dev) (c : Nat) : SpurCore := SMap.get {} d.spur.cores c

/-- Replaces the state of core `c`. -/
def Dev.setCore (d : Dev) (c : Nat) (k : SpurCore) : Dev :=
  { d with spur := { d.spur with cores := SMap.put {} d.spur.cores c k } }

/-- Changes the state of core `c`. -/
def Dev.updCore (d : Dev) (c : Nat) (f : SpurCore → SpurCore) : Dev := d.setCore c (f (d.core c))

/-- A store of the device into Spur memory: reservations on its lines are lost (R51). -/
def Dev.spurStore (d : Dev) (off : Nat) (data : List Byte) : Dev :=
  let lines := data.mapIdx fun i _ => (0x400000 + (off + i) % 0x400000) / 64
  (d.spurBytes off data).each 9 fun c d =>
    match (d.core c).rsv with
    | some l => if lines.contains l then d.updCore c fun k => { k with rsv := none } else d
    | none => d

/-- A general register of a core; g0 reads as zero (R28). -/
def SpurCore.rdG (k : SpurCore) (n : Nat) : W64 := if n = 0 then 0 else SMap.get 0 k.g n

/-- Writes a general register; a write of g0 is discarded (R28). -/
def SpurCore.wrG (k : SpurCore) (n : Nat) (v : W64) : SpurCore :=
  if n = 0 then k else { k with g := SMap.put 0 k.g n v }

/-- Hardware sets bit `b` of EVENT (R186). -/
def Dev.setEvent (d : Dev) (c b : Nat) : Dev :=
  d.updCore c fun k => { k with event := k.event ||| BitVec.ofNat 64 (2 ^ b) }

/-- Sets bit `b` of EVENT on every core whose EVSEL enables the source (R187). -/
def Dev.signal (d : Dev) (f : Fld) (b : Nat) : Dev :=
  d.each 9 fun c d => d.when (d.on f c) fun d => d.setEvent c b

/-- EVENT.TRAP on every core that selects tile `t` (R187). -/
def Dev.signalTrap (d : Dev) (t : Nat) : Dev :=
  d.each 9 fun c d => d.when (bits (d.rd SPUR.EVSEL.TILES c) t 1 == 1) fun d => d.setEvent c 5

/-- EVENT.DUMP, SLOT, LINK, CONTAIN (R186). -/
def Dev.signalDump (d : Dev) : Dev := d.signal SPUR.EVSEL.DUMP 6
def Dev.signalSlot (d : Dev) : Dev := d.signal SPUR.EVSEL.SLOT 7
def Dev.signalLink (d : Dev) : Dev := d.signal SPUR.EVSEL.LINK 8
def Dev.signalContain (d : Dev) : Dev := d.signal SPUR.EVSEL.CONTAIN 9

/-- A doorbell rings (R187): EVENT.DOORBELL of core `c`. -/
def Dev.ringDoorbell (d : Dev) (c : Nat) : Dev := if d.coreUp then d.setEvent c 4 else d

/-- The physical core that holds logical role `r`, if one does. -/
def Dev.coreOfRole (d : Dev) (r : Nat) : Option Nat :=
  (List.range 9).find? fun c => (d.core c).role == r && (d.core c).mode != .failed

/-! ### Counters (R398 to R403) -/

/-- The value of a counter. -/
def Dev.count (d : Dev) (k : Nat) : Nat := SMap.get 0 d.cnt.count k

/-- Sets a counter, modulo 2^48. -/
def Dev.setCount (d : Dev) (k v : Nat) : Dev :=
  { d with cnt := { d.cnt with count := SMap.put 0 d.cnt.count k (v % 2 ^ 48) } }

/-- Counter `k` sees value `v` of its event in one cc (R399, R402). -/
def Dev.countOne (d : Dev) (k v : Nat) : Dev :=
  let thr := max 1 (d.rd CNT.THR.VALUE k)
  let add (n : Nat) : Dev :=
    let c := d.count k + n
    (d.setCount k c).when (2 ^ 48 ≤ c) fun d => d.setOn CNT.SEL.OVF k true
  match d.rd CNT.SEL.MODE k with
  | 0 => add v
  | 1 => if thr ≤ v then add 1 else d
  | 2 => if thr ≤ v ∧ SMap.get 0 d.cnt.prev k < thr then add 1 else d
  | _ => if d.count k < v then d.setCount k v else d

/-- What an event carries for its qualifiers (R400): slot, class, tenant. -/
structure EvQual where
  slot : Option Nat := none
  cls : Option Nat := none
  tenant : Option Nat := none
  deriving DecidableEq, Repr

/-- The qualifiers of counter `k` match. -/
def Dev.qualOk (d : Dev) (k : Nat) (q : EvQual) : Bool :=
  (match q.slot with | some s => bits (d.rd CNT.QUAL.SLOT_MASK k) s 1 == 1 | none => true) &&
  (match q.cls with | some c => bits (d.rd CNT.QUAL.CLASS_MASK k) c 1 == 1 | none => true) &&
  (match q.tenant with | some t => !d.on CNT.QUAL.TEN_EN k || d.rd CNT.QUAL.TENANT k == t | none => true)

/-- Counter `k` counts instance `inst` of its block (R400). -/
def Dev.instOk (d : Dev) (k inst : Nat) : Bool :=
  if k < 1024 then k / 64 == inst else d.on CNT.SEL.INST_ALL k || d.rd CNT.SEL.INST k == inst

/-- The counters with EN = 1: those whose EN is listed (its Reset value is 0). -/
def Dev.enabledCounters (d : Dev) : List Nat :=
  (SMap.keys (fun k v => k % 1024 == CNT.SEL.EN.num && v == 1) d.regs).map (· / 1024)

/-- An event of code `code` at instance `inst` with value `v` in this cc (R399, R403). -/
def Dev.event (d : Dev) (code inst : Nat) (q : EvQual := {}) (v : Nat := 1) : Dev :=
  if d.cnt.running then
    d.forIn' d.enabledCounters fun k d =>
      d.when (d.rd CNT.SEL.EVENT k == code && d.instOk k inst && d.qualOk k q) fun d => d.countOne k v
  else d

/-- `n` bytes of a bandwidth window: port, direction (1 transmit), class (R410). -/
def Dev.bwAdd (d : Dev) (p dir cls n : Nat) : Dev :=
  if d.on PORT.BW_CTL.EN p then
    { d with cnt := { d.cnt with bwBytes := SMap.upd 0 d.cnt.bwBytes (16 * p + 8 * dir + cls) (· + n) } }
  else d

/-! ### Cairn (R412 to R417) -/

/-- Where a source's waiting records are held. -/
def cairnKey (src inst : Nat) : Nat := src * 256 + inst

/-- Writes a record into the ring at WR_IDX (R413, R414). -/
def Dev.cairnWrite (d : Dev) (r : CairnRec) : Dev :=
  let i := d.rd CAIRN.STATUS.WR_IDX
  let seq := (d.cairn.seq + 1) % 2 ^ 32
  let d := { d with cairn := { d.cairn with
    ring := SMap.put .zero d.cairn.ring i { r with seq := seq }, seq := seq } }
  (d.wr CAIRN.STATUS.WR_IDX 0 ((i + 1) % 8192)).event 0x160 0

/-- A source forms a record: it waits in the source's queue of four, or is dropped and counted (R414); while the Cairn is
frozen it is discarded and counted (R417). -/
def Dev.cairnPush (d : Dev) (src inst event data0 data1 : Nat) : Dev :=
  if d.on CAIRN.STATUS.FROZEN then d.bump CAIRN.COUNT.DISCARDED 0
  else
    let k := cairnKey src inst
    let q := SMap.get {} d.cairn.srcs k
    let q' : CairnSrc :=
      if q.queue.length < 4 then
        { queue := q.queue ++ [⟨d.stamp, src, inst, event, false, min q.lost 15, 0, data0, data1⟩], lost := 0 }
      else { q with lost := q.lost + 1 }
    { d with cairn := { d.cairn with srcs := SMap.put {} d.cairn.srcs k q' } }

/-- The oldest waiting record of the first source that has one. -/
def CairnSt.pop (s : CairnSt) : Option (CairnRec × CairnSt) :=
  match SMap.first (fun _ q => !q.queue.isEmpty) s.srcs with
  | none => none
  | some k =>
    let q := SMap.get {} s.srcs k
    match q.queue with
    | [] => none
    | r :: rs => some (r, { s with srcs := SMap.put {} s.srcs k { q with queue := rs } })

/-- Writes up to `n` waiting records. -/
def Dev.cairnFlush (d : Dev) : Nat → Dev
  | 0 => d
  | n + 1 =>
    match d.cairn.pop with
    | none => d
    | some (r, c) => Dev.cairnFlush ({ d with cairn := c }.cairnWrite r) n

/-- Number of records waiting. -/
def CairnSt.waiting (s : CairnSt) : Nat := s.srcs.foldl (fun n e => n + e.2.queue.length) 0

/-- A freeze trigger (R416, R417): its record goes first, the waiting ones fill the rest of the 64 cc, what is left is
discarded and counted. A further trigger while frozen only counts. -/
def Dev.cairnFreeze (d : Dev) (cause src inst event data0 data1 : Nat) : Dev :=
  if d.on CAIRN.STATUS.FROZEN then (d.bump CAIRN.COUNT.TRIGGERS 0).bump CAIRN.COUNT.DISCARDED 0
  else
    let i := d.rd CAIRN.STATUS.WR_IDX
    let lost := (SMap.get {} d.cairn.srcs (cairnKey src inst)).lost
    let d := d.cairnWrite ⟨d.stamp, src, inst, event, true, min lost 15, 0, data0, data1⟩
    let d := d.cairnFlush 56
    let d := d.bump CAIRN.COUNT.DISCARDED 0 d.cairn.waiting
    let d := { d with cairn := { d.cairn with srcs := [] } }
    let d := (d.wr CAIRN.STATUS.CAUSE 0 cause).wr CAIRN.STATUS.FREEZE_IDX 0 i
    d.setOn CAIRN.STATUS.FROZEN 0 true

/-- A freeze trigger that has an enable in CAIRN.TRIG: without it the record is an ordinary one (R416). -/
def Dev.cairnTrig (d : Dev) (en : Fld) (cause src inst event data0 data1 : Nat) : Dev :=
  if d.on en then d.cairnFreeze cause src inst event data0 data1 else d.cairnPush src inst event data0 data1

end Sys2Proof.Machine
end

