-- ==== Sys2Proof/Machine/Flags.lean ====
section
/-! DEFINITION. The flag computations of R29 and the conditions of R39. -/

namespace Sys2Proof.Machine

open Sys2Proof

/-- CMP and CMPI: a − b (R29, R33). H and X are kept. -/
def Flags.cmp (f : Flags) (a b : W64) : Flags :=
  { f with
    z := a == b
    n := (a - b).msb
    c := a.ult b
    v := (a.msb != b.msb) && ((a - b).msb != a.msb) }

/-- TST and TSTI: a AND b; C and V are written 0 (R29, R33). -/
def Flags.tst (f : Flags) (a b : W64) : Flags :=
  { f with z := a &&& b == 0, n := (a &&& b).msb, c := false, v := false }

/-- The flags as a number: [5:0] = Z, N, C, V, H, X (R59). -/
def Flags.toNat (f : Flags) : Nat :=
  f.z.toNat * 32 + f.n.toNat * 16 + f.c.toNat * 8 + f.v.toNat * 4 + f.h.toNat * 2 + f.x.toNat

/-- The flags from bits [5:0] (R59). -/
def Flags.ofNat (v : Nat) : Flags :=
  { z := bits v 5 1 == 1, n := bits v 4 1 == 1, c := bits v 3 1 == 1,
    v := bits v 2 1 == 1, h := bits v 1 1 == 1, x := bits v 0 1 == 1 }

/-- When a branch is taken (R39). -/
def condTaken (f : Flags) : Cond → Bool
  | .eq => f.z
  | .ne => !f.z
  | .lt => f.n != f.v
  | .ge => f.n == f.v
  | .ltu => f.c
  | .geu => !f.c
  | .gt => !f.z && f.n == f.v
  | .le => f.z || f.n != f.v
  | .gtu => !f.c && !f.z
  | .leu => f.c || f.z
  | .hit => f.h
  | .miss => !f.h
  | .xs => f.x
  | .xc => !f.x
  | .al => true

end Sys2Proof.Machine
end

