-- ==== Sys2Proof/Machine/Operands.lean ====
section
/-! DEFINITION. The operand forms and the arithmetic of Ridge (R31, R33 to R36). -/

namespace Sys2Proof.Machine

open Sys2Proof

/-- imm14 sign-extended (ADDI, CMPI, JALR) (R31). -/
def immS (k : BitVec 14) : W64 := k.signExtend 64

/-- imm14 zero-extended (every other instruction) (R31). -/
def immZ (k : BitVec 14) : W64 := k.zeroExtend 64

/-- The shift count b[5:0] (R33). -/
def shiftCount (b : W64) : Nat := b.toNat % 64

/-- One bit step of the reflected CRC-32C (polynomial 0x1EDC_6F41). -/
def crcBit (c : Nat) : Nat := if c % 2 = 1 then (c / 2) ^^^ 0x82F63B78 else c / 2

/-- One byte of CRC-32C. -/
def crcByte (c b : Nat) : Nat :=
  crcBit (crcBit (crcBit (crcBit (crcBit (crcBit (crcBit (crcBit (c ^^^ b))))))))

/-- CRC-32C of a byte string, as the standard defines it. -/
def crc32c (bs : List Byte) : Nat := (bs.foldl (fun c b => crcByte c b.toNat) 0xFFFFFFFF) ^^^ 0xFFFFFFFF

/-- HASH: CRC-32C over the 16 bytes of a then b, little-endian (R33). -/
def hashOf (a b : W64) : W64 := BitVec.ofNat 64 (crc32c (natBytes 8 a.toNat ++ natBytes 8 b.toNat))

/-- DIVU: a divisor of 0 gives all ones (R34). -/
def divuOf (a b : W64) : W64 := if b = 0 then BitVec.allOnes 64 else a / b

/-- REMU: a divisor of 0 gives the dividend (R34). -/
def remuOf (a b : W64) : W64 := if b = 0 then a else a % b

/-- The high 64 bits of the unsigned product (R33). -/
def mulhuOf (a b : W64) : W64 := BitVec.ofNat 64 (a.toNat * b.toNat / 2 ^ 64)

/-- Leading zero bits among the low `n` bits of `v`. -/
def clzFrom (v : Nat) : Nat → Nat
  | 0 => 0
  | n + 1 => if v / 2 ^ n % 2 = 1 then 0 else 1 + clzFrom v n

/-- CLZ; 64 for zero (R34). -/
def clzOf (a : W64) : W64 := BitVec.ofNat 64 (clzFrom a.toNat 64)

/-- One bits among the low `n` bits of `v`. -/
def popFrom (v : Nat) : Nat → Nat
  | 0 => 0
  | n + 1 => v / 2 ^ n % 2 + popFrom v n

/-- POPC (R33). -/
def popcOf (a : W64) : W64 := BitVec.ofNat 64 (popFrom a.toNat 64)

/-- Signed and unsigned minimum and maximum (R33). -/
def minS (a b : W64) : W64 := if a.slt b then a else b
def maxS (a b : W64) : W64 := if a.slt b then b else a
def minU (a b : W64) : W64 := if a.ult b then a else b
def maxU (a b : W64) : W64 := if a.ult b then b else a

/-- The length of a field at p of n bits, cut at bit 63 (R36). -/
def fieldLen (p n1 : Nat) : Nat := min (n1 + 1) (64 - p)

/-- EXTI: the bits that exist, zero-extended (R35, R36). -/
def extract (a : W64) (p n1 : Nat) : W64 := BitVec.ofNat 64 (bits a.toNat p (fieldLen p n1))

/-- EXTSI: sign-extended from the field's top bit, or from bit 63 when the field is cut (R35, R36). -/
def extractS (a : W64) (p n1 : Nat) : W64 :=
  let w := fieldLen p n1
  let f := bits a.toNat p w
  if bits f (w - 1) 1 = 1 then BitVec.ofNat 64 (f + 2 ^ 64 - 2 ^ w) else BitVec.ofNat 64 f

/-- INSI: bits [p + n − 1 : p] of `old` replaced by the low bits of `a`; only the bits that exist (R35, R36). -/
def insert (old a : W64) (p n1 : Nat) : W64 :=
  let w := fieldLen p n1
  BitVec.ofNat 64 (old.toNat - bits old.toNat p w * 2 ^ p + bits a.toNat 0 w * 2 ^ p)

/-- A value of `n` bytes, zero- or sign-extended (R49). -/
def extend (signed : Bool) (n v : Nat) : W64 :=
  if signed ∧ bits v (8 * n - 1) 1 = 1 then BitVec.ofNat 64 (v + 2 ^ 64 - 2 ^ (8 * n)) else BitVec.ofNat 64 v

/-! The encodings of R30, for HADDR of an illegal instruction (R62): format S, and format A with bank bits. -/

/-- Format S. -/
def wordS (fn g imm : Nat) : Nat := 0x38 * 2 ^ 26 + fn * 2 ^ 20 + g * 2 ^ 15 + imm

/-- The register number of a source and its bank bit (R28). -/
def srcNum : Src → Nat
  | .g n => n.val
  | .h n => n.val

def srcBank : Src → Nat
  | .g _ => 0
  | .h _ => 1

/-- The register number of a destination and its bank bit (R28). -/
def dstNum : Dst → Nat
  | .g n => n.val
  | .o n => n.val

def dstBank : Dst → Nat
  | .g _ => 0
  | .o _ => 1

/-- Format A. -/
def wordA (fn : Nat) (rd : Dst) (rs1 rs2 : Src) : Nat :=
  dstNum rd * 2 ^ 21 + srcNum rs1 * 2 ^ 16 + srcNum rs2 * 2 ^ 11 + fn * 2 ^ 5 + dstBank rd * 16 + srcBank rs1 * 8 + srcBank rs2 * 4

/-- Format I. -/
def wordI (op : Nat) (rd : Dst) (rs1 : Src) (imm : Nat) : Nat :=
  op * 2 ^ 26 + dstNum rd * 2 ^ 21 + srcNum rs1 * 2 ^ 16 + dstBank rd * 2 ^ 15 + srcBank rs1 * 2 ^ 14 + imm

end Sys2Proof.Machine
end

