-- ==== Sys2Proof/Machine/NotchRun.lean ====
section
/-! DEFINITION. A Notch program in flight: registers, pairs and landings (R27, R45 to R48, R80). -/

namespace Sys2Proof.Machine

open Sys2Proof

/-- The stage in which instruction `idx` executes: pair p in stage p + 1 (R46). -/
def stageOf (idx : Nat) : Nat := idx / 2 + 1

/-- Applies one landing. -/
def NRun.apply (n : NRun) (l : Land) : NRun :=
  match l.dst with
  | .g r => if r = 0 then n else { n with g := SMap.put 0 n.g r l.value }
  | .o r => { n with o := SMap.put 0 n.o r l.value }
  | .zncv => { n with flags := { n.flags with z := l.flags.z, n := l.flags.n, c := l.flags.c, v := l.flags.v } }
  | .hx => { n with flags := { n.flags with h := l.flags.h, x := l.flags.x } }

/-- Everything due by the stage of the next instruction lands (R46). -/
def NRun.land (n : NRun) : NRun :=
  let st := stageOf n.idx
  let due := n.lands.filter fun l => l.stage ≤ st
  due.foldl NRun.apply { n with lands := n.lands.filter fun l => st < l.stage }

/-- A source register as it stood before the pair (R28, R46). -/
def NRun.rd (n : NRun) : Src → W64
  | .g r => if r.val = 0 then 0 else SMap.get 0 n.g r.val
  | .h r => SMap.get 0 n.h r.val

/-- An o register (R41). -/
def NRun.oReg (n : NRun) (r : Nat) : W64 := SMap.get 0 n.o r

/-- The landing place of a destination. -/
def dstLand : Dst → LandTo
  | .g r => .g r.val
  | .o r => .o r.val

/-- A result that lands `delay` stages after its pair (R46: 1 for ALU results, 2 for lookups). -/
def NRun.send (n : NRun) (delay : Nat) (dst : LandTo) (v : W64) (f : Flags := {}) : NRun :=
  { n with lands := n.lands ++ [⟨stageOf n.idx + delay, dst, v, f⟩] }

/-- The next instruction follows. -/
def NRun.next (n : NRun) : NRun := { n with idx := n.idx + 1 }

/-- The run with number `r`. -/
def Dev.run? (d : Dev) (r : Nat) : Option NRun := d.notch.runs.find? fun n => n.id == r

/-- Puts a run back, or takes it off once its emit's pair is over (R45). -/
def Dev.putRun (d : Dev) (n : NRun) : Dev :=
  { d with notch := { d.notch with
      runs := if n.emitted ∧ n.idx % 2 = 0 then d.notch.runs.filter fun m => m.id != n.id
              else d.notch.runs.map fun m => if m.id = n.id then n else m } }

/-- A run executes one instruction: results due land first, then `body`. A run past instruction 23 executes nothing. -/
def Dev.notchInstr (d : Dev) (r : Nat) (body : NRun → Dev → NRun × Dev) : Dev :=
  match d.run? r with
  | none => d
  | some n =>
    if 24 ≤ n.idx then d
    else
      let x := body n.land d
      x.2.putRun x.1

/-- An instruction that only sends results. -/
def Dev.notchAlu (d : Dev) (r : Nat) (f : NRun → NRun) : Dev := d.notchInstr r fun n d => ((f n).next, d)

end Sys2Proof.Machine
end

