-- ==== Sys2Proof/Machine/Cfg.lean ====
section
/-! DEFINITION. Configuration space of the device's own functions (R293, R480): where its words are kept, the bus numbers, the
errors reported through Advanced Error Reporting (R280). The places of the fields inside a standard header or capability are those of
the PCI Express standard (PRESUMED). -/

namespace Sys2Proof.Machine

open Sys2Proof

/-! Functions of an upstream port: 0 the USP, 1 + k vDSP k, 33 the PF, 34 + v the VF of global index v. -/

def fnUsp : Nat := 0
def fnVdsp (k : Nat) : Nat := 1 + k
def fnPf : Nat := 33
def fnVf (v : Nat) : Nat := 34 + v

def cfgKey (p fn off : Nat) : Nat := (p * 1024 + fn) * 1024 + off / 4

/-- Reset value of a stored word: AER's mask and severity take the standard's, everything else is zero. -/
def cfgReset (off : Nat) : Nat :=
  if off / 4 = 0x108 / 4 then 0x00400000 else if off / 4 = 0x10C / 4 then 0x00462030 else 0

def Dev.cfg (d : Dev) (p fn off : Nat) : Nat := SMap.get (cfgReset off) d.host.cfg (cfgKey p fn off)
def Dev.setCfg (d : Dev) (p fn off v : Nat) : Dev :=
  { d with host := { d.host with cfg := SMap.put (cfgReset off) d.host.cfg (cfgKey p fn off) (v % 2 ^ 32) } }

/-- Primary, secondary and subordinate bus of the USP or a vDSP: bytes 0x18 to 0x1A of a Type 1 header. -/
def Dev.secBus (d : Dev) (p fn : Nat) : Nat := bits (d.cfg p fn 0x18) 8 8
def Dev.subBus (d : Dev) (p fn : Nat) : Nat := bits (d.cfg p fn 0x18) 16 8

/-- The bus the host assigned to the USP. -/
def Dev.uspBus (d : Dev) (p : Nat) : Nat := d.cfg p fnUsp 0x18 % 256

/-- Routing IDs of the USP and of the PF: the PF is device 0, function 0 on the secondary bus of vDSP 0 (R293). -/
def Dev.uspRid (d : Dev) (p : Nat) : Nat := d.uspBus p * 256
def Dev.pfRid (d : Dev) (p : Nat) : Nat := d.secBus p (fnVdsp 0) * 256

/-- Routing ID of a vDSP: device k on the secondary bus of the USP (R293). -/
def Dev.vdspRid (d : Dev) (up k : Nat) : Nat := d.secBus up fnUsp * 256 + k * 8

/-- Base of a 64-bit BAR of the PF, its register at `off`, for a size of 2^`log`. -/
def Dev.pfBar (d : Dev) (p off log : Nat) : Nat :=
  (d.cfg p fnPf off + d.cfg p fnPf (off + 4) * 2 ^ 32) / 2 ^ log * 2 ^ log

/-- A memory address in BAR0 (64 KiB) of the PF of a port, or in BAR4 (256 MiB) on a manager port (R197): which, and the offset. -/
def Dev.barHit (d : Dev) (p addr : Nat) : Option (Nat × Nat) :=
  let b0 := d.pfBar p 0x10 16
  let b4 := d.pfBar p 0x20 28
  if !(d.cfg p fnPf 4).testBit 1 then none
  else if b0 ≠ 0 ∧ b0 ≤ addr ∧ addr < b0 + 2 ^ 16 then some (0, addr - b0)
  else if b4 ≠ 0 ∧ b4 ≤ addr ∧ addr < b4 + 2 ^ 28 ∧ (d.rd MGR.PORTS.PORTS (p / 32)).testBit (p % 32) then some (4, addr - b4)
  else none

/-- An uncorrectable error is logged in the AER capability of a function and signalled by its own severity, mask and enables
(R280): AER lies at 0x100, Device Control at 0x48 (R480). -/
def Dev.aerError (d : Dev) (p fn bit rid : Nat) : Dev :=
  let d := d.setCfg p fn 0x104 (d.cfg p fn 0x104 ||| 2 ^ bit)
  if (d.cfg p fn 0x108).testBit bit || d.on PORT.CTN_STATUS.FROZEN p then d
  else
    let fatal := (d.cfg p fn 0x10C).testBit bit
    let dev := d.cfg p fn 0x48
    let serr := (d.cfg p fn 0x04).testBit 8
    if serr || dev.testBit (if fatal then 2 else 1) then d.emit (.message p (if fatal then 0x33 else 0x31) rid) else d

/-- A correctable error: status at 0x110, mask at 0x114, enable in Device Control bit 0. -/
def Dev.aerCor (d : Dev) (p fn bit rid : Nat) : Dev :=
  let d := d.setCfg p fn 0x110 (d.cfg p fn 0x110 ||| 2 ^ bit)
  if (d.cfg p fn 0x114).testBit bit || d.on PORT.CTN_STATUS.FROZEN p || !(d.cfg p fn 0x48).testBit 0 then d
  else d.emit (.message p 0x30 rid)

/-- The header log of the PF takes an address (R280). -/
def Dev.aerHeader (d : Dev) (p addr : Nat) : Dev :=
  (d.setCfg p fnPf 0x124 (addr / 2 ^ 32)).setCfg p fnPf 0x128 addr

end Sys2Proof.Machine
end

