-- ==== Sys2Proof/Machine/Report.lean ====
section
/-! DEFINITION. Containment records: their layout, their coalescing, the device log and the error rings of the host domains
(09_containment_timeouts R279 to R282). -/

namespace Sys2Proof.Machine

open Sys2Proof

/-- Words 0 to 3 of a record (R279). -/
def CtnRec.word0 (r : CtnRec) : Nat :=
  r.type % 256 + r.kind % 8 * 2 ^ 8 + r.index % 512 * 2 ^ 11 + r.cause % 16 * 2 ^ 20 + r.froze.toNat * 2 ^ 24
    + r.count % 2 ^ 32 * 2 ^ 32

def CtnRec.word3 (r : CtnRec) : Nat :=
  r.rid % 65536 + r.tenant % 512 * 2 ^ 16 + r.port % 128 * 2 ^ 25 + r.dev % 256 * 2 ^ 32

/-- The 32 bytes of a record, little-endian (R279). -/
def CtnRec.bytes (r : CtnRec) : List Byte :=
  natBytes 8 r.word0 ++ natBytes 8 r.time ++ natBytes 8 r.addr ++ natBytes 8 r.word3

/-- Types that are never coalesced (R280). -/
def ctnAlone (type : Nat) : Bool := type ∈ [1, 3, 5, 7, 9, 11]

/-- The upstream port of host domain `h`: the port whose PF the domain's functions belong to (R197). -/
def Dev.portOfDomain (d : Dev) (h : Nat) : Option Nat :=
  if d.on FN.PF_VFS.VALID h then some (d.rd FN.PF_VFS.PORT h) else none

/-- The host domain of an upstream port, if it has one. -/
def Dev.domainOfPort (d : Dev) (p : Nat) : Option Nat :=
  (List.range 64).find? fun h => d.portOfDomain h == some p

/-- A log or ring size: 2^SIZE entries, below 4 as 4, above 12 as 12 (R281, R282). -/
def ringSize (size : Nat) : Nat := 2 ^ (min 12 (max 4 size))

/-- Writes a record to the device log (R282); answers its offset in Spur memory. A full log sets OVERFLOW. -/
def Dev.logRecord (d : Dev) (r : CtnRec) : Option Nat × Dev :=
  if d.on CTN.LOG_CTL.ENABLE then
    let n := ringSize (d.rd CTN.LOG_CTL.SIZE)
    let tail := d.rd CTN.LOG_STATUS.TAIL % n
    if (tail + 1) % n = d.rd CTN.LOG_STATUS.HEAD % n then (none, d.setOn CTN.LOG_STATUS.OVERFLOW 0 true)
    else
      let off := d.rd CTN.LOG_CTL.BASE * 32 + tail * 32
      (some off, (d.spurStore off r.bytes).wr CTN.LOG_STATUS.TAIL 0 ((tail + 1) % n))
  else (none, d)

/-- Writes a record to the error ring of a host domain and signals MSI-X vector 1 of its PF (R281). A frozen upstream port
gets nothing. -/
def Dev.hostRecord (d : Dev) (h : Nat) (r : CtnRec) : Option Nat × Dev :=
  match d.portOfDomain h with
  | none => (none, d)
  | some p =>
    let g := SMap.get {} d.ctn.rings p
    if d.on PORT.CTN_STATUS.FROZEN p ∨ !g.enable then (none, d)
    else
      let n := ringSize g.size
      let tail := g.tail % n
      let put (g : ErrRing) (d : Dev) : Dev := { d with ctn := { d.ctn with rings := SMap.put {} d.ctn.rings p g } }
      if (tail + 1) % n = g.head % n then (none, put { g with overflow := true } d)
      else
        let a := g.base + tail * 32
        let d := put { g with tail := (tail + 1) % n } d
        (some a, (d.emit (.hostWrite p (d.pfRid p) a r.bytes)).emit (.msix p 0 1))

/-- Writes a record to the rings of several host domains; answers where. -/
def Dev.hostRecords (d : Dev) (r : CtnRec) : List Nat → List (Nat × Nat) × Dev
  | [] => ([], d)
  | h :: hs =>
    let x := d.hostRecord h r
    let y := x.2.hostRecords r hs
    (match x.1 with | some a => ((h, a) :: y.1, y.2) | none => y)

/-- The standard report of a record at the PF of a host domain (R280): Surprise Down for a port frozen with cause 2, Uncorrectable
Internal Error for types 3, 4, 9, 10 and 18, Completer Abort with the header logged for types 12, 13 and 16. -/
def Dev.stdReport (d : Dev) (r : CtnRec) (h : Nat) : Dev :=
  match d.portOfDomain h with
  | none => d
  | some p =>
    if r.type = 1 then (if r.cause = 2 then d.aerError p fnPf 5 (d.pfRid p) else d)
    else if r.type ∈ [3, 4, 9, 10, 18] then d.aerError p fnPf 22 (d.pfRid p)
    else if r.type ∈ [12, 13, 16] then (d.aerHeader p r.addr).aerError p fnPf 15 (d.pfRid p)
    else d

/-- Rewrites the COUNT of a coalesced record where it was written. -/
def Dev.rewriteCount (d : Dev) (l : CtnLast) : Dev :=
  let d := match l.logAt with
    | some off => d.spurStore off (natBytes 8 l.rcd.word0)
    | none => d
  d.forIn' l.hostAt fun ha d =>
    match d.portOfDomain ha.1 with
    | some p => d.emit (.hostWrite p (d.pfRid p) ha.2 (natBytes 8 l.rcd.word0))
    | none => d

/-- The earlier record that `r` adds to: same TYPE, KIND and INDEX, within 1 ms (R280). -/
def Dev.coalesceWith (d : Dev) (r : CtnRec) : Option CtnLast :=
  if ctnAlone r.type then none
  else d.ctn.last.find? fun l =>
    l.rcd.type == r.type && l.rcd.kind == r.kind && l.rcd.index == r.index && d.timeBase - l.rcd.time ≤ 250000

/-- Same TYPE, KIND and INDEX. -/
def sameUnit (a b : CtnRec) : Bool := a.type == b.type && a.kind == b.kind && a.index == b.index

/-- A containment event is reported (R279 to R282): coalesced into an earlier record, or written to the device log and to
the rings of `domains`; EVENT.CONTAIN is set; each freeze and release also goes to the Cairn, where the freeze of a tile or of a stack is a trigger
(R416). -/
def Dev.report (d : Dev) (r0 : CtnRec) (domains : List Nat) : Dev :=
  let r := { r0 with time := d.timeBase % 2 ^ 64, dev := if r0.type = 16 then r0.dev else d.rd FABRIC.ID.DEV }
  let d := match d.coalesceWith r with
    | some l =>
      let l' := { l with rcd := { l.rcd with count := l.rcd.count + 1 } }
      let d := { d with ctn := { d.ctn with last := l' :: d.ctn.last.filter fun x => !sameUnit x.rcd r } }
      d.rewriteCount l'
    | none =>
      let x := d.logRecord r
      let y := x.2.hostRecords r domains
      let d := y.2
      { d with ctn := { d.ctn with last := ⟨r, x.1, y.1⟩ :: d.ctn.last.filter fun x => !sameUnit x.rcd r } }
  let d := (d.forIn' domains fun h d => d.stdReport r h).signalContain
  if r.type = 5 then d.cairnTrig CAIRN.TRIG.TILE 7 0x0C r.kind 1 r.word0 r.addr
  else if r.type = 9 ∧ r.kind = 5 then d.cairnTrig CAIRN.TRIG.STACK 8 0x0C r.kind 1 r.word0 r.addr
  else if r.type ∈ [1, 7, 9, 11] ∨ (r.type = 3 ∧ r.froze) then d.cairnPush 0x0C r.kind 1 r.word0 r.addr
  else if r.type ∈ [2, 4, 6, 8, 10] then d.cairnPush 0x0C r.kind 2 r.word0 r.addr
  else d

end Sys2Proof.Machine
end

