-- ==== Sys2Proof/Machine/SpurOps.lean ====
section
/-! DEFINITION. What every Spur instruction shares: store buffer and reorder buffer, exception entry, failing a core, the
instruction boundary (R63 to R66, R176 to R178, R191 to R193). -/

namespace Sys2Proof.Machine

open Sys2Proof

/-! ### Where an address lies (R170) -/

/-- Classes of the Spur address map. -/
inductive AddrClass where
  | isram | dsram | spurMem | mgmt | port | tarn | unmapped
  deriving DecidableEq, Repr

/-- The class of a core address. -/
def addrClass (a : Nat) : AddrClass :=
  if a < 0x10000 then .isram
  else if 0x20000 ≤ a ∧ a < 0x40000 then .dsram
  else if 0x400000 ≤ a ∧ a < 0x800000 then .spurMem
  else if 0x10000000 ≤ a ∧ a < 0x20000000 then .mgmt
  else if 0x10000000000 ≤ a ∧ a < 0x20000000000 then .port
  else if 0x20000000000 ≤ a ∧ a < 0x40000000000 then .tarn
  else .unmapped

/-- The class holds memory (R170). -/
def AddrClass.isMemory : AddrClass → Bool
  | .isram | .dsram | .spurMem | .tarn => true
  | _ => false

/-- The class is device space (R170). -/
def AddrClass.isDevice : AddrClass → Bool
  | .mgmt | .port => true
  | _ => false

/-- Where a byte of SRAM or Spur memory, seen from core `c`, lies in the flat space. -/
def flatOf (c a : Nat) : Nat := if a < 0x400000 then coreBase c + a else spurBase + (a - 0x400000)

/-- A word with an uncorrectable error (R178, R193). -/
def Dev.poisoned (d : Dev) (flat : Nat) : Bool := SMap.get false d.spur.poison (flat / 8)

/-- Marks or clears the poison of the word at a flat address. -/
def Dev.setPoison (d : Dev) (flat : Nat) (b : Bool) : Dev :=
  { d with spur := { d.spur with poison := SMap.put false d.spur.poison (flat / 8) b } }

/-! ### The store buffer (R178) and reservations (R51) -/

/-- A store by `by_` to Spur memory clears the reservations other cores hold on its line (R51, R184). -/
def Dev.breakRsv (d : Dev) (by_ : Option Nat) (addr : Nat) : Dev :=
  d.each 9 fun c d =>
    d.when ((some c != by_) && (d.core c).rsv == some (addr / 64)) fun d => d.updCore c fun k => { k with rsv := none }

/-- One store of core `c` is performed (R178, R180). A store narrower than its word merges; a merge into a poisoned word
of Spur memory leaves it poisoned and is recorded. -/
def Dev.performStore (d : Dev) (c : Nat) (e : StoreEnt) : Dev :=
  let flat := flatOf c e.addr
  let merge := e.size < 8 && d.poisoned flat
  let d := d.store flat e.size e.data.toNat
  let d := d.when (!merge) fun d => d.setPoison flat false
  let d := d.when (merge && addrClass e.addr == .spurMem) fun d => d.cairnPush 0x07 c 6 e.addr 0
  d.when (addrClass e.addr == .spurMem) fun d => d.breakRsv (some c) e.addr

/-- The oldest entry of the store buffer drains. -/
def Dev.drainOne (d : Dev) (c : Nat) : Dev :=
  match (d.core c).sb with
  | [] => d
  | e :: es => (d.updCore c fun k => { k with sb := es }).performStore c e

/-- `n` entries drain, oldest first. -/
def Dev.drainN (d : Dev) (c : Nat) : Nat → Dev
  | 0 => d
  | n + 1 => (d.drainOne c).drainN c n

/-- The store buffer drains. -/
def Dev.drainAll (d : Dev) (c : Nat) : Dev := d.drainN c (d.core c).sb.length

/-- Number of entries up to and including the last that touches the same aligned 8-byte word (R181). -/
def drainDepth (sb : List StoreEnt) (addr : Nat) : Nat :=
  sb.foldl (fun (n : Nat × Nat) e => (if e.addr / 8 = addr / 8 then n.2 + 1 else n.1, n.2 + 1)) (0, 0) |>.1

/-! ### Failing a core and moving its role (R191 to R195) -/

/-- The spare's physical number, 0xF for none. -/
def Dev.spare (d : Dev) : Nat := d.rd SPUR.HANDOVER.SPARE

/-- A role stops because no spare remains (R195): recorded in the Cairn as a trigger of cause 9, and in the device log as type
18 with KIND 6 (R282). -/
def Dev.roleStops (d : Dev) (c : Nat) : Dev :=
  let r := (d.core c).role
  let d := d.updCore c fun k => { k with role := 15 }
  d.when (r < 8) fun d =>
    (d.cairnTrig CAIRN.TRIG.NO_SPARE 9 0x07 c 5 r 0).report { type := 18, kind := 6, index := r } []

/-- What a core reset discards (R189): undrained stores, counted in the Cairn; outstanding loads; the reservation; an LDIO it
waits for. STIO already issued go on. -/
def Dev.coreDiscard (d : Dev) (c : Nat) : Dev :=
  let k := d.core c
  let d := d.when (!k.sb.isEmpty) fun d => d.cairnPush 0x07 c 1 k.sb.length k.pc.toNat
  let d := { d with spur := { d.spur with orphans := d.spur.orphans ++ k.stios.map fun t => (c, t) } }
  d.updCore c fun k =>
    { k with
      sb := [], loads := [], rsv := none, stios := [], wait := .none
      lateLdio := k.lateLdio + (if k.ldio.isSome then 1 else 0), ldio := none }

/-- The lowest-numbered spare (R435): a core without a role that has not failed, is not being reloaded and is fit. -/
def Dev.findSpare (d : Dev) : Nat :=
  let reloading := match d.summit.fw with | some f => f.reloading | none => none
  ((List.range 9).find? fun c => (d.core c).role == 15 && (d.core c).mode != .failed && !(d.core c).unfit && reloading != some c
    && !(d.rd SPUR.HANDOVER.FAILED).testBit c).getD 15

/-- Steps 1 and 2 of R193 for a core that fails (cause 1 nested, 2 SRAM, 3 watchdog). The failed core stops and is held; the
spare stops at its boundary and drains. With no spare the role stops. -/
def Dev.coreFail (d : Dev) (c cause : Nat) : Dev :=
  let k := d.core c
  let d := d.cairnPush 0x07 c 3 cause k.pc.toNat
  let d := d.coreDiscard c
  let d := d.updCore c fun k => { k with mode := .failed }
  let d := d.wr SPUR.HANDOVER.FAILED 0 (d.rd SPUR.HANDOVER.FAILED ||| 2 ^ c)
  let d : Dev := { d with bist := { d.bist with last := SMap.put 0 d.bist.last (2 * 256 + c) 0 } }
  -- a failure ends an update (R396); the reply goes out when the move or the reload that runs is over
  let d : Dev := { d with summit := { d.summit with fw := d.summit.fw.map fun f => { f with aborted := true } } }
  let d := (d.wr SPUR.HANDOVER_PC_LO.PC 0 k.pc.toNat).wr SPUR.HANDOVER_PC_HI.PC 0 (k.pc.toNat / 2 ^ 32)
  let sp := d.spare
  if sp = c then
    -- the spare itself fails: the next spare (R435) takes what was on its way to it; with none left that role stops
    let new := d.findSpare
    let d := d.wr SPUR.HANDOVER.SPARE 0 new
    match d.spur.moving with
    | some (from_, _) =>
      let went := d.spur.step == 2
      if went && new != 15 then d.drainAll new
      else
        let d := ({ d with spur := { d.spur with moving := none, step := 0 } } : Dev).wr SPUR.HANDOVER.STATE 0 0
        if went then d.roleStops from_ else d.updCore from_ fun k => { k with outgoing := false }
    | none => d
  else if sp = 15 ∨ (d.spur.moving.isSome ∧ d.spur.moving ≠ some (c, false)) then d.roleStops c
  else
    let d := (d.drainAll sp).wr SPUR.HANDOVER.STATE 0 2
    let new := d.summit.fw.isSome && d.spur.moving == some (c, false)
    { d with spur := { d.spur with moving := some (c, true), step := 2, noCopy := new } }

/-! ### Exceptions (R62 to R66) -/

/-- Writes the entry: HPC, HCAUSE, HADDR, SFLAGS, HANDLER; the reservation is cleared; the pc goes to the vector (R63). -/
def SpurCore.enter (k : SpurCore) (code detail dlnum : Nat) (hpc haddr : W64) : SpurCore :=
  { k with
    hpc := hpc
    hcause := BitVec.ofNat 64 (code + 16 * detail + 256 * dlnum)
    haddr := haddr
    sflags := k.flags
    handler := true
    rsv := none
    bpSkip := false
    wait := .none
    pc := k.hvec + BitVec.ofNat 64 (0x40 * code) }

/-- Taking an asynchronous exception: a deadline miss or a handover (R62 codes 5 and 7). -/
def Dev.takeAsync (d : Dev) (c code detail dlnum : Nat) (hpc haddr : W64) : Dev :=
  (d.drainAll c).updCore c fun k => k.enter code detail dlnum hpc haddr

/-- Taking a synchronous exception (R63); inside a handler the core stops, both causes are recorded and it fails (R66). -/
def Dev.takeSync (d : Dev) (c code detail : Nat) (hpc haddr : W64) : Dev :=
  let k := d.core c
  if k.handler then
    let nested := code + 16 * detail
    let d := d.cairnPush 0x07 c 2 (k.hcause.toNat % 2 ^ 32 + 2 ^ 32 * nested) hpc.toNat
    d.coreFail c 1
  else (d.drainAll c).updCore c fun k => k.enter code detail 0 hpc haddr

/-- An illegal-instruction exception at the pc; HADDR holds the word (R62). -/
def Dev.illegal (d : Dev) (c detail word : Nat) : Dev :=
  d.takeSync c 1 detail (d.core c).pc (BitVec.ofNat 64 word)

/-! ### Device accesses that end at their port (R53, R175, R266) -/

/-- The port of a port-space address. -/
def portOfAddr (a : Nat) : Nat := bits a 33 7

/-- An STIO is discarded at its port. -/
def Dev.stioDiscard (d : Dev) (c : Nat) (t : OutStio) : Dev :=
  d.updCore c fun k =>
    { k with dfDiscard := true, dfCount := min 65535 (k.dfCount + 1), dfLast := BitVec.ofNat 32 t.addr }

/-- A waiting LDIO ends in a device-access error; its response, if it comes, is late. -/
def Dev.ldioFault (d : Dev) (c detail late : Nat) : Dev :=
  match (d.core c).ldio with
  | none => d
  | some l =>
    (d.updCore c fun k => { k with ldio := none, wait := .none, lateLdio := k.lateLdio + late }).takeSync c 4 detail l.pc
      (BitVec.ofNat 64 l.addr)

/-- What the freeze of a port does to the accesses of Spur cores: accepted STIO that it has not sent are discarded, a waiting LDIO
ends. -/
def Dev.freezeIo (d : Dev) (p : Nat) : Dev :=
  let d := d.forIn' (d.spur.staged.filter fun x => x.2.port == some p) fun x d => d.stioDiscard x.1 x.2
  let d : Dev := { d with spur := { d.spur with staged := d.spur.staged.filter fun x => x.2.port != some p } }
  d.each 9 fun c d =>
    d.when ((d.core c).ldio.any fun l => addrClass l.addr == .port && portOfAddr l.addr == p) fun d => d.ldioFault c 2 1

/-! ### Outstanding loads (R176, R177, R182) -/

/-- The value a load brings when it is performed: poison ends in a device-access error with DETAIL 2 (R178), in an SRAM word
it fails the core (R191) and is not outstanding. -/
def Dev.loadResult (d : Dev) (l : OutLoad) : LoadResult :=
  match l.result with
  | some r => r
  | none =>
    if (if l.tarn then SMap.get false d.tarn.poison ((l.flat - tarnBase) / 64) else d.poisoned l.flat) then .fault 4 2 else .value (extend l.signed l.size (d.load l.flat l.size))

/-- Fixes the value of load `l`. -/
def Dev.perform (d : Dev) (l : OutLoad) : OutLoad := { l with result := some (d.loadResult l) }

/-- A response to the load with tag `tag`: older loads to the same memory are performed first (R182), then it is, and it has
arrived. -/
def Dev.respond (d : Dev) (c tag : Nat) : Dev :=
  let k := d.core c
  match k.loads.find? (fun l => l.tag == tag) with
  | none => d
  | some t =>
    let go (acc : List OutLoad × Bool) (l : OutLoad) : List OutLoad × Bool :=
      if acc.2 then (acc.1 ++ [l], true)
      else if l.tag = tag then (acc.1 ++ [{ d.perform l with arrived := true }], true)
      else if l.tarn = t.tarn then (acc.1 ++ [d.perform l], false)
      else (acc.1 ++ [l], false)
    d.setCore c { k with loads := (k.loads.foldl go ([], false)).1 }

/-- The oldest load retires if it has arrived: its value goes to its register, or its fault is taken and every younger one is
discarded (R177). -/
def Dev.retireOne (d : Dev) (c : Nat) : Dev :=
  let k := d.core c
  match k.loads with
  | [] => d
  | l :: ls =>
    if l.arrived then
      match l.result with
      | some (.fault code detail) =>
        (d.setCore c { k with loads := [] }).takeSync c code detail l.pc (BitVec.ofNat 64 l.addr)
      | some (.value v) => d.setCore c { (k.wrG l.rd v) with loads := ls }
      | none => d
    else d

/-- Retires every load that can, at most `n`. -/
def Dev.retireN (d : Dev) (c : Nat) : Nat → Dev
  | 0 => d
  | n + 1 => (d.retireOne c).retireN c n

/-- Waits for every outstanding load: each is performed and retired in program order. -/
def Dev.settleN (d : Dev) (c : Nat) : Nat → Dev
  | 0 => d
  | n + 1 =>
    match (d.core c).loads with
    | [] => d
    | l :: _ => ((d.respond c l.tag).retireOne c).settleN c n

/-- Waits for every outstanding load of core `c`. -/
def Dev.settle (d : Dev) (c : Nat) : Dev := d.settleN c (d.core c).loads.length

/-! ### The instruction boundary (R64, R65) -/

/-- The core executes instructions: it runs, does not stall, is not the spare that a handover has stopped. -/
def Dev.spurReady (d : Dev) (c : Nat) : Bool :=
  let k := d.core c
  d.coreUp && k.mode == .running && k.wait == .none && !(d.spur.step == 2 && d.spare == c)

/-- The lowest-numbered pending deadline miss (DESIGN CHOICE: lowest first). -/
def SpurCore.missOf (k : SpurCore) : Option Nat :=
  (List.range 8).find? fun n => (SMap.get {} k.dl n).pending

/-- A deadline of the core. -/
def SpurCore.deadline (k : SpurCore) (n : Nat) : Deadline := SMap.get {} k.dl n

/-- Replaces a deadline of the core. -/
def SpurCore.setDeadline (k : SpurCore) (n : Nat) (x : Deadline) : SpurCore := { k with dl := SMap.put {} k.dl n x }

/-- An asynchronous exception is due at this boundary: outside a handler, an outgoing handover or a deadline miss. -/
def SpurCore.asyncDue (k : SpurCore) : Bool := !k.handler && (k.outgoing || k.missOf.isSome)

/-- Takes the asynchronous exception that is due: the handover first, then the deadline miss (R64). HPC is the next
instruction, which is the pc. -/
def Dev.takeDue (d : Dev) (c : Nat) : Dev :=
  let k := d.core c
  if k.handler then d
  else if k.outgoing then
    (d.updCore c fun k => { k with outgoing := false }).takeAsync c 7 1 0 k.pc (BitVec.ofNat 64 d.spare)
  else match k.missOf with
    | none => d
    | some n =>
      let x := k.deadline n
      (d.updCore c fun k => k.setDeadline n { x with pending := false }).takeAsync c 5 0 n k.pc x.value

/-- The breakpoint that matches the pc (R62, R67). -/
def SpurCore.bpHit (k : SpurCore) : Option Nat :=
  if k.bpSkip then none
  else (List.range 4).find? fun n => k.bpctl.getLsbD n && SMap.get 0 k.bpaddr n == k.pc

/-- The core is at an instruction with nothing in its way: the state in which an instruction has its own effect. -/
def Dev.quiet (d : Dev) (c : Nat) : Bool :=
  let k := d.core c
  d.spurReady c && k.loads.isEmpty && !k.asyncDue && k.bpHit == none &&
    addrClass k.pc.toNat == .isram && !d.poisoned (flatOf c k.pc.toNat)

/-- The boundary in front of an instruction with older loads retired: an asynchronous exception, a breakpoint match or a
fetch fault is taken instead of the instruction; else the instruction runs. -/
def Dev.atBoundary (d : Dev) (c : Nat) (body : Dev → Dev) : Dev :=
  let k := d.core c
  if k.asyncDue then d.takeDue c
  else match k.bpHit with
    | some n =>
      -- only HADDR[1:0] is given (R62); the other bits are free
      let x := d.draw
      x.2.takeSync c 6 1 k.pc (x.1 &&& ~~~3#64 ||| BitVec.ofNat 64 n)
    | none =>
      if addrClass k.pc.toNat != .isram then d.takeSync c 2 0 k.pc k.pc
      else if d.poisoned (flatOf c k.pc.toNat) then d.coreFail c 2
      else body ((d.updCore c fun k => { k with bpSkip := false }).event 0x140 c)

/-- A core that executes one instruction for the debugger halts again after it (R389). -/
def Dev.stepEnd (d : Dev) (c : Nat) : Dev :=
  d.when (d.summit.stepping.contains c) fun d =>
    let d := d.updCore c fun k => { k with mode := if k.mode == .running then .halted else k.mode }
    { d with summit := { d.summit with stepping := d.summit.stepping.erase c } }

/-- Core `c` executes one instruction: older loads retire first; if one faults, the instruction is discarded (R177). -/
def Dev.spurInstr (d : Dev) (c : Nat) (body : Dev → Dev) : Dev :=
  if d.spurReady c then
    let pc := (d.core c).pc
    let d := d.settle c
    (if d.spurReady c ∧ (d.core c).pc = pc then d.atBoundary c body else d).stepEnd c
  else d

/-- The pc moves to the next instruction. -/
def SpurCore.advance (k : SpurCore) : SpurCore := { k with pc := k.pc + 4 }

/-- An instruction that only changes its core's registers. -/
def Dev.spurAlu (d : Dev) (c : Nat) (f : SpurCore → SpurCore) : Dev :=
  d.spurInstr c fun d => d.updCore c fun k => (f k).advance

end Sys2Proof.Machine
end

