-- ==== Sys2Proof/Machine/Alu.lean ====
section
/-! DEFINITION. Register and immediate operations (R33 to R36), for a Spur core or a Notch run. -/

namespace Sys2Proof.Machine

open Sys2Proof

/-- A register operation of two sources: `fn` is its fn for the illegal-instruction word of a Spur core that meets a set bank
bit (R28). -/
def Dev.regOp (d : Dev) (e : Engine) (fn : Nat) (rd : Dst) (rs1 rs2 : Src) (f : W64 → W64 → W64) : Dev :=
  match e with
  | .spur c =>
    d.spurInstr c fun d =>
      match rd, rs1, rs2 with
      | .g t, .g a, .g b =>
        d.updCore c fun k => (k.wrG t.val (f (k.rdG a.val) (k.rdG b.val))).advance
      | _, _, _ => d.illegal c 0 (wordA fn rd rs1 rs2)
  | .notch r => d.notchAlu r fun n => n.send 1 (dstLand rd) (f (n.rd rs1) (n.rd rs2))

/-- An immediate operation. -/
def Dev.immOp (d : Dev) (e : Engine) (op : Nat) (rd : Dst) (rs1 : Src) (imm : Nat) (f : W64 → W64) : Dev :=
  match e with
  | .spur c =>
    d.spurInstr c fun d =>
      match rd, rs1 with
      | .g t, .g a => d.updCore c fun k => (k.wrG t.val (f (k.rdG a.val))).advance
      | _, _ => d.illegal c 0 (wordI op rd rs1 imm)
  | .notch r => d.notchAlu r fun n => n.send 1 (dstLand rd) (f (n.rd rs1))

/-- A comparison of two registers: only flags change. -/
def Dev.cmpOp (d : Dev) (e : Engine) (fn : Nat) (rs1 rs2 : Src) (f : Flags → W64 → W64 → Flags) : Dev :=
  match e with
  | .spur c =>
    d.spurInstr c fun d =>
      match rs1, rs2 with
      | .g a, .g b => d.updCore c fun k => { k with flags := f k.flags (k.rdG a.val) (k.rdG b.val) }.advance
      | _, _ => d.illegal c 0 (wordA fn (.g 0) rs1 rs2)
  | .notch r => d.notchAlu r fun n => n.send 1 .zncv 0 (f n.flags (n.rd rs1) (n.rd rs2))

/-- A comparison with an immediate. -/
def Dev.cmpImmOp (d : Dev) (e : Engine) (op : Nat) (rs1 : Src) (imm : BitVec 14) (k' : W64)
    (f : Flags → W64 → W64 → Flags) : Dev :=
  match e with
  | .spur c =>
    d.spurInstr c fun d =>
      match rs1 with
      | .g a => d.updCore c fun k => { k with flags := f k.flags (k.rdG a.val) k' }.advance
      | _ => d.illegal c 0 (wordI op (.g 0) rs1 imm.toNat)
  | .notch r => d.notchAlu r fun n => n.send 1 .zncv 0 (f n.flags (n.rd rs1) k')

/-- A Spur-only operation of two sources. -/
def Dev.spurOp (d : Dev) (c : Nat) (rd rs1 rs2 : Nat) (f : W64 → W64 → W64) : Dev :=
  d.spurAlu c fun k => k.wrG rd (f (k.rdG rs1) (k.rdG rs2))

def execAdd (e : Engine) (rd : Dst) (rs1 rs2 : Src) (s : State) := s.lift fun d => d.regOp e 0x00 rd rs1 rs2 (· + ·)
def execSub (e : Engine) (rd : Dst) (rs1 rs2 : Src) (s : State) := s.lift fun d => d.regOp e 0x01 rd rs1 rs2 (· - ·)
def execAnd (e : Engine) (rd : Dst) (rs1 rs2 : Src) (s : State) := s.lift fun d => d.regOp e 0x02 rd rs1 rs2 (· &&& ·)
def execOr (e : Engine) (rd : Dst) (rs1 rs2 : Src) (s : State) := s.lift fun d => d.regOp e 0x03 rd rs1 rs2 (· ||| ·)
def execXor (e : Engine) (rd : Dst) (rs1 rs2 : Src) (s : State) := s.lift fun d => d.regOp e 0x04 rd rs1 rs2 (· ^^^ ·)
def execAndn (e : Engine) (rd : Dst) (rs1 rs2 : Src) (s : State) :=
  s.lift fun d => d.regOp e 0x05 rd rs1 rs2 fun a b => a &&& ~~~b
def execShl (e : Engine) (rd : Dst) (rs1 rs2 : Src) (s : State) :=
  s.lift fun d => d.regOp e 0x06 rd rs1 rs2 fun a b => a <<< shiftCount b
def execShr (e : Engine) (rd : Dst) (rs1 rs2 : Src) (s : State) :=
  s.lift fun d => d.regOp e 0x07 rd rs1 rs2 fun a b => a >>> shiftCount b
def execSar (e : Engine) (rd : Dst) (rs1 rs2 : Src) (s : State) :=
  s.lift fun d => d.regOp e 0x08 rd rs1 rs2 fun a b => a.sshiftRight (shiftCount b)
def execMin (e : Engine) (rd : Dst) (rs1 rs2 : Src) (s : State) := s.lift fun d => d.regOp e 0x09 rd rs1 rs2 minS
def execMax (e : Engine) (rd : Dst) (rs1 rs2 : Src) (s : State) := s.lift fun d => d.regOp e 0x0A rd rs1 rs2 maxS
def execMinu (e : Engine) (rd : Dst) (rs1 rs2 : Src) (s : State) := s.lift fun d => d.regOp e 0x0B rd rs1 rs2 minU
def execMaxu (e : Engine) (rd : Dst) (rs1 rs2 : Src) (s : State) := s.lift fun d => d.regOp e 0x0C rd rs1 rs2 maxU
def execCmp (e : Engine) (rs1 rs2 : Src) (s : State) := s.lift fun d => d.cmpOp e 0x0D rs1 rs2 Flags.cmp
def execTst (e : Engine) (rs1 rs2 : Src) (s : State) := s.lift fun d => d.cmpOp e 0x0E rs1 rs2 Flags.tst
def execHash (e : Engine) (rd : Dst) (rs1 rs2 : Src) (s : State) := s.lift fun d => d.regOp e 0x0F rd rs1 rs2 hashOf

def execMul (c : Fin 9) (rd rs1 rs2 : Fin 32) (s : State) := s.lift fun d => d.spurOp c rd rs1 rs2 (· * ·)
def execMulhu (c : Fin 9) (rd rs1 rs2 : Fin 32) (s : State) := s.lift fun d => d.spurOp c rd rs1 rs2 mulhuOf
def execDivu (c : Fin 9) (rd rs1 rs2 : Fin 32) (s : State) := s.lift fun d => d.spurOp c rd rs1 rs2 divuOf
def execRemu (c : Fin 9) (rd rs1 rs2 : Fin 32) (s : State) := s.lift fun d => d.spurOp c rd rs1 rs2 remuOf
def execClz (c : Fin 9) (rd rs1 : Fin 32) (s : State) := s.lift fun d => d.spurOp c rd rs1 0 fun a _ => clzOf a
def execPopc (c : Fin 9) (rd rs1 : Fin 32) (s : State) := s.lift fun d => d.spurOp c rd rs1 0 fun a _ => popcOf a

def execAddi (e : Engine) (rd : Dst) (rs1 : Src) (imm : BitVec 14) (s : State) :=
  s.lift fun d => d.immOp e 0x01 rd rs1 imm.toNat (· + immS imm)
def execAndi (e : Engine) (rd : Dst) (rs1 : Src) (imm : BitVec 14) (s : State) :=
  s.lift fun d => d.immOp e 0x02 rd rs1 imm.toNat (· &&& immZ imm)
def execOri (e : Engine) (rd : Dst) (rs1 : Src) (imm : BitVec 14) (s : State) :=
  s.lift fun d => d.immOp e 0x03 rd rs1 imm.toNat (· ||| immZ imm)
def execXori (e : Engine) (rd : Dst) (rs1 : Src) (imm : BitVec 14) (s : State) :=
  s.lift fun d => d.immOp e 0x04 rd rs1 imm.toNat (· ^^^ immZ imm)
def execShli (e : Engine) (rd : Dst) (rs1 : Src) (k : Fin 64) (s : State) :=
  s.lift fun d => d.immOp e 0x05 rd rs1 k (· <<< k.val)
def execShri (e : Engine) (rd : Dst) (rs1 : Src) (k : Fin 64) (s : State) :=
  s.lift fun d => d.immOp e 0x06 rd rs1 k (· >>> k.val)
def execSari (e : Engine) (rd : Dst) (rs1 : Src) (k : Fin 64) (s : State) :=
  s.lift fun d => d.immOp e 0x07 rd rs1 k fun a => a.sshiftRight k.val
def execCmpi (e : Engine) (rs1 : Src) (imm : BitVec 14) (s : State) :=
  s.lift fun d => d.cmpImmOp e 0x08 rs1 imm (immS imm) Flags.cmp
def execTsti (e : Engine) (rs1 : Src) (imm : BitVec 14) (s : State) :=
  s.lift fun d => d.cmpImmOp e 0x09 rs1 imm (immZ imm) Flags.tst
def execCati (e : Engine) (rd : Dst) (rs1 : Src) (imm : BitVec 14) (s : State) :=
  s.lift fun d => d.immOp e 0x0A rd rs1 imm.toNat fun a => a <<< 14 ||| immZ imm
def execExti (e : Engine) (rd : Dst) (rs1 : Src) (p n1 : Fin 64) (s : State) :=
  s.lift fun d => d.immOp e 0x0B rd rs1 (p + 64 * n1) fun a => extract a p n1
def execExtsi (e : Engine) (rd : Dst) (rs1 : Src) (p n1 : Fin 64) (s : State) :=
  s.lift fun d => d.immOp e 0x0C rd rs1 (p + 64 * n1) fun a => extractS a p n1

/-- INSI reads rd as well; an o register's kept bits are zero (R36). -/
def execInsi (e : Engine) (rd : Dst) (rs1 : Src) (p n1 : Fin 64) (s : State) :=
  s.lift fun d =>
    match e with
    | .spur c =>
      d.spurInstr c fun d =>
        match rd, rs1 with
        | .g t, .g a =>
          d.updCore c fun k => (k.wrG t.val (insert (k.rdG t.val) (k.rdG a.val) p n1)).advance
        | _, _ => d.illegal c 0 (wordI 0x0D rd rs1 (p + 64 * n1))
    | .notch r =>
      d.notchAlu r fun n =>
        n.send 1 (dstLand rd) (insert (match rd with | .g t => n.rd (.g t) | .o _ => 0) (n.rd rs1) p n1)

end Sys2Proof.Machine
end

