-- ==== Sys2Proof/Machine/Ctx.lean ====
section
/-! DEFINITION. The transfer context store: guarantees and shared pool, grants, tags, releases, quarantine (R199 to R203). -/

namespace Sys2Proof.Machine

open Sys2Proof

def Dev.ctx? (d : Dev) (i : Nat) : Option CtxEnt := SMap.get none d.trv.ctx i
def Dev.setCtx (d : Dev) (i : Nat) (e : Option CtxEnt) : Dev :=
  { d with trv := { d.trv with ctx := SMap.put none d.trv.ctx i e } }

/-- Free contexts of the shared pool as counted; CTX.STATUS.SHARED_FREE shows it when no guarantee is short (R200). -/
def Dev.guarFree (d : Dev) (p : Nat) : Nat := SMap.get 0 d.trv.guarFree p
def Dev.guarOn (d : Dev) (p : Nat) : Bool := SMap.get false d.trv.guarOn p
def Dev.setGuarFree (d : Dev) (p n : Nat) : Dev :=
  { d with trv := { d.trv with guarFree := SMap.put 0 d.trv.guarFree p n } }
def Dev.setGuarOn (d : Dev) (p : Nat) (b : Bool) : Dev :=
  { d with trv := { d.trv with guarOn := SMap.put false d.trv.guarOn p b } }

/-- Contexts of port `p` granted from its guarantee. -/
def Dev.guarHeld (d : Dev) (p : Nat) : Nat :=
  (SMap.keys (fun _ e => match e with | some c => c.port == p && c.guar | none => false) d.trv.ctx).length

/-- How many contexts the guarantee of port `p` still lacks of its 32. -/
def Dev.guarShort (d : Dev) (p : Nat) : Nat :=
  if d.guarOn p then 32 - min 32 (d.guarFree p + d.guarHeld p) else 0

/-- `n` contexts come to the shared pool: guarantees that are short take them first (R200). -/
def Dev.toShared (d : Dev) (n : Nat) : Dev :=
  let go (x : Nat × Dev) (p : Nat) : Nat × Dev :=
    let k := min x.1 (x.2.guarShort p)
    (x.1 - k, if k = 0 then x.2 else x.2.setGuarFree p (x.2.guarFree p + k))
  let r := (SMap.keys (fun _ b => b) d.trv.guarOn).foldl go (n, d)
  r.2.wr CTX.STATUS.SHARED_FREE 0 (r.2.rd CTX.STATUS.SHARED_FREE + r.1)

/-- A port becomes configured: its guarantee takes what the shared pool has (R200). -/
def Dev.guarOpen (d : Dev) (p : Nat) : Dev :=
  if d.guarOn p then d
  else
    let d := d.setGuarOn p true
    let k := min (d.guarShort p) (d.rd CTX.STATUS.SHARED_FREE)
    (d.setGuarFree p (d.guarFree p + k)).wr CTX.STATUS.SHARED_FREE 0 (d.rd CTX.STATUS.SHARED_FREE - k)

/-- A port stops being configured: its free guaranteed contexts return to the pool, and what it holds returns on release. -/
def Dev.guarClose (d : Dev) (p : Nat) : Dev :=
  if d.guarOn p then
    let n := d.guarFree p
    let d := (d.setGuarFree p 0).setGuarOn p false
    let held := d.trv.ctx.map fun x =>
      (x.1, x.2.map fun c => if c.port = p then { c with guar := false } else c)
    { d with trv := { d.trv with ctx := held } }.toShared n
  else d

/-- Where a grant for tenant `n` at port `p` comes from, if it can be granted: true the guarantee, false the shared pool. -/
def Dev.grantFrom (d : Dev) (n p : Nat) : Option Bool :=
  if d.rd CTX.TEN_USE.USED n < d.rd CTX.TEN_CAP.CAP n then
    if d.rd CTX.PORT_USE.USED p < 32 ∧ d.guarOn p then (if 0 < d.guarFree p then some true else none)
    else if 0 < d.rd CTX.STATUS.SHARED_FREE then some false
    else none
  else none

/-- Size of the egress port's tag space (R202). -/
def Dev.tagSpace (d : Dev) (p : Nat) : Nat := 2 ^ SMap.get 14 d.trv.tagBits p

/-- The lowest tag no context of the egress port holds (R202). -/
def Dev.freeTag (d : Dev) (p : Nat) : Option Nat :=
  let used := d.trv.ctx.filterMap fun x => match x.2 with
    | some c => if c.egress = p ∧ c.user ≠ .queue then some c.tag else none
    | none => none
  (List.range (used.length + 1)).find? fun t => decide (t < d.tagSpace p) && !used.contains t

/-- The lowest free context index. -/
def Dev.freeCtx (d : Dev) : Option Nat :=
  (List.range (d.trv.ctx.length + 1)).find? fun i => decide (i < 16384) && (d.ctx? i).isNone

/-- Grants a context if the rules allow it; answers its index. -/
def Dev.allocCtx (d : Dev) (e : CtxEnt) : Option (Nat × Dev) :=
  match d.grantFrom e.tenant e.port, d.freeCtx with
  | some g, some i =>
    let d := d.setCtx i (some { e with guar := g })
    let d := if g then d.setGuarFree e.port (d.guarFree e.port - 1)
      else d.wr CTX.STATUS.SHARED_FREE 0 (d.rd CTX.STATUS.SHARED_FREE - 1)
    let d := d.wr CTX.PORT_USE.USED e.port (d.rd CTX.PORT_USE.USED e.port + 1)
    let u := d.rd CTX.TEN_USE.USED e.tenant + 1
    let d := d.wr CTX.TEN_USE.USED e.tenant u
    some (i, d.wr CTX.TEN_USE.PEAK e.tenant (max u (d.rd CTX.TEN_USE.PEAK e.tenant)))
  | _, _ => none

/-- Releases a context to the pool it came from (R200). -/
def Dev.releaseCtx (d : Dev) (i : Nat) : Dev :=
  match d.ctx? i with
  | none => d
  | some c =>
    let d := d.setCtx i none
    let d := d.wr CTX.PORT_USE.USED c.port (d.rd CTX.PORT_USE.USED c.port - 1)
    let d := d.wr CTX.TEN_USE.USED c.tenant (d.rd CTX.TEN_USE.USED c.tenant - 1)
    let d := if c.quarantined then d.wr CTX.STATUS.QUARANTINED 0 (d.rd CTX.STATUS.QUARANTINED - 1) else d
    if c.guar ∧ d.guarOn c.port then d.setGuarFree c.port (d.guarFree c.port + 1) else d.toShared 1

/-- Quarantines a context: it stays charged and its tag is not reused (R271, R272). -/
def Dev.quarantine (d : Dev) (i : Nat) : Dev :=
  match d.ctx? i with
  | some c =>
    if c.quarantined then d
    else (d.setCtx i (some { c with quarantined := true })).wr CTX.STATUS.QUARANTINED 0
      (d.rd CTX.STATUS.QUARANTINED + 1)
  | none => d

/-- The context a completion matches by its ingress port and tag (R202). -/
def Dev.matchCtx (d : Dev) (p tag : Nat) : Option Nat :=
  SMap.first (fun _ e => match e with
    | some c => c.user != .queue && c.user != .tunnel && c.egress == p && c.tag == tag
    | none => false) d.trv.ctx

/-- The context word of R77. -/
def Dev.ctxWord (d : Dev) (c : CtxEnt) : W64 :=
  BitVec.ofNat 64 (c.origTag + c.origRid * 2 ^ 14 + c.origDev * 2 ^ 30 + c.origPort * 2 ^ 38 + c.tenant * 2 ^ 45
    + (if c.origDev = d.rd FABRIC.ID.DEV then 0 else 2 ^ 54))

end Sys2Proof.Machine
end

