-- ==== Sys2Proof/Machine/Dispose.lean ====
section
/-! DEFINITION. Ends of packets and requests that the device itself brings about: completions toward a requester, posted-discard
notices, unexpected completions, freed blocks (R43, R76, R77, R100, R243, R249 to R251, R266). -/

namespace Sys2Proof.Machine

open Sys2Proof

/-! ### The segment header (R232) -/

def segBits (f : Frame) (lsb w : Nat) : Nat := bits (f.h14.toNat + 2 ^ 64 * (f.h15.toNat % 2 ^ 32)) lsb w
def segMc (f : Frame) : Bool := segBits f 3 1 == 1
def segDstDev (f : Frame) : Nat := segBits f 4 8
def segDstPort (f : Frame) : Nat := segBits f 12 7
def segSrcDev (f : Frame) : Nat := segBits f 19 8
def segSrcPort (f : Frame) : Nat := segBits f 27 7
def segHops (f : Frame) : Nat := segBits f 46 5
def segFlow (f : Frame) : Nat := segBits f 64 16
def segTrk (f : Frame) : Nat := segBits f 80 14
def segTrkV (f : Frame) : Bool := segBits f 94 1 == 1
def segSrcHost (f : Frame) : Bool := segBits f 95 1 == 1

/-! ### What a frame is -/

/-- The sub-queue of a frame (R108, R481). -/
def subOf (f : Frame) : SubQ :=
  match f.ftype with
  | 0 | 2 | 3 | 6 => .nonPosted
  | 1 | 5 | 7 | 10 => .posted
  | 4 | 8 => .completion
  | _ => f.sub

/-- A PCI Express request's or completion's tag, requester ID and attributes (R74). -/
def frameTag (f : Frame) : Nat := bits f.h1.toNat 16 14
def frameRid (f : Frame) : Nat := f.h1.toNat % 65536
def frameRo (f : Frame) : Bool := f.h1.getLsbD 33
def frameIdo (f : Frame) : Bool := f.h1.getLsbD 34

/-- L: the bytes of the packet, header and payload (R101). -/
def frameLen (f : Frame) : Nat := f.head.length + f.data.length

/-- Blocks of 64 bytes a packet holds (R101). -/
def frameBlocks (f : Frame) : Nat := (frameLen f + 63) / 64

/-- The slot of a port is one that the tile's bifurcation uses (R10, R283). -/
def Dev.slotUsed (d : Dev) (p : Nat) : Bool := p % 8 % 2 ^ (3 - d.rd TILE.BIFUR.MODE (p / 8)) == 0

/-- A port is a Theox port (R284); a tile bifurcated 8×2 carries none (R222). -/
def Dev.theox (d : Dev) (p : Nat) : Bool := d.on PORT.THX_CTL.THEOX p && d.slotUsed p && d.rd TILE.BIFUR.MODE (p / 8) != 3

/-- A port faces a host (R284 ROLE 1). -/
def Dev.upstream (d : Dev) (p : Nat) : Bool := d.rd PORT.CFG.ROLE p == 1 && !d.on PORT.THX_CTL.THEOX p && d.slotUsed p
def Dev.downstream (d : Dev) (p : Nat) : Bool := d.rd PORT.CFG.ROLE p == 2 && !d.on PORT.THX_CTL.THEOX p && d.slotUsed p

/-- A port is configured: it has a role or is a Theox port, and the bifurcation uses its slot (R283, R284). -/
def Dev.configured (d : Dev) (p : Nat) : Bool := d.upstream p || d.downstream p || d.theox p

/-- The requester of a request is host-side (R266). -/
def Dev.hostSide (d : Dev) (p : Nat) (f : Frame) : Bool := if f.fabric then segSrcHost f else d.upstream p

/-- A link is up: DL_ACTIVE on a PCI Express port, T.ACTIVE or T.RECOVERY (STATE 5, 6) on a Theox port (R223). -/
def Dev.linkUp (d : Dev) (p : Nat) : Bool :=
  if d.on PORT.THX_CTL.THEOX p then d.rd PORT.THX_STATUS.STATE p == 5 || d.rd PORT.THX_STATUS.STATE p == 6 else d.on PORT.LINK_STATUS.DL_ACTIVE p

def Dev.frozen (d : Dev) (p : Nat) : Bool := d.on PORT.CTN_STATUS.FROZEN p
def Dev.tenFrozen (d : Dev) (n : Nat) : Bool := d.on CTN.TEN_STATUS.FROZEN n

/-- A valid route toward a device exists (R244). -/
def Dev.routeTo (d : Dev) (dev : Nat) : Bool := d.on FABRIC.ROUTE.VALID dev

/-! ### Into the fabric -/

/-- A frame the device itself sends into the fabric (R243, R249): without a route it is discarded and counted. -/
def Dev.sendFabric (d : Dev) (dev port cls kind : Nat) (trk : Option Nat) (data : List Byte) : Dev :=
  if d.routeTo dev then d.emit (.fabric dev port cls kind trk data) else d.bump FABRIC.DROP.NOROUTE 0

/-! ### Completions (R43, R243) -/

/-- Completes a request toward its requester with a status (0 SC, 1 UR, 4 CA): back in a segment when it came in one, else on
its ingress port. -/
def Dev.completeReq (d : Dev) (p : Nat) (f : Frame) (status : Nat) (data : List Byte) (ep : Bool := false) : Dev :=
  if f.fabric then
    d.sendFabric (segSrcDev f) (segSrcPort f) (segBits f 34 3) 1 (if segTrkV f then some (segTrk f) else none)
      (BitVec.ofNat 8 (status + 128 * ep.toNat) :: data)
  else d.emit (.completion p (frameRid f) (frameTag f) status ep data)

/-! ### Posted-discard notices (R249 to R251) -/

/-- A Col message the device itself makes (R254): 16 bytes of header, then the payload. SEQ is free: no rule gives it. -/
def Dev.colMessage (d : Dev) (mtype dest : Nat) (payload : List Byte) : List Byte × Dev :=
  let x := d.drawNat
  (natBytes 1 mtype ++ natBytes 1 0 ++ natBytes 2 payload.length ++ natBytes 1 (d.rd FABRIC.ID.DEV) ++ natBytes 1 dest
    ++ natBytes 1 (d.rd FABRIC.ID.FABRIC) ++ natBytes 1 3 ++ natBytes 2 x.1 ++ natBytes 2 0 ++ natBytes 4 d.timeBase ++ payload,
   x.2)

/-- The 18 bytes of a notice (R250). -/
def pdBytes (d : Dev) (k : PdKey) : List Byte :=
  natBytes 8 k.addr ++ natBytes 2 k.rid ++ natBytes 2 (min k.count 0xFFFF) ++ natBytes 1 k.reason ++ natBytes 1 (k.port % 128)
    ++ natBytes 2 (k.tenant % 512) ++ natBytes 1 (d.rd FABRIC.ID.DEV) ++ natBytes 1 (k.dport % 128)

/-- Sends one notice: a Col message of type PD_NOTICE in class 7 without TRK (R249, R255). -/
def Dev.sendPd (d : Dev) (k : PdKey) : Dev :=
  if d.routeTo k.dev then
    let m := d.colMessage 1 k.dev (pdBytes d k)
    (m.2.emit (.fabric k.dev k.port 7 4 none m.1)).bump FABRIC.PD_COUNT.SENT 0
  else d.bump FABRIC.DROP.NOROUTE 0

/-- Same origin and tenant. -/
def PdKey.same (k : PdKey) (dev port tenant : Nat) : Bool := k.dev == dev && k.port == port && k.tenant == tenant

/-- Replaces the entry of a key. -/
def Dev.putPd (d : Dev) (n : PdKey) : Dev :=
  { d with fab := { d.fab with pd := d.fab.pd.map fun x => if x.same n.dev n.port n.tenant then n else x } }

/-- A posted request that arrived in a segment is discarded at port `dport` with a reason (R249): recorded in the Cairn; a
notice goes at once, or the discard is gathered into the one that ends its 10 µs (2,500 tb). A Col message and a multicast copy (R247) draw none. -/
def Dev.pdDiscard (d : Dev) (f : Frame) (tenant addr dport reason : Nat) : Dev :=
  let d := d.cairnPush 0x02 dport 3 addr (1 + reason * 2 ^ 16)
  if f.ftype = 10 ∨ segMc f then d
  else
    let dev := segSrcDev f
    let port := segSrcPort f
    let k : PdKey := ⟨dev, port, tenant, d.timeBase, 1, addr, frameRid f, reason, dport⟩
    match d.fab.pd.find? fun k => k.same dev port tenant with
    | some o =>
      if d.timeBase - o.sentAt < 2500 then
        let n : PdKey := if o.count = 0 then { k with sentAt := o.sentAt } else { o with count := o.count + 1 }
        d.putPd n
      else (d.putPd { k with count := 0 }).sendPd k
    | none => { d with fab := { d.fab with pd := d.fab.pd ++ [{ k with count := 0 }] } }.sendPd k

/-! ### Packets -/

def Dev.pkt? (d : Dev) (i : Nat) : Option Pkt := d.sad.pkts.find? fun p => p.id == i
def Dev.setPkt (d : Dev) (p : Pkt) : Dev :=
  { d with sad := { d.sad with pkts := d.sad.pkts.map fun q => if q.id = p.id then p else q } }
def Dev.dropPkt (d : Dev) (i : Nat) : Dev :=
  { d with sad := { d.sad with pkts := d.sad.pkts.filter fun q => q.id != i } }

/-- The packet holds SRAM blocks of its tile: it is not in the Scree. -/
def Pkt.inSram (p : Pkt) : Bool :=
  match p.phase with
  | .scree _ | .back _ => false
  | _ => true

/-- Blocks of cell `i` of a packet of `n` blocks (R101). -/
def cellBlocks (n i : Nat) : Nat := min 4 (n - 4 * i)

/-- Blocks of a packet that its acknowledged cells have freed (R103). -/
def Pkt.freed (p : Pkt) : Nat :=
  (p.cells.foldl (fun (x : Nat × Nat) c =>
    (x.1 + 1, if c.acked then x.2 + cellBlocks (frameBlocks p.frame) x.1 else x.2)) (0, 0)).2

/-- Blocks a packet holds in SRAM. -/
def Pkt.blocks (p : Pkt) : Nat := if p.inSram then frameBlocks p.frame - p.freed else 0

/-- `n` blocks of a packet leave SRAM: USED falls, and the tenant's charge with it (R114). -/
def Dev.giveBlocks (d : Dev) (p : Pkt) (n : Nat) : Dev :=
  let t := p.port / 8
  let i := t * 512 + p.tenant
  let d := d.wr TILE.VOQ_STATUS.USED t (d.rd TILE.VOQ_STATUS.USED t - n)
  d.when p.charged fun d => d.wr TILE.VOQ_TEN_USE.USED i (d.rd TILE.VOQ_TEN_USE.USED i - n)

/-- Frees the blocks a packet holds in SRAM. -/
def Dev.freeBlocks (d : Dev) (p : Pkt) : Dev := d.giveBlocks p p.blocks

/-- Packets of a tile in a Scree segment. -/
def Dev.segHas (d : Dev) (t seg : Nat) : Bool :=
  d.sad.pkts.any fun q => q.port / 8 == t && (q.phase == .scree seg || q.phase == .back seg)

/-- SCREE_STATUS.IN_USE counts the segments that still hold a packet. -/
def Dev.freeSeg (d : Dev) (t seg : Nat) : Dev :=
  if d.segHas t seg then d
  else
    let d := d.wr TILE.SCREE_STATUS.IN_USE t (d.rd TILE.SCREE_STATUS.IN_USE t - 1)
    d.setOn TILE.VOQ_STATUS.SPILLING t (decide (0 < d.rd TILE.SCREE_STATUS.IN_USE t))

/-- Takes a packet out of the device: its blocks are freed, its segment too when it was the last in it; credits not yet
returned go back (R114). -/
def Dev.removePkt (d : Dev) (p : Pkt) : Dev :=
  let t := p.port / 8
  let d := (d.freeBlocks p).dropPkt p.id
  let d := d.when (!p.credited) fun d => d.emit (.credits p.port (subOf p.frame) (frameBlocks p.frame))
  match p.phase with
  | .ctxWait => d.wr CTX.PORT_USE.WAITING p.port (d.rd CTX.PORT_USE.WAITING p.port - 1)
  | .scree s | .back s => d.freeSeg t s
  | _ => d

/-- A matched context is released when the completion carries the last bytes owed (R77); a quarantine ends with it (R272). -/
def Dev.releaseMatched (d : Dev) (p : Pkt) : Dev :=
  match p.ctx with
  | some h => d.when h.last fun d => d.releaseCtx h.index
  | none => d

/-- The host domain of a requester: the one its port serves, on this device. -/
def Dev.domainOfReq (d : Dev) (dev port : Nat) : List Nat :=
  if dev = d.rd FABRIC.ID.DEV then (d.domainOfPort port).toList else []

/-- An unexpected completion is discarded, counted and recorded, to the requester's domain when it matched a context (R77, R100, R272,
R280). -/
def Dev.unexpected (d : Dev) (p : Pkt) : Dev :=
  let d := (d.bump PORT.CTN_COUNT.UNEXP_CPL p.port).event 0x019 (p.port / 8) { slot := some (p.port % 8) }
  match p.ctx with
  | some h =>
    let w := h.word.toNat
    d.report { type := 15, kind := 0, index := p.port, port := p.port, rid := bits w 14 16, tenant := bits w 45 9 }
      (d.domainOfReq (bits w 30 8) (bits w 38 7))
  | none => d.report { type := 15, kind := 0, index := p.port, port := p.port, tenant := p.tenant } []

/-- A request is disposed of with a status: completed if non-posted, discarded if posted, with the notice a segment's posted
request draws; a completion is discarded as unexpected (R43, R100). -/
def Dev.disposeStatus (d : Dev) (p : Pkt) (status reason addr : Nat) : Dev :=
  let d := match subOf p.frame with
    | .nonPosted => d.completeReq p.port p.frame status []
    | .posted => if p.frame.fabric then d.pdDiscard p.frame p.tenant addr p.port reason else d
    | .completion => (d.unexpected p).releaseMatched p
  d.removePkt p

/-- What a packet that meets a frozen or dead egress port or a frozen tenant draws (R266): posted discarded (reason 1 frozen, 2
link down), non-posted answered CA to a host-side and UR to a device-side requester, a completion discarded with its context
released, a message discarded. -/
def Dev.frozenOutcome (d : Dev) (p : Pkt) (reason : Nat) : Dev :=
  let addr := p.frame.h5.toNat
  match subOf p.frame with
  | .nonPosted => d.completeReq p.port p.frame (if d.hostSide p.port p.frame then 4 else 1) []
  | .posted =>
    if p.frame.ftype = 5 then d
    else if p.frame.fabric then d.pdDiscard p.frame p.tenant addr p.port reason
    else d.report { type := 16, kind := 0, index := p.port, port := p.port, addr := addr, rid := frameRid p.frame,
                    tenant := p.tenant, dev := d.rd FABRIC.ID.DEV } (d.domainOfPort p.port).toList
  | .completion => d.releaseMatched p

/-- The packet is disposed of so and leaves the device. -/
def Dev.disposeFrozen (d : Dev) (p : Pkt) (reason : Nat) : Dev := (d.frozenOutcome p reason).removePkt p

/-! ### The egress staging of a port (R109, R133, R134) -/

/-- Cells of a packet (R101). -/
def Pkt.cellCount (k : Pkt) : Nat := (frameLen k.frame + 255) / 256

/-- Every cell of the packet has crossed. -/
def Pkt.crossed (k : Pkt) : Bool := decide (k.cellCount ≤ k.cells.length) && k.cellCount != 0

/-- All cells have come to the egress. -/
def Staged.whole (x : Staged) : Bool := decide (x.pkt.cellCount ≤ x.have_)

def Dev.staged? (d : Dev) (port i : Nat) : Option Staged := d.sad.staged.find? fun x => x.port == port && x.pkt.id == i
def Dev.setStaged (d : Dev) (l : List Staged) : Dev := { d with sad := { d.sad with staged := l } }
def Dev.dropStaged (d : Dev) (port i : Nat) : Dev :=
  d.setStaged (d.sad.staged.filter fun x => !(x.port == port && x.pkt.id == i))

/-- A transmission in progress is nullified (R134): counted, and what had come to the egress is discarded. -/
def Dev.nullifyAt (d : Dev) (x : Staged) : Dev :=
  let d := d.dropStaged x.port x.pkt.id
  d.when x.tx fun d => (d.emit (.nullify x.port x.pkt.id)).event 0x006 (x.port / 8)
    { slot := some (x.port % 8), cls := some x.pkt.cls, tenant := some x.pkt.tenant }

/-- The last byte of a packet has left a port (R403 0x003, 0x004). -/
def Dev.sentAt (d : Dev) (x : Staged) : Dev :=
  let q : EvQual := { slot := some (x.port % 8), cls := some x.pkt.cls, tenant := some x.pkt.tenant }
  let f := x.pkt.fwd.getD x.pkt.frame
  let d := (d.dropStaged x.port x.pkt.id).emit (.sent x.port f)
  ((d.event 0x003 (x.port / 8) q).event 0x004 (x.port / 8) q (frameLen f)).bwAdd x.port 1 x.pkt.cls (frameLen f)

/-- Transmissions that are whole end; with `only` those of one port. The time passes between the commands: at a tick, and
before the port starts another packet (DESIGN CHOICE). -/
def Dev.endTransmissions (d : Dev) (only : Option Nat) : Dev :=
  d.forIn' (d.sad.staged.filter fun x => x.tx && x.whole && (match only with | some p => x.port == p | none => true))
    fun x d => d.sentAt x

end Sys2Proof.Machine
end

