-- ==== Sys2Proof/Machine/Freeze.lean ====
section
/-! DEFINITION. Freezing a port, a tenant and a tile (R263 to R270), and what it does to packets, contexts, transfers and INTx
wires. -/

namespace Sys2Proof.Machine

open Sys2Proof

/-! ### Traverse transfers (R213, R217) -/

def Dev.queue (d : Dev) (q : Nat) : Queue := SMap.get {} d.trv.queues q
def Dev.setQueue (d : Dev) (q : Nat) (x : Queue) : Dev :=
  { d with trv := { d.trv with queues := SMap.put {} d.trv.queues q x } }

/-- The tenant of a queue: that of its VF (R196). -/
def Dev.queueTenant (d : Dev) (q : Nat) : Nat := d.rd FN.VF_BIND.TENANT (q / 8)

/-- Reads of an ended transfer that are still out are marked discard (R213). -/
def Dev.lateReads (d : Dev) (x : Xfer) : Dev :=
  let out := x.reads.filter fun r => r.data.isNone
  { d with trv := { d.trv with late := d.trv.late ++ out.map fun r => ⟨x.engine * 256 + r.entry, r.ctx, r.port⟩ } }

/-- A transfer is cancelled at a segment boundary (R217): no record, no MSI-X; its issued writes are counted. -/
def Dev.cancelXfer (d : Dev) (q : Nat) : Dev :=
  let k := d.queue q
  match k.xfer with
  | none => d
  | some x =>
    let d := (d.lateReads x).bump TRV.TEN_UNRECALLED.COUNT (d.queueTenant q) (SMap.get 0 d.trv.issued q)
    let d := { d with trv := { d.trv with issued := SMap.put 0 d.trv.issued q 0 } }
    d.setQueue q { k with xfer := none, head := x.index }

/-- VFs allotted to the PFs of the domains below `dom`. -/
def Dev.vfBase (d : Dev) (dom : Nat) : Nat := (List.range dom).foldl (fun n i => n + d.rd FN.PF_VFS.TOTALVFS i) 0

/-- The host domain of global VF `v`. -/
def Dev.domainOfVf (d : Dev) (v : Nat) : Option Nat :=
  (List.range 64).find? fun i => decide (d.vfBase i ≤ v) && decide (v < d.vfBase i + d.rd FN.PF_VFS.TOTALVFS i)

/-- The upstream port of a VF. -/
def Dev.vfPort (d : Dev) (v : Nat) : Option Nat := (d.domainOfVf v).bind fun h => d.portOfDomain h

/-- A queue waits for its context no more (R201, R209): its port has one waiting request fewer. -/
def Dev.unwait (d : Dev) (q : Nat) : Dev :=
  if (d.queue q).st = 4 then
    let p := (d.vfPort (q / 8)).getD 0
    d.wr CTX.PORT_USE.WAITING p (d.rd CTX.PORT_USE.WAITING p - 1)
  else d

/-- A queue is stopped with a cause; a running transfer is cancelled and STOP_INDEX names its descriptor (R209, R218). -/
def Dev.stopQueue (d : Dev) (q cause : Nat) : Dev :=
  let k := d.queue q
  if k.st = 0 ∨ k.st = 3 then d.cancelXfer q
  else
    let i := match k.xfer with | some x => x.index | none => k.head
    let d := (d.cancelXfer q).unwait q
    d.setQueue q { d.queue q with st := 2, cause := cause, stopIndex := i }

/-- The listed queues of VF `v`. -/
def Dev.queuesOf (d : Dev) (v : Nat) : List Nat := SMap.keys (fun q _ => q / 8 == v) d.trv.queues

/-- VFs bound to a tenant. -/
def Dev.vfsOf (d : Dev) (n : Nat) : List Nat :=
  ((SMap.keys (fun k b => k % 1024 == FN.VF_BIND.BOUND.num && b == 1) d.regs).map (· / 1024)).filter fun v =>
    d.rd FN.VF_BIND.TENANT v == n

/-- Engine reads through port `p` end with a status; the transfer ends when its record is written (R271, R212). -/
def Dev.endReads (d : Dev) (p status : Nat) : Dev :=
  let qs := SMap.keys (fun _ k => match k.xfer with
    | some x => x.reads.any fun r => r.port == some p && r.data.isNone
    | none => false) d.trv.queues
  d.forIn' qs fun q d =>
    let k := d.queue q
    match k.xfer with
    | some x =>
      let d := d.lateReads x
      d.setQueue q { k with xfer := some { x with
        reads := x.reads.filter fun r => r.data.isSome
        status := some (x.status.getD status) } }
    | none => d

/-! ### Contexts at a freeze or timeout (R271) -/

/-- Completes the request of a context toward its original requester for the bytes not returned: CA for a host-side, UR for a
device-side requester; in a segment when it came in one (R243, R271). -/
def Dev.failCtx (d : Dev) (i : Nat) : Dev :=
  match d.ctx? i with
  | none => d
  | some c =>
    if c.quarantined then d
    else
      let st := if c.srcHost then 4 else 1
      let d := match c.user with
        | .queue => d
        | .engine => d
        | _ =>
          if c.origDev = d.rd FABRIC.ID.DEV then d.emit (.completion c.origPort c.origRid c.origTag st false [])
          else d.sendFabric c.origDev c.origPort 0 1 c.trk [BitVec.ofNat 8 st]
      d.quarantine i

/-- Contexts whose requests left through port `p`. -/
def Dev.ctxsOut (d : Dev) (p : Nat) : List Nat :=
  SMap.keys (fun _ e => match e with | some c => c.user != .queue && c.egress == p | none => false) d.trv.ctx

/-- Contexts charged to port `p`, other than those of queues. -/
def Dev.ctxsOf (d : Dev) (p : Nat) : List Nat :=
  SMap.keys (fun _ e => match e with | some c => c.user != .queue && c.port == p | none => false) d.trv.ctx

/-! ### INTx (R267, R304, R305) -/

/-- How many sources assert a wire of an upstream port. -/
def Dev.intxCount (d : Dev) (up wire : Nat) : Nat :=
  (d.host.intx.filter fun s => s.up == up && s.wire == wire).length

/-- PORT[p].INTX_STATUS.WIRE shows the wires whose count is above 0. -/
def Dev.intxShow (d : Dev) (up : Nat) : Dev :=
  d.wr PORT.INTX_STATUS.WIRE up
    ((List.range 4).foldl (fun v w => if 0 < d.intxCount up w then v + 2 ^ w else v) 0)

/-- A source asserts: Assert_INTx (0x20 + wire) goes out when the count leaves 0, unless the port is frozen (R304, R305). -/
def Dev.intxAssert (d : Dev) (x : IntxSrc) : Dev :=
  if x ∈ d.host.intx then d
  else
    let n := d.intxCount x.up x.wire
    let d := { d with host := { d.host with intx := d.host.intx ++ [x] } }
    let d := d.intxShow x.up
    d.when (n == 0 && !d.frozen x.up) fun d => d.emit (.message x.up (0x20 + x.wire) (d.uspRid x.up))

/-- A source deasserts: Deassert_INTx (0x24 + wire) when the count returns to 0. -/
def Dev.intxDeassert (d : Dev) (x : IntxSrc) : Dev :=
  if x ∈ d.host.intx then
    let d := { d with host := { d.host with intx := d.host.intx.filter fun y => y != x } }
    let d := d.intxShow x.up
    d.when (d.intxCount x.up x.wire == 0 && !d.frozen x.up) fun d => d.emit (.message x.up (0x24 + x.wire) (d.uspRid x.up))
  else d

/-- An ID map entry. -/
def Dev.idEnt (d : Dev) (i : Nat) : IdEnt := SMap.get {} d.host.idmap i
def Dev.setIdEnt (d : Dev) (i : Nat) (e : IdEnt) : Dev := { d with host := { d.host with idmap := SMap.put {} d.host.idmap i e } }

/-- Every wire held by a function behind a downstream port is deasserted (R267). -/
def Dev.intxDrop (d : Dev) (down : Nat) : Dev :=
  let d := d.forIn' (d.host.intx.filter fun s => s.down == d.rd FABRIC.ID.DEV * 128 + down) fun x d => d.intxDeassert x
  d.forIn' (SMap.keys (fun _ e => e.intx && e.dsDev == d.rd FABRIC.ID.DEV && e.dsPort == down) d.host.idmap) fun i d =>
    d.setIdEnt i { d.idEnt i with intx := false }

/-! ### Who is told (R280) -/

/-- vDSPs mapped to local port `p`: domain × 32 + k. -/
def Dev.vdspsOf (d : Dev) (p : Nat) : List Nat :=
  ((SMap.keys (fun k b => k % 1024 == VSW.VDSP_MAP.VALID.num && b == 1) d.regs).map (· / 1024)).filter fun i =>
    d.rd VSW.VDSP_MAP.PORT i == p && d.rd VSW.VDSP_MAP.DEV i == d.rd FABRIC.ID.DEV

/-- Host domains with a function behind a port, once each; for an upstream port, its own. -/
def Dev.domainsAt (d : Dev) (p : Nat) : List Nat :=
  if d.upstream p then (d.domainOfPort p).toList else ((d.vdspsOf p).map (· / 32)).eraseDups

def Dev.vdsp (d : Dev) (i : Nat) : Vdsp := SMap.get {} d.host.vdsp i
def Dev.setVdsp (d : Dev) (i : Nat) (v : Vdsp) : Dev :=
  { d with host := { d.host with vdsp := SMap.put {} d.host.vdsp i v } }

/-- The MSI of a vDSP, for its hot-plug and DPC interrupts (R295), where MSI is enabled: bit 16 of its capability at 0x90. -/
def Dev.vdspMsi (d : Dev) (i : Nat) : Dev :=
  match d.portOfDomain (i / 32) with
  | some up => d.when ((d.cfg up (fnVdsp (i % 32)) 0x90).testBit 16 && !d.frozen up) fun d => d.emit (.msi up (i % 32))
  | none => d

/-- A vDSP's status changes. -/
def Dev.vdspTold (d : Dev) (i : Nat) (v : Vdsp) : Dev :=
  if d.vdsp i = v then d else (d.setVdsp i v).vdspMsi i

/-- DPC of every vDSP mapped to a port that freezes (R309): a cause other than 1, 2, 3 and 12 is logged in its AER. -/
def Dev.dpcTrigger (d : Dev) (p cause : Nat) : Dev :=
  d.forIn' (d.vdspsOf p) fun i d =>
    let v := d.vdsp i
    d.when v.dpcEnable fun d =>
      let d := if cause ≤ 3 ∨ cause = 12 then d
        else match d.portOfDomain (i / 32) with
          | some up => d.aerError up (fnVdsp (i % 32)) 22 (d.vdspRid up (i % 32))
          | none => d
      d.vdspTold i { v with dpcTrig := true, dpcReason := if cause = 12 then 3 else 0, dpcExt := if cause = 12 then 1 else 0 }

/-! ### Ports (R265, R278) -/

/-- The packet is a unicast one toward port `p`. -/
def Pkt.toward (k : Pkt) (p : Nat) : Bool := k.dest == .port p

/-- A port freezes with a cause (R263, R265): the cause is added to SEEN; if the port was not frozen its transmission is
nullified, what is queued toward it is disposed of, requests that left through it are completed and quarantined, INTx wires
behind it deasserted, and a record is written. -/
def Dev.portFreeze (d : Dev) (p cause : Nat) (addr : Nat := 0) (rid : Nat := 0) (tenant : Nat := 0) : Dev :=
  let d := d.orBit PORT.CTN_STATUS.SEEN p (cause - 1)
  if d.frozen p then d
  else
    let reason := if d.linkUp p then 1 else 2
    let d := ((d.setOn PORT.CTN_STATUS.FROZEN p true).setOn PORT.CTN_STATUS.READY p false).wr PORT.CTN_STATUS.CAUSE p cause
    let d : Dev := { d with ctn := { d.ctn with trained := SMap.put false d.ctn.trained p false } }
    let d := d.forIn' (d.sad.staged.filter fun x => x.port == p) fun x d =>
      (d.nullifyAt x).when x.whole fun d => d.frozenOutcome x.pkt reason
    let d := d.forIn' (d.sad.pkts.filter fun k => k.toward p && !k.crossed) fun k d => d.disposeFrozen k reason
    let d := d.forIn' (d.ctxsOut p) fun i d => d.failCtx i
    let d := (d.endReads p 4).freezeIo p
    let d := d.when (!d.upstream p) fun d => d.intxDrop p
    let d := d.dpcTrigger p cause
    d.report { type := if d.on PORT.THX_CTL.THEOX p then 11 else 1, kind := 0, index := p, cause := cause, froze := true,
               addr := addr, rid := rid, tenant := tenant, port := p } (d.domainsAt p)

/-! ### Tenants (R268) -/

/-- The host domain of a tenant. -/
def Dev.tenant (d : Dev) (n : Nat) : Tenant := SMap.get {} d.trv.tenants n
def Dev.tenDomain (d : Dev) (n : Nat) : List Nat := if (d.tenant n).exists_ then [(d.tenant n).domain] else []

/-- A tenant freezes with a cause: its transfers are cancelled and its queues take STATE 2 with CAUSE 4 (R268, R278). -/
def Dev.tenantFreeze (d : Dev) (n cause : Nat) (addr : Nat := 0) (rid : Nat := 0) : Dev :=
  let d := d.orBit CTN.TEN_STATUS.SEEN n (cause - 1)
  if d.tenFrozen n then d
  else
    let d := (d.setOn CTN.TEN_STATUS.FROZEN n true).wr CTN.TEN_STATUS.CAUSE n cause
    let d := d.forIn' (d.vfsOf n) fun v d => d.forIn' (d.queuesOf v) fun q d => d.stopQueue q 4
    d.report { type := 3, kind := 1, index := n, cause := cause, froze := true, addr := addr, rid := rid, tenant := n }
      (d.tenDomain n)

/-! ### Tiles (R269) -/

/-- A tile freezes (cause 1 BIST, 2 uncorrectable SRAM): its ports freeze with cause 8; packets it holds whose last cell has
not crossed are discarded, nullified at an egress that already sends them; contexts charged to its ports are completed and
quarantined. -/
def Dev.tileFreeze (d : Dev) (t cause : Nat) : Dev :=
  if d.on CTN.TILE_STATUS.FROZEN t then d
  else
    let d := (d.setOn CTN.TILE_STATUS.FROZEN t true).wr CTN.TILE_STATUS.CAUSE t cause
    let d := d.each 8 fun s d => d.portFreeze (8 * t + s) 8
    let held := d.sad.pkts.filter fun k => k.port / 8 == t && !k.crossed
    let d := d.forIn' held fun k d =>
      (d.forIn' (d.sad.staged.filter fun x => x.pkt.id == k.id && !x.whole) fun x d => d.nullifyAt x).removePkt k
    let d := { d with notch := { d.notch with
      runs := d.notch.runs.filter fun r => r.tile != t, traps := d.notch.traps.filter fun x => x.tile != t } }
    let d := d.each 8 fun s d => d.forIn' (d.ctxsOf (8 * t + s)) fun i d => d.failCtx i
    let doms := ((List.range 8).flatMap fun s => d.domainsAt (8 * t + s)).eraseDups
    d.report { type := 5, kind := 2, index := t, cause := cause, froze := true } doms

end Sys2Proof.Machine
end

