-- ==== Sys2Proof/Machine/TarnOps.lean ====
section
/-! DEFINITION. The Tarn pool: address decode, region checks, refusals, freezing of pseudo-channels and stacks, the directory
(05_tarn_memory_pool). -/

namespace Sys2Proof

/-- Type code of a PCI Express frame (R74 h1). -/
def Frame.typeCode (f : Frame) : Nat := Machine.bits f.h1.toNat 36 8

end Sys2Proof

namespace Sys2Proof.Machine

open Sys2Proof

/-! ### Geometry (R138 to R141) -/

/-- Blocks of a pseudo-channel (R138). -/
def blocksPerPc : Nat := 549316

/-- Bytes of a granule: 2 MiB (R141). -/
def granuleBytes : Nat := 2097152

/-- Lines of a granule. -/
def granuleLines : Nat := 32768

/-- The pseudo-channel of a line, device-wide (R140). -/
def pcOfLine (line : Nat) : Nat := line / 15 % 256

/-- Its stack. -/
def stackOfLine (line : Nat) : Nat := pcOfLine line % 4

/-- S, the spare blocks per pseudo-channel, and the Scree size, as they act (R141). -/
def Dev.spareBlocks (d : Dev) : Nat := min 1024 (d.rd TARN.PART.SPARE)
def Dev.screeGib (d : Dev) : Nat := min 16 (d.rd TARN.PART.SCREE_GIB)

/-- Stripes an evacuation takes: ⌈(P − S) / 256⌉ (R167). -/
def Dev.evacStripes (d : Dev) : Nat := (blocksPerPc - d.spareBlocks + 255) / 256

/-- REGION_TOP in granules with `n` evacuations (R141, R167). -/
def Dev.regionTop (d : Dev) (n : Nat) : Nat :=
  (256 * (blocksPerPc - d.spareBlocks) * 960 - d.screeGib * 2 ^ 30 - n * d.evacStripes * 256 * 960) / granuleBytes

/-- 4 KiB segments of the Scree (R118). -/
def Dev.screeSegs (d : Dev) : Nat := d.screeGib * 2 ^ 18

/-! ### Descriptors and the ownership map (R144, R145) -/

def Dev.desc (d : Dev) (i : Nat) : Desc := SMap.get .zero d.tarn.descs i
def Dev.setDesc (d : Dev) (i : Nat) (x : Desc) : Dev :=
  { d with tarn := { d.tarn with descs := SMap.put .zero d.tarn.descs i x } }

def Dev.own (d : Dev) (g : Nat) : Own := SMap.get {} d.tarn.own g
def Dev.setOwn (d : Dev) (g : Nat) (x : Own) : Dev :=
  { d with tarn := { d.tarn with own := SMap.put {} d.tarn.own g x } }

def Dev.colour (d : Dev) (line : Nat) : Nat := SMap.get 0 d.tarn.colour (line / granuleLines)

def Desc.sub (x : Desc) : Nat := 2 ^ x.subLog2
def Desc.span (x : Desc) : Nat := 8 * x.sub

/-- The access address lies in an enabled sub-region. -/
def Desc.covers (x : Desc) (a : Nat) : Bool :=
  decide (x.hbase ≤ a) && decide (a < x.hbase + x.span) && x.mask.testBit ((a - x.hbase) / x.sub)

/-- Where an access address lies in the pool. -/
def Desc.poolOf (x : Desc) (a : Nat) : Nat := x.pbase * granuleBytes + (a - x.hbase)

/-- A descriptor from its words 0 to 5 (R144). -/
def Desc.ofWords (w : Nat → Nat) : Desc :=
  { hbase := w 0 + 2 ^ 32 * w 1, pbase := bits (w 2) 0 17, subLog2 := bits (w 2) 17 6, mask := bits (w 2) 23 8,
    tenant := bits (w 3) 0 9, key := bits (w 3) 9 4, read := (w 3).testBit 13, write := (w 3).testBit 14,
    shared := (w 3).testBit 15, readahead := (w 3).testBit 16, valid := (w 3).testBit 17, locked := (w 3).testBit 18,
    hosts := w 4 + 2 ^ 32 * w 5, ejected := 0 }

/-- Words 0 to 7 as DESC_READ shows them (R144, R156). -/
def Desc.word (x : Desc) (n : Nat) : Nat :=
  match n with
  | 0 => x.hbase % 2 ^ 32
  | 1 => x.hbase / 2 ^ 32 % 2 ^ 32
  | 2 => x.pbase + x.subLog2 * 2 ^ 17 + x.mask * 2 ^ 23
  | 3 => x.tenant + x.key * 2 ^ 9 + x.read.toNat * 2 ^ 13 + x.write.toNat * 2 ^ 14 + x.shared.toNat * 2 ^ 15
      + x.readahead.toNat * 2 ^ 16 + x.valid.toNat * 2 ^ 17 + x.locked.toNat * 2 ^ 18
  | 4 => x.hosts % 2 ^ 32
  | 5 => x.hosts / 2 ^ 32
  | 6 => x.ejected % 2 ^ 32
  | _ => x.ejected / 2 ^ 32

/-- Granules of the enabled sub-regions of a descriptor. -/
def Desc.granules (x : Desc) : List Nat :=
  ((List.range 8).filter fun i => x.mask.testBit i).flatMap fun i =>
    (List.range (x.sub / granuleBytes)).map fun k => x.pbase + i * (x.sub / granuleBytes) + k

/-! ### Checks (R147) -/

def TarnOp.reads : TarnOp → Bool
  | .read | .readS | .readA | .atomic => true
  | _ => false

def TarnOp.writes : TarnOp → Bool
  | .write | .atomic | .rwdI | .rwdS | .rwdA => true
  | _ => false

/-- The lines of `len` bytes from pool address `a`. -/
def linesOf (a len : Nat) : List Nat := (List.range ((a + len - 1) / 64 + 1 - a / 64)).map (a / 64 + ·)

def Dev.linePoison (d : Dev) (l : Nat) : Bool := SMap.get false d.tarn.poison l
def Dev.metaBad (d : Dev) (l : Nat) : Bool := SMap.get false d.tarn.metaBad (l / 15)
def Dev.setLinePoison (d : Dev) (l : Nat) (b : Bool) : Dev :=
  { d with tarn := { d.tarn with poison := SMap.put false d.tarn.poison l b } }

/-- Pseudo-channel `g` shows frozen in PC_FROZEN (R166). -/
def Dev.pcFrozen (d : Dev) (g : Nat) : Bool :=
  let c := g / 4
  if c < 32 then (d.rd TARN.PC_FROZEN_LO.MAP (g % 4)).testBit c else (d.rd TARN.PC_FROZEN_HI.MAP (g % 4)).testBit (c - 32)

def Dev.setPcFrozen (d : Dev) (g : Nat) (b : Bool) : Dev :=
  let c := g / 4 % 32
  let f := if g / 4 < 32 then TARN.PC_FROZEN_LO.MAP else TARN.PC_FROZEN_HI.MAP
  let v := d.rd f (g % 4)
  d.wr f (g % 4) (if b then v ||| 2 ^ c else v - (v &&& 2 ^ c))

def Dev.stackFrozen (d : Dev) (s : Nat) : Bool := SMap.get false d.tarn.stackFrozen s

/-- An access to a line is refused with cause 11: its pseudo-channel or stack is frozen, and an evacuation has not moved its
blocks away (R166, R167). -/
def Dev.lineFrozen (d : Dev) (l : Nat) : Bool :=
  d.stackFrozen (stackOfLine l) || (d.pcFrozen (pcOfLine l) && !d.tarn.evacuated.contains (pcOfLine l))

/-- A pool access as it is checked: the tenant and key it brings (none for a Traverse or Spur access, which take the
descriptor's), its host ID, whether it is one of those accesses that skip the host checks. -/
structure PoolAcc where
  desc : Nat
  tenant : Option Nat
  key : Option Nat
  host : Option Nat
  device : Bool
  addr : Nat
  len : Nat
  op : TarnOp
  deriving DecidableEq, Repr

/-- The first byte outside the enabled span, if there is one. An access crosses at most one sub-region boundary. -/
def Desc.outside (x : Desc) (a len : Nat) : Option Nat :=
  let e := a + len - 1
  if x.covers a then
    if x.covers e then none else some (x.hbase + ((a - x.hbase) / x.sub + 1) * x.sub)
  else some a

/-- The checks of R147 in their order: the cause and the first offending address of a refusal. -/
def Dev.poolCheck (d : Dev) (q : PoolAcc) : Option (Nat × Nat) :=
  let x := d.desc q.desc
  let pool := x.poolOf q.addr
  let ls := linesOf pool q.len
  if !x.valid then some (1, q.addr)
  else if (q.tenant.getD x.tenant) ≠ x.tenant then some (2, q.addr)
  else if !q.device && q.host.all fun h => !x.hosts.testBit h then some (3, q.addr)
  else if !q.device && q.host.any fun h => x.ejected.testBit h then some (4, q.addr)
  else if (q.op.reads ∧ !x.read) ∨ (q.op.writes ∧ !x.write) then some (5, q.addr)
  else if (q.key.getD x.key) ≠ x.key then some (6, q.addr)
  else match x.outside q.addr q.len with
    | some a => some (7, a)
    | none =>
      let gs := (ls.map (· / granuleLines)).eraseDups
      if gs.any fun g => !((d.own g).owned && (d.own g).owner == q.desc) then some (8, q.addr)
      else if ls.any fun l => d.lineFrozen l then some (11, q.addr)
      else match ls.find? fun l => d.colour l != x.key || d.metaBad l with
        | some l => some (9, q.addr + (max (l * 64) pool - pool))
        | none =>
          -- cause 10: less than the whole of a poisoned line would be written (R163)
          if q.op.writes ∧ ls.any fun l => d.linePoison l && !(decide (pool ≤ l * 64) && decide (l * 64 + 64 ≤ pool + q.len))
          then some (10, q.addr) else none

/-- Every refusal is logged (R148): the fault log holds the first, the count counts them, the device log gets a record; a
refusal made for a tenant is told to its domain and takes its trigger. -/
def Dev.poolRefuse (d : Dev) (q : PoolAcc) (cause bad rid port : Nat) : Dev :=
  let x := d.desc q.desc
  let ten := q.tenant.getD x.tenant
  let d := d.bump TARN.FLT_COUNT.COUNT 0
  let d := d.when (!d.on TARN.FLT_INFO.VALID) fun d =>
    let d := (d.wr TARN.FLT_ADDR_LO.ADDR 0 bad).wr TARN.FLT_ADDR_HI.ADDR 0 (bad / 2 ^ 32)
    let d := (d.wr TARN.FLT_INFO.CAUSE 0 cause).wr TARN.FLT_INFO.DESC 0 q.desc
    let d := (d.wr TARN.FLT_INFO.TENANT 0 ten).wr TARN.FLT_INFO.HOST 0 (q.host.getD 0)
    d.setOn TARN.FLT_INFO.VALID 0 true
  let d := d.event 0x116 (stackOfLine (x.poolOf q.addr / 64)) { tenant := some ten }
  let r : CtnRec := { type := if cause = 9 then 13 else 12, kind := 1, index := ten, cause := cause, addr := bad, rid := rid,
                      tenant := ten, port := port
                      froze := !(q.tenant.isNone && q.device) && !d.tenFrozen ten &&
                        ((decide (cause ≤ 8) && d.on CTN.TEN_CTL.REGION_TRIG ten) ||
                          (cause == 9 && d.on CTN.TEN_CTL.COLOUR_TRIG ten)) }
  if q.tenant.isNone ∧ q.device then d.report r []
  else
    let d := d.report r (d.tenDomain ten)
    if cause ≤ 8 ∧ d.on CTN.TEN_CTL.REGION_TRIG ten then d.tenantFreeze ten 1 bad rid
    else if cause = 9 ∧ d.on CTN.TEN_CTL.COLOUR_TRIG ten then d.tenantFreeze ten 2 bad rid
    else d

/-! ### Freezing (R166) -/

/-- Host domains that hold a region: every region interleaves over every stack. -/
def Dev.regionDomains (d : Dev) : List Nat :=
  ((d.tarn.descs.filter fun x => x.2.valid).flatMap fun x => d.tenDomain x.2.tenant).eraseDups

/-- A stack freezes. -/
def Dev.stackFreeze (d : Dev) (s : Nat) : Dev :=
  if d.stackFrozen s then d
  else
    let d := { d with tarn := { d.tarn with stackFrozen := SMap.put false d.tarn.stackFrozen s true } }
    d.report { type := 9, kind := 5, index := s, froze := true } d.regionDomains

/-- A pseudo-channel freezes; with more than 8 of its pseudo-channels frozen the stack does too. -/
def Dev.pcFreeze (d : Dev) (g : Nat) : Dev :=
  if d.pcFrozen g then d
  else
    let d := (d.setPcFrozen g true).report { type := 9, kind := 3, index := g, froze := true } d.regionDomains
    let n := ((List.range 64).filter fun c => d.pcFrozen (4 * c + g % 4)).length
    if 8 < n then d.stackFreeze (g % 4) else d

/-- A block is queued for retirement (R164, R165). -/
def Dev.queueRetire (d : Dev) (blk cause : Nat) : Dev :=
  if d.tarn.retireQ.any (fun x => x.1 == blk) then d
  else { d with tarn := { d.tarn with retireQ := d.tarn.retireQ ++ [(blk, cause)] } }

/-- A line of a block is found uncorrectable (R163, R165, R166): data lines 0 to 14 are written back poisoned, line 15 is the
metadata line. More than 16 such blocks within 1 s freeze the pseudo-channel. -/
def Dev.lineUe (d : Dev) (blk j : Nat) : Dev :=
  let g := blk % 256
  let d := if j < 15 then d.setLinePoison (blk * 15 + j) true
    else { d with tarn := { d.tarn with metaBad := SMap.put false d.tarn.metaBad blk true } }
  let d := d.queueRetire blk 1
  let recent := (d.tarn.ueTimes.filter fun x => d.timeBase - x.2 ≤ 250000000)
  let d : Dev := { d with tarn := { d.tarn with ueTimes := recent ++ [(g, d.timeBase)] } }
  if 16 < (d.tarn.ueTimes.filter fun x => x.1 == g).length then d.pcFreeze g else d

/-- A line of a block is corrected (R162, R164). -/
def Dev.lineCe (d : Dev) (blk : Nat) : Dev :=
  let n := min 255 (SMap.get 0 d.tarn.ce blk + 1)
  let d := { d with tarn := { d.tarn with ce := SMap.put 0 d.tarn.ce blk n } }.event 0x115 (blk % 4)
  if max 1 (d.rd TARN.ECC_CTL.CE_LIMIT) ≤ n then d.queueRetire blk 2 else d

/-! ### The directory (R152, R153, R156) -/

def Dev.dirEnt (d : Dev) (l : Nat) : DirEnt := SMap.get {} d.tarn.dir l
def Dev.setDir (d : Dev) (l : Nat) (x : DirEnt) : Dev :=
  { d with tarn := { d.tarn with dir := SMap.put {} d.tarn.dir l x } }

/-- The hosts of a bit mask. -/
def maskHosts (m : Nat) : List Nat := (List.range 64).filter fun h => m.testBit h

/-- Hosts of a region that are not ejected. -/
def Desc.live (x : Desc) : List Nat := (maskHosts x.hosts).filter fun h => !x.ejected.testBit h

/-- The hosts a line's state lists as holders, ejected ones left out (R152, R153). -/
def DirEnt.holders (e : DirEnt) (x : Desc) : List Nat :=
  match e.st with
  | .i => []
  | .so => x.live
  | _ => e.hosts.filter fun h => !x.ejected.testBit h

/-- The snoops a request needs for a line (R153): the hosts, and whether BISnpInv. -/
def snoopsFor (op : TarnOp) (req : Option Nat) (x : Desc) (e : DirEnt) : List Nat × Bool :=
  let others := (e.holders x).filter fun h => some h != req
  match op with
  | .read | .readS => (if e.st = .e then others else [], false)
  | .readA => (others, true)
  | .write | .atomic => (others, true)
  | .rwdI | .rwdS | .rwdA =>
    if e.st = .e ∧ (e.hosts.head?) = req then ([], true)
    else if op == .rwdI && e.st != .e && req.any fun h => (e.holders x).contains h then ([], true)
    else (others, true)
  | .clean => ([], true)

/-- State S with some hosts; five or more overflow to SO, none is I (R152, R153). -/
def sharersOf (hs : List Nat) : DirEnt :=
  match hs with
  | [] => {}
  | _ => if 4 < hs.length then ⟨.so, []⟩ else ⟨.s, hs⟩

/-- A host is taken off a line's sharers (R153). -/
def DirEnt.without (e : DirEnt) (h : Nat) : DirEnt :=
  match e.st with
  | .s => sharersOf (e.hosts.filter (· != h))
  | .e => if e.hosts.contains h then {} else e
  | _ => e

/-- A host is added to a line's sharers (R153): E{h} stays E{h}. -/
def DirEnt.with_ (e : DirEnt) (h : Nat) : DirEnt :=
  match e.st with
  | .i => ⟨.s, [h]⟩
  | .s => if e.hosts.contains h then e else sharersOf (e.hosts ++ [h])
  | _ => e

/-- The new state of a line once its snoops are answered (R153). -/
def dirAfter (op : TarnOp) (req : Option Nat) (e : DirEnt) : DirEnt :=
  match op, req with
  | .read, _ => e
  | .readS, some h => e.with_ h
  | .readA, some h => ⟨.e, [h]⟩
  | .rwdI, some h =>
    if e.st = .s ∨ e.st = .so then (if e.st = .so ∨ e.hosts.contains h then e.without h else {}) else {}
  | .rwdS, some h => ⟨.s, [h]⟩
  | .rwdA, some h => ⟨.e, [h]⟩
  | .clean, some h => if e.st = .e ∧ ¬e.hosts.contains h then e else e.without h
  | .write, _ => {}
  | .atomic, _ => {}
  | _, _ => e

/-- What a line's state becomes when its tracker closes: a data snoop of the owner leaves S{o}; an invalidation takes the
snooped hosts off (R153, R157). -/
def snooped (inv : Bool) (hs : List Nat) (e : DirEnt) : DirEnt :=
  if inv then hs.foldl DirEnt.without e
  else match e.st with
    | .e => ⟨.s, e.hosts⟩
    | _ => e

/-- Readahead copies of lines are dropped (R160). -/
def Dev.dropRa (d : Dev) (p : RaLine → Bool) : Dev :=
  { d with tarn := { d.tarn with ra := d.tarn.ra.filter fun r => !p r } }

/-- Trackers open in a stack (R155). -/
def Dev.trackersOf (d : Dev) (s : Nat) : Nat := (d.tarn.trackers.filter fun t => stackOfLine t.line == s).length

/-- A line holds a tracker. -/
def Dev.tracked (d : Dev) (l : Nat) : Bool := d.tarn.trackers.any fun t => t.line == l

/-- Opens a tracker and sends its snoops (R153, R155, R156). -/
def Dev.openTracker (d : Dev) (desc line : Nat) (hs : List Nat) (inv : Bool) (owner : TrackFor) : Dev :=
  let tag := d.tarn.nextTag
  let d : Dev := { d with tarn := { d.tarn with
    trackers := d.tarn.trackers ++ [⟨tag, line, desc, hs, inv, owner⟩], nextTag := tag + 1 } }
  let d : Dev := d.dropRa fun r => r.line == line
  d.forIn' hs fun h d => (d.emit (.bisnp h tag line inv)).event 0x112 (stackOfLine line)

/-- The lines of an access that need snoops now, with the snoops. -/
def Dev.needSnoop (d : Dev) (op : TarnOp) (req : Option Nat) (desc : Nat) (ls : List Nat) : List (Nat × List Nat × Bool) :=
  let x := d.desc desc
  if x.shared then
    ls.filterMap fun l =>
      let s := snoopsFor op req x (d.dirEnt l)
      if s.1.isEmpty then none else some (l, s)
  else []

/-- Opens the trackers an access needs, if every one can be opened: its lines hold none and its stacks have free ones. -/
def Dev.openTrackers (d : Dev) (desc : Nat) (need : List (Nat × List Nat × Bool)) (owner : TrackFor) : Option Dev :=
  if need.any fun n => d.tracked n.1 then none
  else if (List.range 4).any fun s =>
    decide (512 < d.trackersOf s + (need.filter fun n => stackOfLine n.1 == s).length) then none
  else some (d.forIn' need fun n d => d.openTracker desc n.1 n.2.1 n.2.2 owner)

/-- An access of a core or an engine to checked lines: true when it can be performed now. Otherwise it waits: trackers open for
the lines that need snoops, and the access is sent again (DESIGN CHOICE: the core or engine repeats it). -/
def Dev.deviceReady (d : Dev) (op : TarnOp) (desc : Nat) (ls : List Nat) : Bool × Dev :=
  if ls.any fun l => d.tracked l then (false, d)
  else
    let need := d.needSnoop op none desc ls
    if need.isEmpty then (true, d)
    else (false, (d.openTrackers desc need .device).getD d)

/-- The directory after an access is performed (R153): only shared regions keep states (R151). -/
def Dev.dirPerform (d : Dev) (op : TarnOp) (req : Option Nat) (desc : Nat) (ls : List Nat) : Dev :=
  if (d.desc desc).shared then d.forIn' ls fun l d => d.setDir l (dirAfter op req (d.dirEnt l)) else d

/-- A write of bytes at a pool address becomes visible (R158): full lines lose their poison, readahead copies are dropped; with
`ep` its lines are poisoned (R274). -/
def Dev.poolWrite (d : Dev) (pool : Nat) (data : List Byte) (ep : Bool) : Dev :=
  let d := d.storeBytes (tarnBase + pool) data
  let ls := linesOf pool data.length
  let d := d.forIn' ls fun l d =>
    if ep then d.setLinePoison l true
    else if pool ≤ l * 64 ∧ l * 64 + 64 ≤ pool + data.length then d.setLinePoison l false
    else d
  let d := d.dropRa fun r => ls.contains r.line
  d.forIn' ls fun l d => d.event 0x111 (stackOfLine l)

/-- A read of bytes at a pool address: the data and whether a line is poisoned. -/
def Dev.poolRead (d : Dev) (pool len : Nat) : List Byte × Bool :=
  (d.loadBytes (tarnBase + pool) len, (linesOf pool len).any fun l => d.linePoison l)

/-- Reads are counted by line (R403 0x110). -/
def Dev.countReads (d : Dev) (pool len : Nat) (ten : Option Nat) : Dev :=
  d.forIn' (linesOf pool len) fun l d => d.event 0x110 (stackOfLine l) { tenant := ten }

/-- Every line is zero, colour 0, state I; every granule unowned and CLEAN (R149). -/
def Dev.tarnInit (d : Dev) : Dev :=
  { d with
    mem := SMap.drop (fun a => decide (tarnBase ≤ a)) d.mem
    tarn := { d.tarn with own := [], colour := [], dir := [], poison := [], metaBad := [], ce := [] } }

/-! ### What a write leaves (R158, R159) -/

/-- The frame of an access. -/
def TarnReq.frame (r : TarnReq) : Frame := r.pkt.frame

/-- Byte `i` of a PCI Express write from its first enabled byte on is enabled (R74 h2: first and last byte enables). -/
def byteOn (f : Frame) (len i : Nat) : Bool :=
  let o := f.h5.toNat % 4
  let w := (o + i) / 4
  let b := (o + i) % 4
  if w = 0 then (bits f.h2.toNat 24 4).testBit b
  else if w = (o + len - 1) / 4 then (bits f.h2.toNat 28 4).testBit b
  else true

/-- The bytes a write leaves at its place: the payload where enabled, what was there elsewhere. -/
def Dev.merged (d : Dev) (r : TarnReq) : List Byte :=
  let f := r.frame
  if f.ftype = 7 then (List.range 64).map fun i => f.data.getD i 0
  else (List.range r.len).map fun i =>
    if byteOn f r.len i then f.data.getD (f.h5.toNat % 4 + i) 0 else d.byte (tarnBase + r.pool + i)

/-- An AtomicOp (R159), by the low bits of the type code (PRESUMED): 0x0C FetchAdd, 0x0D Swap, 0x0E CAS. -/
def atomicOk (f : Frame) : Bool :=
  match f.typeCode % 32 with
  | 0x0C | 0x0D => f.h6 == 4 || f.h6 == 8
  | 0x0E => f.h6 == 4 || f.h6 == 8 || f.h6 == 16
  | _ => false

/-- What an AtomicOp of `n` bytes leaves of the old value `a`. -/
def atomicNew (f : Frame) (n a : Nat) : Nat :=
  let x := bytesNat (f.data.take n)
  match f.typeCode % 32 with
  | 0x0C => (a + x) % 256 ^ n
  | 0x0D => x
  | _ => if a = x then bytesNat ((f.data.drop n).take n) else a

/-- A scheduled access whose fate a warm reset leaves open (R22): a write may or may not have reached the HBM. -/
def Dev.lostWrite (d : Dev) (r : TarnReq) : Dev :=
  let f := r.frame
  let w := f.ftype == 1 || f.ftype == 7 || (f.ftype == 2 && atomicOk f)
  if w && r.phase == .sched then
    let x := d.draw
    if x.1.getLsbD 0 then
      if f.ftype = 2 then
        x.2.poolWrite r.pool (natBytes r.len (atomicNew f r.len (bytesNat (x.2.loadBytes (tarnBase + r.pool) r.len)))) f.ep
      else x.2.poolWrite r.pool (x.2.merged r) f.ep
    else x.2
  else d

end Sys2Proof.Machine
end

