-- ==== Sys2Proof/Machine/Emit.lean ====
section
/-! DEFINITION. What an emit does with its packet (R41 to R45, R76, R77, R100, R132, R201, R202, R239 to R244, R266, R290, R291,
R301), for a Notch program's emit and for a resolved trap alike, and the rows of the eight emit actions. -/

namespace Sys2Proof

open Sys2Proof.Machine

/-! ### Header words of a frame -/

/-- Bits `[lsb + w - 1 : lsb]` of `v` replaced by those of `x`. -/
def Machine.setBits (v lsb w x : Nat) : Nat := v - bits v lsb w * 2 ^ lsb + x % 2 ^ w * 2 ^ lsb

def Frame.withTag (f : Frame) (t : Nat) : Frame := { f with h1 := BitVec.ofNat 64 (setBits f.h1.toNat 16 14 t) }
/-- Requester ID of a request, completer ID of a completion. -/
def Frame.withId (f : Frame) (id : Nat) : Frame := { f with h1 := BitVec.ofNat 64 (setBits f.h1.toNat 0 16 id) }
/-- Destination ID of an ID-routed request, requester ID of a completion. -/
def Frame.withDest (f : Frame) (id : Nat) : Frame := { f with h4 := BitVec.ofNat 64 (setBits f.h4.toNat 0 16 id) }
def Frame.withType (f : Frame) (c : Nat) : Frame := { f with h1 := BitVec.ofNat 64 (setBits f.h1.toNat 36 8 c) }

/-- A configuration request: the type code of the standard has 4 (Type 0) or 5 (Type 1) in its low five bits (PRESUMED). -/
def Frame.isCfg (f : Frame) : Bool := f.ftype == 3 && (f.typeCode % 32 == 4 || f.typeCode % 32 == 5)
/-- Writes carry bit 6 of the type code (PRESUMED). -/
def Frame.isWrite (f : Frame) : Bool := f.typeCode.testBit 6
/-- A message routed by ID: routing subfield 2 (PRESUMED). -/
def Frame.isIdMsg (f : Frame) : Bool := f.ftype == 5 && f.typeCode % 8 == 2
/-- The frame is a request that has an address (R42 REWRITE). -/
def Frame.hasAddr (f : Frame) : Bool := f.ftype ∈ [0, 1, 2, 6, 7] || f.ftype == 3 && !f.isCfg
/-- The frame is a PCI Express non-posted request, which a completion answers by its tag. -/
def Frame.isTagged (f : Frame) : Bool := f.ftype ∈ [0, 2, 3]
/-- The frame carries an IDE prefix or its OHC (R74 h3). -/
def Frame.ide (f : Frame) : Bool := f.h3.getLsbD 0

end Sys2Proof

namespace Sys2Proof.Machine

open Sys2Proof

/-! ### Order within a VOQ (R108) -/

def laterIdo (late early : Frame) : Bool :=
  late.ftype ≤ 5 && early.ftype ≤ 5 && frameIdo late && frameRid late != frameRid early

/-- A later packet may leave ahead of an earlier one of its VOQ. -/
def mayPass (late early : Frame) : Bool :=
  match subOf late, subOf early with
  | .posted, .posted => false
  | .posted, _ => true
  | .nonPosted, .posted => laterIdo late early
  | .nonPosted, _ => false
  | .completion, .posted => (late.ftype ≤ 5 && frameRo late) || laterIdo late early
  | .completion, .nonPosted => true
  | .completion, .completion => false

/-- Two packets are of one VOQ. -/
def Pkt.sameVoq (a b : Pkt) : Bool := a.port == b.port && a.cls == b.cls && a.dest == b.dest

/-- The packet waits behind its emit for its cells to cross. -/
def Pkt.queuedNow (k : Pkt) : Bool :=
  match k.phase with
  | .waiting | .running | .cfg | .cfgHold => false
  | _ => !k.crossed

/-- Earlier packets of the VOQ of `k` that still wait. -/
def Dev.before (d : Dev) (k : Pkt) : List Pkt :=
  d.sad.pkts.filter fun q => decide (q.id < k.id) && q.queuedNow && q.sameVoq k

/-- The group of a multicast destination. -/
def Dest.group? : Dest → Option Nat
  | .group g => some g
  | _ => Option.none

/-- The egress port of a unicast destination. -/
def Dest.port? : Dest → Option Nat
  | .port p => some p
  | _ => Option.none

def Dev.group (d : Dev) (g : Nat) : Group := SMap.get .zero d.sad.groups g
def Dev.setGroup (d : Dev) (g : Nat) (x : Group) : Dev :=
  { d with sad := { d.sad with groups := SMap.put .zero d.sad.groups g x } }

/-- The members of a multicast packet's group: as read with its first cell, else as the group stands. -/
def Dev.members (d : Dev) (k : Pkt) (g : Nat) : Nat := match k.mcMap with | some m => m.1 | none => (d.group g).map

/-- An earlier packet holds `k` by R131: multicast packets of one port and class go in order, and a unicast packet waits for an
earlier multicast packet that has its egress port as a member. -/
def Dev.heldByMulticast (d : Dev) (k : Pkt) : Bool :=
  d.sad.pkts.any fun q => decide (q.id < k.id) && q.port == k.port && q.cls == k.cls && q.queuedNow &&
    match q.dest, k.dest with
    | .group _, .group _ => true
    | .group g, .port p => (d.members q g).testBit p
    | .port p, .group g => (d.members k g).testBit p
    | _, _ => false

/-! ### Link credits (R109, R231, R289) -/

def subIdx : SubQ → Nat
  | .posted => 0
  | .nonPosted => 1
  | .completion => 2

def creditKey (p : Nat) (s : SubQ) : Nat := 2 * (p * 3 + subIdx s)
/-- Data credits of 16 bytes a payload takes. -/
def dataCredits (f : Frame) : Nat := (f.data.length + 15) / 16
/-- Blocks a frame costs on a Theox link (R231). -/
def thxBlocks (f : Frame) : Nat := (frameLen f + 2 + 63) / 64
def thxKey (p cls : Nat) (s : SubQ) : Nat := p * 32 + cls * 3 + subIdx s
def thxShared (p : Nat) : Nat := p * 32 + 24

/-- The link partner has given credits for the whole packet. -/
def Dev.creditFor (d : Dev) (p cls : Nat) (f : Frame) : Bool :=
  let s := subOf f
  if d.on PORT.THX_CTL.THEOX p then
    decide (thxBlocks f ≤ SMap.get 0 d.sad.thxCredit (thxKey p cls s) + SMap.get 0 d.sad.thxCredit (thxShared p))
  else decide (1 ≤ SMap.get 0 d.sad.credit (creditKey p s)) && decide (dataCredits f ≤ SMap.get 0 d.sad.credit (creditKey p s + 1))

/-- A packet takes its credits; on a Theox link its dedicated pool first (R231). -/
def Dev.takeCredit (d : Dev) (p cls : Nat) (f : Frame) : Dev :=
  let s := subOf f
  if d.on PORT.THX_CTL.THEOX p then
    let n := thxBlocks f
    let own := SMap.get 0 d.sad.thxCredit (thxKey p cls s)
    let c := SMap.put 0 d.sad.thxCredit (thxKey p cls s) (own - n)
    { d with sad := { d.sad with thxCredit := SMap.upd 0 c (thxShared p) fun x => x - (n - min own n) } }
  else
    let c := SMap.upd 0 d.sad.credit (creditKey p s) fun x => x - 1
    { d with sad := { d.sad with credit := SMap.upd 0 c (creditKey p s + 1) fun x => x - dataCredits f } }

/-! ### ID translation (R301) -/

def Dev.idEnts (d : Dev) : List IdEnt := (d.host.idmap.map (·.2)).filter fun e => e.valid
def Dev.idByDs (d : Dev) (dev port id : Nat) : Option IdEnt :=
  d.idEnts.find? fun e => e.dsDev == dev && e.dsPort == port && e.dsId == id
def Dev.idByHost (d : Dev) (dom vdsp hfn : Nat) : Option IdEnt :=
  d.idEnts.find? fun e => e.domain == dom && e.vdsp == vdsp && e.hfn == hfn

/-- A port is shared: a local downstream port that is not transparent, or a port of another device that has entries. -/
def Dev.idShared (d : Dev) (dev port : Nat) : Bool :=
  if dev = d.rd FABRIC.ID.DEV then d.downstream port && !d.on PORT.CFG.TRANSPARENT port
  else d.idEnts.any fun e => e.dsDev == dev && e.dsPort == port

/-- The vDSP of a domain whose secondary bus is `bus`. -/
def Dev.vdspOfBus (d : Dev) (dom bus : Nat) : Option Nat :=
  match d.portOfDomain dom with
  | none => none
  | some p => (List.range 32).find? fun k =>
      decide (1 ≤ k) && d.on VSW.VDSP_MAP.VALID (dom * 32 + k) && d.secBus p (fnVdsp k) == bus

/-- Where a frame came from: the device and port of its segment, or this device and its ingress port. -/
def Dev.srcDev (d : Dev) (k : Pkt) : Nat := if k.frame.fabric then segSrcDev k.frame else d.rd FABRIC.ID.DEV
def Pkt.srcPort (k : Pkt) : Nat := if k.frame.fabric then segSrcPort k.frame else k.port

/-- At the egress of an upstream port the ID of a presented function becomes its host-view ID; none if no entry matches. -/
def Dev.translateOut (d : Dev) (k : Pkt) (p : Nat) (f : Frame) : Option Frame :=
  if d.upstream p && decide (f.ftype ≤ 5) && d.idShared (d.srcDev k) k.srcPort then
    match d.idByDs (d.srcDev k) k.srcPort (frameRid f) with
    | none => none
    | some e => (d.portOfDomain e.domain).map fun up => f.withId (d.secBus up (fnVdsp e.vdsp) * 256 + e.hfn)
  else some f

/-- At the ingress of an upstream port a host-view destination ID becomes the function's own; none if no entry matches. -/
def Dev.translateIn (d : Dev) (k : Pkt) (f : Frame) : Option Frame :=
  if d.upstream k.port && !f.fabric && (f.isCfg || f.isIdMsg || (f.ftype == 4 && k.ctx.isNone)) then
    match d.domainOfPort k.port with
    | none => some f
    | some h => match d.vdspOfBus h (bits f.h4.toNat 8 8) with
      | none => some f
      | some v =>
        if d.idShared (d.rd VSW.VDSP_MAP.DEV (h * 32 + v)) (d.rd VSW.VDSP_MAP.PORT (h * 32 + v)) then
          (d.idByHost h v (f.h4.toNat % 256)).map fun e => f.withDest e.dsId
        else some f
  else some f

/-- The bus on the link below a downstream port (R296): the vDSP's secondary bus in transparent mode, DS_SECBUS in shared mode. -/
def Dev.linkBus (d : Dev) (p : Nat) : Nat :=
  if d.on PORT.CFG.TRANSPARENT p then
    match d.vdspsOf p with
    | i :: _ => (match d.portOfDomain (i / 32) with | some up => d.secBus up (fnVdsp (i % 32)) | none => 0)
    | [] => 0
  else d.rd PORT.CFG.DS_SECBUS p

/-- The frame as it leaves: after rewrite, remap, context words, translation and typing (R42, R77, R202, R296, R301). -/
def Dev.outFrame (d : Dev) (k : Pkt) (p : Nat) (a : Act) (tag : Option Nat) : Option Frame :=
  let f := k.frame
  let f := if a.o1.getLsbD 3 && f.hasAddr then { f with h5 := a.o2 } else f
  let f := match k.ctx with
    | some h => (f.withTag (h.word.toNat % 2 ^ 14)).withDest (bits h.word.toNat 14 16)
    | none => f
  match d.translateIn k f with
  | none => none
  | some f =>
    let f := if f.isCfg && d.downstream p then
        f.withType (f.typeCode / 2 * 2 + (if bits f.h4.toNat 8 8 = d.linkBus p then 0 else 1)) else f
    match tag with
    | some t => some ((f.withTag t).withId (d.rd PORT.REMAP_RID.RID p))
    | none =>
      if subOf f != .completion && d.downstream p && !d.on PORT.CFG.TRANSPARENT p && d.hostSide k.port k.frame then
        some (f.withId (d.rd PORT.REMAP_RID.RID p))
      else d.translateOut k p f

/-! ### Routes (R239, R240, R244) -/

/-- An egress, and the device and port a segment is bound for. -/
structure Route where
  port : Nat
  seg : Option (Nat × Nat)
  deriving DecidableEq, Repr

def segHeader (dstDev dstPort srcDev srcPort cls ten hops mcg flow : Nat) (trk : Option Nat) (mc srcHost : Bool) : Nat :=
  1 + mc.toNat * 2 ^ 3 + dstDev % 256 * 2 ^ 4 + dstPort % 128 * 2 ^ 12 + srcDev % 256 * 2 ^ 19 + srcPort % 128 * 2 ^ 27
    + cls % 8 * 2 ^ 34 + ten % 512 * 2 ^ 37 + hops % 32 * 2 ^ 46 + mcg % 4096 * 2 ^ 51 + flow % 65536 * 2 ^ 64
    + (match trk with | some t => t % 2 ^ 14 * 2 ^ 80 + 2 ^ 94 | none => 0) + srcHost.toNat * 2 ^ 95

/-- FLOW of a frame (R239, R240). -/
def Dev.flowOf (d : Dev) (k : Pkt) (a : Act) (dev port cls : Nat) : Nat :=
  if k.frame.fabric then segFlow k.frame
  else
    let f := bits a.o3.toNat 16 16
    if f ≠ 0 then f
    else ((d.rd FABRIC.ID.DEV * 128 + k.port) ^^^ (dev * 128 + port) ^^^ (cls * 2 ^ 13)) % 65536

/-- Port P(FLOW mod (N + 1)) of a device's route. -/
def Dev.routePort (d : Dev) (dev flow : Nat) : Nat :=
  match flow % (d.rd FABRIC.ROUTE.N dev + 1) with
  | 0 => d.rd FABRIC.ROUTE.P0 dev
  | 1 => d.rd FABRIC.ROUTE.P1 dev
  | 2 => d.rd FABRIC.ROUTE.P2 dev
  | _ => d.rd FABRIC.ROUTE.P3 dev

/-- Where FWD (fn 0) or FAB (fn 4) sends its packet. -/
def Dev.routeOf (d : Dev) (k : Pkt) (a : Act) : Route :=
  if a.fn = 0 then ⟨a.o0.toNat % 128, none⟩
  else
    let dev := a.o0.toNat % 256
    let port := bits a.o0.toNat 8 7
    if dev = d.rd FABRIC.ID.DEV then ⟨port, none⟩
    else ⟨d.routePort dev (d.flowOf k a dev port (a.o1.toNat % 8)), some (dev, port)⟩

/-- HOPS of a segment that enters the fabric here: HOPS_INIT, 0 acting as 1. -/
def Dev.hopsInit (d : Dev) : Nat := max 1 (d.rd FABRIC.ID.HOPS_INIT)

/-- The header of the segment the packet leaves in. -/
def Dev.segOf (d : Dev) (k : Pkt) (a : Act) (dst : Nat × Nat) (trk : Option Nat) : Nat :=
  let f := k.frame
  let cls := a.o1.toNat % 8
  let ten := bits a.o1.toNat 16 9
  let flow := d.flowOf k a dst.1 dst.2 cls
  if f.fabric then
    segHeader dst.1 dst.2 (segSrcDev f) (segSrcPort f) cls ten (segHops f - 1) 0 flow
      (match k.ctx with | some h => h.trk | none => if segTrkV f then some (segTrk f) else none) false (segSrcHost f)
  else
    segHeader dst.1 dst.2 (d.rd FABRIC.ID.DEV) k.port cls ten d.hopsInit 0 flow
      (match k.ctx with | some h => h.trk | none => trk) false (d.upstream k.port)

/-! ### Ends of an emit -/

/-- DROPU (status 1) or DROPA (status 4): a request is logged against its tenant and disposed of; a completion is discarded as
unexpected (R43, R100). -/
def Dev.dropAs (d : Dev) (k : Pkt) (status addr : Nat) : Dev :=
  let q : EvQual := { slot := some (k.port % 8), cls := some k.cls, tenant := some k.tenant }
  let d := d.event 0x008 (k.port / 8) q
  let d := d.when (subOf k.frame != .completion) fun d =>
    d.report { type := 19, kind := 1, index := k.tenant, addr := addr, rid := frameRid k.frame, tenant := k.tenant,
               port := k.port } (d.tenDomain k.tenant)
  d.disposeStatus k status (if status = 1 then 3 else 4) addr

/-- What the tile knows of a packet at its emit, for a trap record and for R100. -/
structure EmitInfo where
  pipe : Nat
  straddle : Option W64
  poisoned : Bool
  o4 : W64
  o5 : W64
  o6 : W64
  o7 : W64
  deriving DecidableEq, Repr

/-- The tile carries out TRAP with a reason (R43, R94): the packet is held, and its record waits for its ring entry. -/
def Dev.trapAs (d : Dev) (k : Pkt) (a : Act) (i : EmitInfo) (reason fn : Nat) : Dev :=
  let t := k.port / 8
  let n := SMap.get 0 d.notch.trapN t
  let q : EvQual := { slot := some (k.port % 8), cls := some k.cls, tenant := some k.tenant }
  let d := d.event 0x007 t q
  let x : Trap := ⟨t, n, k.id, reason, fn, i.pipe, d.timeBase, a.o0, a.o1, i.o4, i.o5, i.o6, i.o7, false⟩
  let d : Dev := { d with notch := { d.notch with
    traps := d.notch.traps ++ [x], trapN := SMap.put 0 d.notch.trapN t (n + 1) } }
  (d.releaseMatched k).setPkt { k with
    phase := .trapped, dest := .mgmt, ctx := k.ctx.map fun h => { h with last := false } }

/-- The packet goes to its queue: into landing blocks, or straight into SRAM when it is charged already. -/
def Dev.enqueue (d : Dev) (k : Pkt) : Dev :=
  d.setPkt { k with phase := if k.charged then .queued else .landed }

/-- R132 at the packet's emit: nothing it may not pass waits in its VOQ, no multicast holds it, and the egress can take it. -/
def Dev.cutThrough (d : Dev) (k : Pkt) : Bool :=
  !k.charged && k.phase != .cfg && (d.before k).all (fun q => mayPass k.frame q.frame) && !d.heldByMulticast k && k.held.isNone &&
  !(d.sad.pkts.any fun q => q.sameVoq k && (match q.phase with | .scree _ | .back _ => true | _ => false)) &&
  match k.dest with
  | .port p => d.on PORT.EGR_CTL.CUT_EN p && !(d.sad.staged.any fun x => x.port == p && x.tx)
      && d.creditFor p k.cls (k.fwd.getD k.frame)
  | .pool _ => true
  | _ => false

/-- The packet takes cut-through if it may. -/
def Dev.enqueueCut (d : Dev) (k : Pkt) : Dev :=
  let cut := d.cutThrough k
  let d := d.when cut fun d => d.event 0x005 (k.port / 8)
    { slot := some (k.port % 8), cls := some k.cls, tenant := some k.tenant }
  d.enqueue { k with cut := cut }

/-- Max_Payload_Size at the destination of an emit (R290). -/
def Dev.mpsAt (d : Dev) (p : Nat) : Nat :=
  if d.on PORT.THX_CTL.THEOX p then 512 else SMap.get 128 d.host.mps p

/-- A request's payload exceeds the Max_Payload_Size: a posted one is discarded and logged as type 16, a non-posted one is completed
with Unsupported Request (R290). -/
def Dev.tooLong (d : Dev) (k : Pkt) : Dev :=
  match subOf k.frame with
  | .nonPosted => (d.completeReq k.port k.frame 1 []).removePkt k
  | _ => (d.report { type := 16, kind := 0, index := k.port, port := k.port, addr := k.frame.h5.toNat, rid := frameRid k.frame,
                     tenant := k.tenant, dev := d.rd FABRIC.ID.DEV } (d.domainOfPort k.port).toList).removePkt k

/-- The emit needs a transfer context, and whether one with a tag (R42, R242). -/
def ctxNeed (k : Pkt) (a : Act) (r : Route) : Option Bool :=
  if k.frame.isTagged then
    if a.o1.getLsbD 4 || (k.frame.fabric && r.seg.isNone) then some true
    else if !k.frame.fabric && r.seg.isSome then some false
    else none
  else none

/-- A context for a forwarded request (R199, R202, R242). -/
def Dev.ctxFor (d : Dev) (k : Pkt) (egress tag : Nat) (user : CtxUser) : CtxEnt :=
  { user := user, tenant := k.tenant, port := k.port, egress := egress, tag := tag, origTag := frameTag k.frame,
    origRid := frameRid k.frame, origDev := d.srcDev k, origPort := k.srcPort, srcHost := d.hostSide k.port k.frame,
    trk := if k.frame.fabric && segTrkV k.frame then some (segTrk k.frame) else none,
    owed := k.frame.h6.toNat, quarantined := false, guar := false }

/-- The context of a forwarded request is granted, if it can be; answers its index and tag. -/
def Dev.grantFor (d : Dev) (k : Pkt) (r : Route) (tagged : Bool) : Option (Nat × Option Nat × Dev) :=
  if tagged then
    match d.freeTag r.port with
    | none => none
    | some t => (d.allocCtx (d.ctxFor k r.port t .remap)).map fun x => (x.1, some t, x.2)
  else (d.allocCtx (d.ctxFor k r.port 16384 .tunnel)).map fun x => (x.1, none, x.2)

/-- The packet is ready to enter its queue toward a port: with its context, its frame and its segment header. -/
def Dev.sendOn (d : Dev) (k : Pkt) (a : Act) (r : Route) (ctx tag : Option Nat) : Dev :=
  match d.outFrame k r.port a tag with
  | none =>
    let d := match ctx with | some i => d.releaseCtx i | none => d
    ({ d with host := { d.host with idDrop := d.host.idDrop + 1 } }.releaseMatched k).removePkt k
  | some f =>
    let k := { k with
      fwd := some f
      segHdr := r.seg.map fun s => d.segOf k a s ctx
      held := match r.seg with
        | some s => if SMap.get 0 d.fab.holds s.1 ≠ 0 then some s.1 else none
        | none => none }
    d.enqueueCut k

/-- FWD and FAB past their checks: a context is granted or waited for (R81, R201). -/
def Dev.forward (d : Dev) (k : Pkt) (a : Act) (r : Route) : Dev :=
  let k := { k with dest := .port r.port }
  match ctxNeed k a r with
  | none => d.sendOn k a r none none
  | some tagged =>
    match d.grantFor k r tagged with
    | some (i, t, d) => d.sendOn k a r (some i) t
    | none =>
      let d := (d.setPkt { k with phase := .ctxWait }).bump CTX.PORT_USE.WAITING k.port
      d.event 0x014 (k.port / 8) { slot := some (k.port % 8), tenant := some k.tenant }

/-- The egress port stops the packet before any of it is queued (R266): not configured, frozen, or its link down. -/
def Dev.egressBad (d : Dev) (p : Nat) : Option Nat :=
  if !d.configured p then some 6 else if d.frozen p then some 1 else if !d.linkUp p then some 2 else none

/-- The operand an emit names does not exist (R44). -/
def Dev.badOperand (d : Dev) (a : Act) : Bool :=
  match a.fn with
  | 0 => !d.configured (a.o0.toNat % 128)
  | 1 => !(d.group (a.o0.toNat % 4096)).valid
  | 3 => decide (4096 ≤ a.o0.toNat % 65536)
  | 4 => if a.o0.toNat % 256 = d.rd FABRIC.ID.DEV then !d.configured (bits a.o0.toNat 8 7) else !d.routeTo (a.o0.toNat % 256)
  | _ => false

/-- The context that a completion was extracted against is gone: released or quarantined since, or reused. -/
def Dev.ctxGone (d : Dev) (k : Pkt) : Bool :=
  match k.ctx with
  | none => false
  | some h => match d.ctx? h.index with
    | none => true
    | some c => d.ctxWord c != h.word

/-- Pool port of an access to a descriptor (R11, R140): stack and port of the pseudo-channel of its line. -/
def Dev.poolPort (d : Dev) (desc addr : Nat) : Nat :=
  let g := pcOfLine ((d.desc desc).poolOf addr / 64)
  g % 4 * 8 + g / 4 / 8

/-- ID translation would change the packet's IDs (R312). -/
def Dev.idsChange (d : Dev) (k : Pkt) (p : Nat) (a : Act) : Bool :=
  match d.outFrame k p { a with o1 := 0 } none with
  | some f => frameRid f != frameRid k.frame || f.h4 != k.frame.h4
  | none => true

/-- FWD and FAB toward a port. -/
def Dev.actPort (d : Dev) (k : Pkt) (a : Act) : Dev :=
  let r := d.routeOf k a
  if a.fn = 0 && r.port == k.port && d.upstream k.port && !k.frame.fabric &&
      (k.frame.isCfg || (decide (k.frame.ftype ≤ 1) && (d.barHit k.port k.frame.h5.toNat).isSome)) then
    d.setPkt { k with phase := .cfg }
  else if r.seg.isSome && k.frame.fabric && segHops k.frame == 0 then
    -- no hop is left (R240)
    let d := d.bump FABRIC.DROP.HOPS 0
    let d := d.event 0x008 (k.port / 8) { slot := some (k.port % 8), cls := some k.cls, tenant := some k.tenant }
    d.disposeStatus k 1 7 k.frame.h5.toNat
  else match d.egressBad r.port with
    | some reason => d.disposeFrozen k reason
    | none =>
      if k.frame.ide && (ctxNeed k a r == some true || d.idsChange k r.port a) then d.dropAs k 1 a.o2.toNat
      else if k.frame.isTagged && (ctxNeed k a r).isNone && r.seg.isNone && decide (d.tagSpace r.port ≤ frameTag k.frame) then
        d.dropAs k 1 a.o2.toNat
      else if decide (d.mpsAt r.port < k.frame.data.length) && subOf k.frame != .completion then d.tooLong k
      else d.forward k a r

/-- The action of an emit, past the checks that stand before every action. -/
def Dev.actOn (d : Dev) (k : Pkt) (a : Act) (i : EmitInfo) (reason : Nat) : Dev :=
  let logged := match i.straddle with | some x => x.toNat | none => a.o2.toNat
  match a.fn with
  | 1 =>
    match subOf k.frame with
    | .posted =>
      if 512 < k.frame.data.length then d.tooLong k
      else d.enqueue { k with dest := .group (a.o0.toNat % 4096), fwd := some k.frame }
    | .nonPosted => (d.completeReq k.port k.frame 1 []).removePkt k
    | .completion => ((d.unexpected k).releaseMatched k).removePkt k
  | 2 =>
    let f := if a.o1.getLsbD 3 then { k.frame with h5 := a.o2 } else k.frame
    if decide (512 < f.data.length) && subOf f != .completion then d.tooLong k
    else d.enqueueCut { k with dest := .pool (d.poolPort (a.o0.toNat % 4096) f.h5.toNat), fwd := some f }
  | 3 =>
    if decide (512 < k.frame.data.length) && subOf k.frame != .completion then d.tooLong k
    else d.enqueue { k with dest := .traverse (a.o0.toNat % 4096), fwd := some k.frame }
  | 5 => d.trapAs k a i reason 0
  | 6 => d.dropAs k 1 logged
  | 7 => d.dropAs k 4 logged
  | _ => d.actPort k a

/-- The tile carries out an action on a packet: the checks in their order, then the action (R43, R44, R76, R77, R265, R266, R268,
R270). -/
def Dev.act (d : Dev) (k : Pkt) (a : Act) (i : EmitInfo) (reason : Nat) : Dev :=
  let ten := bits a.o1.toNat 16 9
  -- blocks charged to the tenant of the trap go over to the tenant of its resolution
  let d := d.when k.charged fun d =>
    let n := k.blocks
    let at_ (x : Nat) := k.port / 8 * 512 + x
    let d := d.wr TILE.VOQ_TEN_USE.USED (at_ k.tenant) (d.rd TILE.VOQ_TEN_USE.USED (at_ k.tenant) - n)
    d.wr TILE.VOQ_TEN_USE.USED (at_ ten) (d.rd TILE.VOQ_TEN_USE.USED (at_ ten) + n)
  let k := { k with act := some a, tenant := ten, cls := a.o1.toNat % 8 }
  let d := d.setPkt k
  let fresh := k.phase != .trapped
  if subOf k.frame == .completion && fresh && (k.noTrk || d.ctxGone k) then (d.unexpected k).removePkt k
  else if fresh && (k.ctx.any fun h => h.quarantined || (d.ctx? h.index).any fun c => c.quarantined) then ((d.unexpected k).releaseMatched k).removePkt k
  else if k.marked || d.frozen k.port then (d.releaseMatched k).removePkt k
  else if k.frame.locked && k.frame.ftype == 4 then ((d.unexpected k).releaseMatched k).removePkt k
  else if k.frame.locked then d.dropAs k 1 a.o2.toNat
  else if i.poisoned then d.trapAs k a i 0x3F02 0
  else if k.frame.ide && decide (a.fn ≤ 4) && (a.o1.getLsbD 3 || a.o1.getLsbD 4) then d.dropAs k 1 a.o2.toNat
  else if d.badOperand a then d.trapAs k a i 0x3F01 a.fn
  else if d.tenFrozen ten && decide (a.fn ≤ 4) then d.disposeFrozen k 1
  else
    let d := d.when (decide (a.fn ≤ 4)) fun d => d.releaseMatched k
    d.actOn k a i reason

/-- An emit by run `r`: its operands are those before its pair, and it ends the path (R45). Frames that reach their emit are
counted (R403). -/
def Dev.emitRow (d : Dev) (r fn reason : Nat) : Dev :=
  d.notchInstr r fun n d =>
    if n.emitted then (n.next, d)
    else
      let a : Act := ⟨fn, n.oReg 0, n.oReg 1, n.oReg 2, n.oReg 3⟩
      let d := match d.pkt? n.pkt with
        | none => d
        | some k =>
          let q : EvQual := { slot := some (k.port % 8), cls := some (a.o1.toNat % 8), tenant := some (bits a.o1.toNat 16 9) }
          let d := ((d.event 0x001 n.tile q).event 0x002 n.tile q (frameLen k.frame)).bwAdd k.port 0 (a.o1.toNat % 8)
            (frameLen k.frame)
          d.act k a ⟨n.pipe, n.straddle, n.poisoned, n.oReg 4, n.oReg 5, n.oReg 6, n.oReg 7⟩ reason
      ({ n with emitted := true }.next, d)

def execFwd (r : Nat) (s : State) := s.lift fun d => d.emitRow r 0 0
def execMcg (r : Nat) (s : State) := s.lift fun d => d.emitRow r 1 0
def execPool (r : Nat) (s : State) := s.lift fun d => d.emitRow r 2 0
def execTrv (r : Nat) (s : State) := s.lift fun d => d.emitRow r 3 0
def execFab (r : Nat) (s : State) := s.lift fun d => d.emitRow r 4 0
def execTrap (r : Nat) (imm : BitVec 14) (s : State) := s.lift fun d => d.emitRow r 5 imm.toNat
def execDropu (r : Nat) (s : State) := s.lift fun d => d.emitRow r 6 0
def execDropa (r : Nat) (s : State) := s.lift fun d => d.emitRow r 7 0

end Sys2Proof.Machine
end

