-- ==== Sys2Proof/Machine/NotchTbl.lean ====
section
/-! DEFINITION. The tiles' tables, their commands and lookups (R37, R38, R82 to R88), program banks and their check (R47, R78,
R79, R89 to R93, R479). -/

namespace Sys2Proof.Machine

open Sys2Proof

/-! ### Tables -/

/-- Entry slots of tile `t`. -/
def exactKey (t slot : Nat) : Nat := t * 65536 + slot
def rangeKey (t i : Nat) : Nat := t * 4096 + i
def tenantKey (t i : Nat) : Nat := t * 512 + i

def Dev.exactEnt (d : Dev) (t slot : Nat) : ExactEnt := SMap.get .zero d.notch.exact (exactKey t slot)
def Dev.rangeEnt (d : Dev) (t i : Nat) : RangeEnt := SMap.get .zero d.notch.range (rangeKey t i)
def Dev.tenantEnt (d : Dev) (t i : Nat) : TenEnt := SMap.get .zero d.notch.tenant (tenantKey t i)

def Dev.setExact (d : Dev) (t slot : Nat) (e : ExactEnt) : Dev :=
  { d with notch := { d.notch with exact := SMap.put .zero d.notch.exact (exactKey t slot) e } }
def Dev.setRange (d : Dev) (t i : Nat) (e : RangeEnt) : Dev :=
  { d with notch := { d.notch with range := SMap.put .zero d.notch.range (rangeKey t i) e } }
def Dev.setTenant (d : Dev) (t i : Nat) (e : TenEnt) : Dev :=
  { d with notch := { d.notch with tenant := SMap.put .zero d.notch.tenant (tenantKey t i) e } }

/-- The slot of tile `t` whose valid entry holds the key. -/
def Dev.exactFind (d : Dev) (t key : Nat) : Option Nat :=
  (SMap.first (fun k e => k / 65536 == t && e.valid && e.key == key) d.notch.exact).map (· % 65536)

/-- The valid window of set `tag` that contains byte `a` (at most one, R38). -/
def Dev.rangeFind (d : Dev) (t tag a : Nat) : Option Nat :=
  (SMap.first (fun k e => k / 4096 == t && e.valid && e.tag == tag && decide (e.base ≤ a) && decide (a < e.base + e.len))
    d.notch.range).map (· % 4096)

/-- The four ways of a bucket of half `h`: its slots. -/
def bucketSlots (h key : Nat) : List Nat :=
  (List.range 4).map fun w => h * 32768 + Config.bucketOf h key % 8192 * 4 + w

/-- The free slots of a bucket. -/
def Dev.freeSlots (d : Dev) (t h key : Nat) : List Nat := (bucketSlots h key).filter fun s => !(d.exactEnt t s).valid

/-- Where an insert goes: the bucket with more free ways, the first half on a tie (R82); the lowest free way. -/
def Dev.insertSlot (d : Dev) (t key : Nat) : Option Nat :=
  let f0 := d.freeSlots t 0 key
  let f1 := d.freeSlots t 1 key
  if f0.length < f1.length then f1.head? else f0.head?

/-! ### Lookups (R37, R38, R87) -/

/-- An entry with an uncorrectable error is marked poisoned, recorded, and traps the packet (R87). -/
def Dev.tableError (d : Dev) (t table index : Nat) : Dev := d.cairnPush 0x01 t 1 (table + index * 256) 0

/-- LOOKUP_HIT or LOOKUP_MISS (R403), with the ingress slot. -/
def Dev.lookupEvent (d : Dev) (n : NRun) (hit : Bool) : Dev :=
  let slot := (d.sad.pkts.find? fun p => p.id == n.pkt).map fun p => p.port % 8
  d.event (if hit then 0x009 else 0x00A) n.tile { slot := slot }

/-- The key of LKX with tsel 0: {space, rs2[15:0], rs1} (R37). -/
def lkxKey (space : Nat) (a b : W64) : Nat := space * 2 ^ 80 + b.toNat % 65536 * 2 ^ 64 + a.toNat

/-- What a lookup brings: its data word, H, X, and whether the packet must trap (R87). -/
structure Found where
  data : W64
  hit : Bool
  straddle : Bool := false
  bad : Bool := false
  past : Option W64 := none

/-- Sends a lookup's result; it lands two stages later (R46). -/
def NRun.found (n : NRun) (rd : Nat) (f : Found) : NRun :=
  let n := (n.send 2 (.g rd) f.data).send 2 .hx 0 { h := f.hit, x := f.straddle }
  { n with
    poisoned := n.poisoned || f.bad
    straddle := match n.straddle with | some a => some a | none => f.past }.next

/-- LKX in the exact-match table. -/
def Dev.lkxExact (d : Dev) (t key : Nat) (ue : Bool) : Found × Dev :=
  match d.exactFind t key with
  | none => (⟨0, false, false, false, none⟩, d)
  | some s =>
    let e := d.exactEnt t s
    if e.poison ∨ ue then
      let d := if e.poison then d else (d.setExact t s { e with poison := true }).tableError t 0 s
      let x := d.draw
      (⟨x.1, true, false, true, none⟩, x.2)
    else (⟨e.data, true, false, false, none⟩, d)

/-- LKX in the tenant table: never missed, H is the entry's valid bit (R37). -/
def Dev.lkxTenant (d : Dev) (t i : Nat) (ue : Bool) : Found × Dev :=
  let e := d.tenantEnt t i
  if e.poison ∨ ue then
    let d := if e.poison then d else (d.setTenant t i { e with poison := true }).tableError t 2 i
    let x := d.draw
    (⟨x.1, e.valid, false, true, none⟩, x.2)
  else (⟨e.data, e.valid, false, false, none⟩, d)

/-- LKW: the request covers `len` bytes from `s` (R38). -/
def Dev.lkwRange (d : Dev) (t tag s len : Nat) (ue : Bool) : Found × Dev :=
  if len = 0 then (⟨0, false, false, false, none⟩, d)
  else match d.rangeFind t tag s with
    | none => (⟨0, false, false, false, none⟩, d)
    | some i =>
      let e := d.rangeEnt t i
      let whole := s + len ≤ 2 ^ 64 ∧ s + len ≤ e.base + e.len
      let past := if whole then none else some (BitVec.ofNat 64 (e.base + e.len))
      if e.poison ∨ ue then
        let d := if e.poison then d else (d.setRange t i { e with poison := true }).tableError t 1 i
        let x := d.draw
        (⟨x.1, decide whole, !decide whole, true, past⟩, x.2)
      else (⟨e.data, decide whole, !decide whole, false, past⟩, d)

/-- LKX; `ue` says that the entry it reads yields an uncorrectable error. With tsel = 1 space and rs2 are unused. -/
def execLkx (r : Nat) (rd : Fin 32) (rs1 rs2 : Src) (tenantTable : Bool) (space : BitVec 8) (ue : Bool) (s : State) :=
  s.lift fun d => d.notchInstr r fun n d =>
    let a := n.rd rs1
    let x := if tenantTable then d.lkxTenant n.tile (a.toNat % 512) ue
      else d.lkxExact n.tile (lkxKey space.toNat a (n.rd rs2)) ue
    (n.found rd x.1, x.2.lookupEvent n x.1.hit)

/-- LKW. -/
def execLkw (r : Nat) (rd : Fin 32) (rs1 rs2 : Src) (space : BitVec 8) (ue : Bool) (s : State) :=
  s.lift fun d => d.notchInstr r fun n d =>
    let x := d.lkwRange n.tile space.toNat (n.rd rs1).toNat (n.rd rs2).toNat ue
    (n.found rd x.1, x.2.lookupEvent n x.1.hit)

/-! ### Table commands (R84, R85) -/

/-- Staging register `TILE[t].NOTCH_TBL_KEYn`, and DATAn. -/
def Dev.tblKey (d : Dev) (t n : Nat) : Nat := d.rd TILE.NOTCH_TBL_KEY.KEY (t * 8 + n)
def Dev.tblData (d : Dev) (t : Nat) : W64 :=
  BitVec.ofNat 64 (d.rd TILE.NOTCH_TBL_DATA.DATA (t * 2) + 2 ^ 32 * d.rd TILE.NOTCH_TBL_DATA.DATA (t * 2 + 1))
def Dev.setTblKey (d : Dev) (t n v : Nat) : Dev := d.wr TILE.NOTCH_TBL_KEY.KEY (t * 8 + n) v
def Dev.setTblData (d : Dev) (t : Nat) (v : W64) : Dev :=
  (d.wr TILE.NOTCH_TBL_DATA.DATA (t * 2) v.toNat).wr TILE.NOTCH_TBL_DATA.DATA (t * 2 + 1) (v.toNat / 2 ^ 32)

/-- The staged exact-match key: key bits [79:0] and the space. -/
def Dev.stagedKey (d : Dev) (t : Nat) : Nat :=
  d.tblKey t 0 + 2 ^ 32 * d.tblKey t 1 + 2 ^ 64 * (d.tblKey t 2 % 2 ^ 24)

/-- Read of the exact-match table by key: its status and the staging registers. -/
def Dev.tblReadExact (d : Dev) (t : Nat) : Nat × Dev :=
  match d.exactFind t (d.stagedKey t) with
  | none => (3, d)
  | some s =>
    let e := d.exactEnt t s
    if e.poison then (5, d) else (0, d.setTblData t e.data)

/-- Read of a window: its stored words go to the staging registers, valid or not. -/
def Dev.tblReadRange (d : Dev) (t i : Nat) : Nat × Dev :=
  let e := d.rangeEnt t i
  if e.poison then (5, d)
  else
    let d := ((d.setTblKey t 0 e.base).setTblKey t 1 (e.base / 2 ^ 32)).setTblKey t 2 e.len
    let d := ((d.setTblKey t 3 (e.len / 2 ^ 32)).setTblKey t 4 e.tag).setTblData t e.data
    (if e.valid then 0 else 3, d)

/-- Read of a tenant entry. -/
def Dev.tblReadTenant (d : Dev) (t i : Nat) : Nat × Dev :=
  let e := d.tenantEnt t i
  if e.poison then (5, d) else (if e.valid then 0 else 3, d.setTblData t e.data)

/-- Write of the exact-match table: replaces the data of an equal key, or inserts, or FULL (R82). -/
def Dev.tblWriteExact (d : Dev) (t : Nat) : Nat × Dev :=
  let key := d.stagedKey t
  let e : ExactEnt := ⟨key, d.tblData t, true, false⟩
  match d.exactFind t key with
  | some s => (0, d.setExact t s e)
  | none =>
    match d.insertSlot t key with
    | some s => (0, d.setExact t s e)
    | none => (1, d)

/-- Two windows overlap. -/
def windowsMeet (a b : RangeEnt) : Bool := decide (a.base < b.base + b.len) && decide (b.base < a.base + a.len)

/-- Another valid window of the same set overlaps window `e` at index `i` (R83). -/
def Dev.overlaps (d : Dev) (t i : Nat) (e : RangeEnt) : Bool :=
  d.notch.range.any fun x =>
    x.1 / 4096 == t && x.1 % 4096 != i && x.2.valid && x.2.tag == e.tag && windowsMeet x.2 e

/-- Write of a window, with the format and overlap checks of R83. -/
def Dev.tblWriteRange (d : Dev) (t i : Nat) : Nat × Dev :=
  let e : RangeEnt :=
    ⟨d.tblKey t 0 + 2 ^ 32 * d.tblKey t 1, d.tblKey t 2 + 2 ^ 32 * d.tblKey t 3, d.tblKey t 4 % 256, d.tblData t, true, false⟩
  if e.base % 4096 ≠ 0 ∨ e.len % 4096 ≠ 0 ∨ e.len < 4096 then (4, d)
  else if d.overlaps t i e then (2, d)
  else (0, d.setRange t i e)

/-- Invalidate: removes an exact-match key; clears the valid bit of a window or tenant entry and keeps its words (R84). A
poisoned entry is no longer poisoned (R87). -/
def Dev.tblInvalidate (d : Dev) (t table i : Nat) : Nat × Dev :=
  match table with
  | 0 =>
    match d.exactFind t (d.stagedKey t) with
    | some s => (0, d.setExact t s .zero)
    | none => (3, d)
  | 1 => (0, d.setRange t i { d.rangeEnt t i with valid := false, poison := false })
  | _ => (0, d.setTenant t i { d.tenantEnt t i with valid := false, poison := false })

/-- What a command does and its status (R84, R85). -/
def Dev.tblRun (d : Dev) (t table op i : Nat) : Nat × Dev :=
  if table = 3 ∨ op = 3 ∨ (table = 2 ∧ 511 < i) then (4, d)
  else match op, table with
    | 0, 0 => d.tblReadExact t
    | 0, 1 => d.tblReadRange t i
    | 0, _ => d.tblReadTenant t i
    | 1, 0 => d.tblWriteExact t
    | 1, 1 => d.tblWriteRange t i
    | 1, _ => (0, d.setTenant t i ⟨d.tblData t, true, false⟩)
    | _, _ => d.tblInvalidate t table i

def Dev.tblCmd (d : Dev) (t : Nat) : Option TblCmd := SMap.get none d.notch.cmd t
def Dev.setTblCmd (d : Dev) (t : Nat) (c : Option TblCmd) : Dev :=
  { d with notch := { d.notch with cmd := SMap.put none d.notch.cmd t c } }

/-- A write of TILE[t].NOTCH_TBL_CMD: TABLE, OP and INDEX are set; GO starts the command, or is ignored while one runs and
makes that one end with BUSY_REFUSED (R85). -/
def Dev.tblCmdWrite (d : Dev) (t table op i : Nat) (go : Bool) : Dev :=
  let d := ((d.wr TILE.NOTCH_TBL_CMD.TABLE t table).wr TILE.NOTCH_TBL_CMD.OP t op).wr TILE.NOTCH_TBL_CMD.INDEX t i
  if go then
    match d.tblCmd t with
    | some c => d.setTblCmd t (some { c with second := true })
    | none =>
      let x := d.tblRun t table op i
      (x.2.setTblCmd t (some ⟨x.1, false⟩)).setOn TILE.NOTCH_TBL_CMD.BUSY t true
  else d

def execNotchTblRead (t : Fin 16) (table : Fin 4) (i : Fin 4096) (s : State) :=
  s.lift fun d => if d.coreUp then d.tblCmdWrite t table 0 i true else d
def execNotchTblWrite (t : Fin 16) (table : Fin 4) (i : Fin 4096) (s : State) :=
  s.lift fun d => if d.coreUp then d.tblCmdWrite t table 1 i true else d
def execNotchTblInvalidate (t : Fin 16) (table : Fin 4) (i : Fin 4096) (s : State) :=
  s.lift fun d => if d.coreUp then d.tblCmdWrite t table 2 i true else d

/-- A table command ends with its status, or BUSY_REFUSED if a second GO came (R85). -/
def execNotchTblCmdEnd (t : Fin 16) (s : State) :=
  s.lift fun d =>
    match d.tblCmd t with
    | none => d
    | some c =>
      ((d.setTblCmd t none).setOn TILE.NOTCH_TBL_CMD.BUSY t false).wr TILE.NOTCH_TBL_CMD.STATUS t
        (if c.second then 6 else c.status)

/-! ### The check of a bank (R47, R90, R91) -/

/-- A program as its 24 decoded words. -/
abbrev Prog := List (Except WordErr Ridge)

def progAt (p : Prog) (i : Nat) : Option Ridge :=
  match p[i]? with
  | some (.ok r) => some r
  | _ => none

def ridgeIsBranch : Ridge → Bool
  | .bcc .. => true
  | _ => false

def ridgeIsLookup : Ridge → Bool
  | .lkx .. | .lkxTenant .. | .lkw .. => true
  | _ => false

def ridgeIsEmit : Ridge → Bool
  | .emit .. | .trap .. => true
  | _ => false

/-- The target of a branch at index i. -/
def ridgeTarget (i : Nat) : Ridge → Int
  | .bcc _ off => (i : Int) + (BitVec.ofNat 22 off.val).toInt
  | _ => (i : Int) + 1

/-- The g register a source names, other than g0. -/
def srcG : Src → Option Nat
  | .g n => if n.val = 0 then none else some n.val
  | .h _ => none

/-- The g registers an instruction reads (INSI reads rd). -/
def readsG : Ridge → List Nat
  | .alu _ _ a b => [srcG a, srcG b].filterMap id
  | .cmp _ a b => [srcG a, srcG b].filterMap id
  | .immop _ _ a _ => [srcG a].filterMap id
  | .shift _ _ a _ => [srcG a].filterMap id
  | .cmpImm _ a _ => [srcG a].filterMap id
  | .field f rd a _ _ =>
    [srcG a, match f, rd with | .insi, .g t => srcG (.g t) | _, _ => none].filterMap id
  | .lkx _ a b _ => [srcG a, srcG b].filterMap id
  | .lkxTenant _ a => [srcG a].filterMap id
  | .lkw _ a b _ => [srcG a, srcG b].filterMap id
  | _ => []

/-- An instruction reads H or X. -/
def readsHX : Ridge → Bool
  | .bcc .hit _ | .bcc .miss _ | .bcc .xs _ | .bcc .xc _ => true
  | _ => false

/-- The register an instruction writes: g registers as their number, o registers as 32 + number; g0 is none. -/
def writesReg : Ridge → Option Nat
  | .alu _ d _ _ | .immop _ d _ _ | .shift _ d _ _ | .field _ d _ _ _ =>
    (match d with | .g n => if n.val = 0 then none else some n.val | .o n => some (32 + n.val))
  | .lkx rd _ _ _ | .lkxTenant rd _ | .lkw rd _ _ _ => if rd.val = 0 then none else some rd.val
  | _ => none

/-- An instruction writes Z, N, C and V. -/
def writesZNCV : Ridge → Bool
  | .cmp .. | .cmpImm .. => true
  | _ => false

/-- A pair holds an emit. -/
def pairEmits (p : Prog) (q : Nat) : Bool :=
  ((progAt p (2 * q)).any ridgeIsEmit) || ((progAt p (2 * q + 1)).any ridgeIsEmit)

/-- The pairs that may follow pair q on a path; 12 is the end of the program. A branch that R47 refuses falls through. -/
def pairNext (p : Prog) (q : Nat) : List Nat :=
  if pairEmits p q then []
  else match progAt p (2 * q + 1) with
    | some (.bcc c off) =>
      let t := ridgeTarget (2 * q + 1) (.bcc c off)
      if (2 * q + 1 : Int) < t ∧ t < 24 ∧ t % 2 = 0 then
        (if c = .al then [t.toNat / 2] else [q + 1, t.toNat / 2])
      else [q + 1]
    | _ => [q + 1]

/-- The pairs some path reaches, computed pair by pair. -/
def reached (p : Prog) : List Nat :=
  (List.range 12).foldl (fun acc q => if q ∈ acc then acc ++ pairNext p q else acc) [0]

/-- Pair q flows into pair q + 1 on some path. -/
def flowsOn (p : Prog) (rs : List Nat) (q : Nat) : Bool := decide (q ∈ rs) && decide (q + 1 ∈ pairNext p q)

/-- The lookup of pair q, if it holds one. -/
def lookupOf (p : Prog) (q : Nat) : Option Ridge :=
  match progAt p (2 * q), progAt p (2 * q + 1) with
  | some a, b => if ridgeIsLookup a then some a else b.filter ridgeIsLookup
  | none, b => b.filter ridgeIsLookup

/-- Two instructions whose results land together write the same register or flag. -/
def clash (a b : Ridge) : Bool :=
  ((writesReg a).isSome && writesReg a == writesReg b) || (writesZNCV a && writesZNCV b)

/-- Number of lookups at indices below i. -/
def lookupsBelow (p : Prog) (i : Nat) : Nat := ((List.range i).filter fun j => (progAt p j).any ridgeIsLookup).length

/-- The write clash that instruction i completes: with slot 0 of its own pair when both land together, or with the lookup of
the pair before when an ALU result of this pair lands with it (R46). -/
def writeClash (p : Prog) (rs : List Nat) (i : Nat) (r : Ridge) : Bool :=
  let q := i / 2
  let same := decide (i % 2 = 1) && (progAt p (i - 1)).any fun a => ridgeIsLookup a == ridgeIsLookup r && clash a r
  let before := decide (0 < q) && !ridgeIsLookup r && flowsOn p rs (q - 1) && (lookupOf p (q - 1)).any fun a => clash a r
  same || before

/-- The rule that breaks at instruction i, the first of R47's table (R91); rules by their numbers in ERR_RULE. -/
def ruleAt (p : Prog) (rs : List Nat) (i : Nat) : Option Nat :=
  match p[i]? with
  | none => none
  | some (.error .encoding) => some 2
  | some (.error .banks) => some 3
  | some (.ok r) =>
    let t := ridgeTarget i r
    if r.spurOnly then some 2
    else if ridgeIsBranch r ∧ t < 2 * (i / 2 : Nat) + 2 then some 4
    else if ridgeIsBranch r ∧ (i % 2 = 0 ∨ t % 2 = 1 ∨ 23 < t) then some 5
    else if ridgeIsLookup r ∧ (lookupsBelow p i = 4 ∨ (i % 2 = 1 ∧ (progAt p (i - 1)).any ridgeIsLookup)) then some 6
    else if 0 < i / 2 ∧ flowsOn p rs (i / 2 - 1) ∧
        ((lookupOf p (i / 2 - 1)).any fun l => readsHX r || (readsG r).any fun g => writesReg l == some g) then some 7
    else if writeClash p rs i r then some 8
    else if ridgeIsEmit r ∧ i % 2 = 1 ∧ (progAt p (i - 1)).any ridgeIsEmit then some 9
    else if i = 23 ∧ 12 ∈ rs then some 9
    else none

/-- The rule a program breaks at its lowest index, with the index (R91). -/
def checkProgram (p : Prog) : Option (Nat × Nat) :=
  let rs := reached p
  (List.range 24).findSome? fun i => (ruleAt p rs i).map fun r => (r, i)

def progKey (t b p i : Nat) : Nat := ((t * 2 + b) * 8 + p) * 32 + i
def selKey (t b w : Nat) : Nat := (t * 2 + b) * 32 + w

/-- Program words and selector words (R479). -/
def Dev.progWord (d : Dev) (t b p i : Nat) : Nat := SMap.get 0 d.notch.prog (progKey t b p i)
def Dev.selWord (d : Dev) (t b w : Nat) : Nat := SMap.get 0 d.notch.sel (selKey t b w)

/-- The selector entry e of a bank (R78): bits [2:0] name the program, bit 3 marks it valid. -/
def Dev.selEntry (d : Dev) (t b e : Nat) : Nat := bits (d.selWord t b (e / 8)) (e % 8 * 4) 4

/-- A valid selector entry of the bank names program p. -/
def Dev.named (d : Dev) (t b p : Nat) : Bool := (List.range 256).any fun e => d.selEntry t b e == 8 + p

/-- What the check finds of program p of a bank: rule and index (R90, R91). -/
def Dev.checkOne (d : Dev) (t b p : Nat) : Option (Nat × Nat) :=
  if d.named t b p then
    let ws := (List.range 24).map fun i => d.progWord t b p i
    if ws.all (· == 0) then some (10, 0) else checkProgram (ws.map decodeRidge)
  else none

/-- The first program of a bank that breaks a rule: program, rule, index. A bank that yields an uncorrectable error is refused
with rule 2 (R93). -/
def Dev.checkBank (d : Dev) (t b : Nat) (ue : Bool) : Option (Nat × Nat × Nat) :=
  if ue then some (0, 2, 0)
  else (List.range 8).findSome? fun p => (d.checkOne t b p).map fun x => (p, x.1, x.2)

/-- The active bank of a tile, and its shadow (R89). -/
def Dev.activeBank (d : Dev) (t : Nat) : Nat := d.rd TILE.NOTCH_BANK.ACTIVE t
def Dev.shadowBank (d : Dev) (t : Nat) : Nat := 1 - d.activeBank t

/-- The state of a bank: 0 UNCHECKED, 1 CHECKING, 2 COMMITTED, 3 REFUSED. -/
def Dev.bankState (d : Dev) (t b : Nat) : Nat := SMap.get 0 d.notch.bankState (t * 2 + b)

/-- Sets the state of a bank; SHADOW_STATE shows the shadow's. -/
def Dev.setBankState (d : Dev) (t b v : Nat) : Dev :=
  let d := { d with notch := { d.notch with bankState := SMap.put 0 d.notch.bankState (t * 2 + b) v } }
  d.wr TILE.NOTCH_BANK.SHADOW_STATE t (d.bankState t (d.shadowBank t))

/-- A write of a program or selector word (R89, R91): ignored and counted on the active bank; on the shadow bank it makes the
bank UNCHECKED, stopping a check. `prog` is none for a selector word. -/
def Dev.bankWrite (d : Dev) (t b : Nat) (prog : Option Nat) (i v : Nat) : Dev :=
  if b = d.activeBank t then
    { d with notch := { d.notch with ignored := SMap.upd 0 d.notch.ignored t (· + 1) } }
  else
    let d := match prog with
      | some p => { d with notch := { d.notch with prog := SMap.put 0 d.notch.prog (progKey t b p i) (v % 2 ^ 32) } }
      | none => { d with notch := { d.notch with sel := SMap.put 0 d.notch.sel (selKey t b i) (v % 2 ^ 32) } }
    d.setBankState t b 0

/-- NOTCH_BANK.COMMIT (R91). -/
def Dev.bankCommit (d : Dev) (t : Nat) : Dev := d.setBankState t (d.shadowBank t) 1

/-- The check ends (R91). -/
def Dev.bankCheckEnd (d : Dev) (t : Nat) (ue : Bool) : Dev :=
  let b := d.shadowBank t
  if d.bankState t b = 1 then
    match d.checkBank t b ue with
    | none => d.setBankState t b 2
    | some (p, rule, i) =>
      let d := (d.wr TILE.NOTCH_BANK.ERR_RULE t rule).wr TILE.NOTCH_BANK.ERR_PROG t p
      (d.wr TILE.NOTCH_BANK.ERR_INDEX t i).setBankState t b 3
  else d

/-- NOTCH_BANK.SWITCH (R92): the committed shadow bank becomes active; the old bank becomes the shadow in the
state it had. -/
def Dev.bankSwitch (d : Dev) (t : Nat) : Dev :=
  let b := d.shadowBank t
  if d.bankState t b = 2 then
    let old := d.activeBank t
    let d := (d.wr TILE.NOTCH_BANK.ACTIVE t b).wrapAdd TILE.NOTCH_BANK.SWITCH_COUNT t
    d.setBankState t old (d.bankState t old)
  else d.setOn TILE.NOTCH_BANK.SWITCH_REFUSED t true

/-- PROGRAM_BANK_WRITE. -/
def execProgramBankWrite (t : Fin 16) (b : Fin 2) (prog : Option (Fin 8)) (i : Fin 32) (v : W32) (s : State) :=
  s.lift fun d =>
    if d.coreUp ∧ (prog.isNone ∨ i.val < 24) then d.bankWrite t b (prog.map Fin.val) i v.toNat else d
def execCommit (t : Fin 16) (s : State) := s.lift fun d => if d.coreUp then d.bankCommit t else d
def execCommitCheckEnd (t : Fin 16) (ue : Bool) (s : State) := s.lift fun d => d.bankCheckEnd t ue
def execSwitch (t : Fin 16) (s : State) := s.lift fun d => if d.coreUp then d.bankSwitch t else d

/-- The HI half of the port word applies both halves to later headers (R79). -/
def Dev.applyPortWord (d : Dev) (p hi : Nat) : Dev :=
  let d := d.wr PORT.NOTCH_WORD_HI.WORD p hi
  let w := d.rd PORT.NOTCH_WORD_LO.WORD p + 2 ^ 32 * d.rd PORT.NOTCH_WORD_HI.WORD p
  { d with notch := { d.notch with portWord := SMap.put 0 d.notch.portWord p w } }

def execNotchWordWrite (p : Fin 128) (v : W32) (s : State) :=
  s.lift fun d => if d.coreUp then d.applyPortWord p v.toNat else d

end Sys2Proof.Machine
end

