-- ==== Sys2Proof/Machine/Boot.lean ====
section
/-! DEFINITION. Images, flash slots and the policy (R370 to R374), the boot of the island (R375), loading Foothill and releasing
the cores (R376, R377, R393, R397). -/

namespace Sys2Proof.Machine

open Sys2Proof

/-! ### Images (R371, R372) -/

/-- Bytes `[o, o + n)` are zero. -/
def zeroAt (bs : List Byte) (o n : Nat) : Bool := ((bs.drop o).take n).all (· == 0)

/-- Entry `i` of a segment table: offset in the body, destination, length, TARGET. -/
def segEntry (bs : List Byte) (i : Nat) : Nat × Nat × Nat × Nat :=
  let o := 0x20 + 16 * i
  (fieldAt bs o 4, fieldAt bs (o + 4) 4, fieldAt bs (o + 8) 4, fieldAt bs (o + 12) 4)

/-- The image that a slot's bytes hold. -/
def Image.ofBytes (bs : List Byte) : Image :=
  let len := fieldAt bs 0x10 4
  let body := (bs.drop 1024).take len
  let n := fieldAt bs 0x0E 2
  let es := (List.range (min n 16)).map (segEntry bs)
  { type := fieldAt bs 6 2
    svn := fieldAt bs 8 1
    stateVer := fieldAt bs 0x0A 2
    stateMin := fieldAt bs 0x0C 2
    formOk := fieldAt bs 0 4 == 0x56474C4D && fieldAt bs 4 2 == 1 && zeroAt bs 0x14 12 && zeroAt bs 0x1B0 496 &&
      decide (fieldAt bs 8 1 ≤ 63) && decide (fieldAt bs 9 1 ≤ 3) && decide (1 ≤ n) && decide (n ≤ 16) &&
      body.length == len && es.all fun e => decide (e.1 + e.2.2.1 ≤ len)
    keyOk := Config.imageKeyOk bs
    sigOk := Config.imageSigOk bs
    hashOk := Config.imageHashOk bs
    segs := es.map fun e => ⟨e.2.2.2, e.2.1, (body.drop e.1).take e.2.2.1⟩ }

/-- Bytes of a segment's target (R372): none for a TARGET the type does not have. -/
def targetSize (type target : Nat) : Option Nat :=
  if type = 1 then (if target = 0 then some (192 * 1024) else none)
  else if type = 3 then
    (if target = 0 then some (64 * 1024) else if target = 1 then some (128 * 1024)
     else if target = 2 then some (1024 * 1024) else none)
  else none

/-- A segment lies within its target; a policy's one segment is read, not loaded. -/
def segFits (type : Nat) (s : Seg) : Bool :=
  type == 2 || (match targetSize type s.target with
    | some n => decide (s.dest + s.data.length ≤ n)
    | none => false)

/-- Two segments overlap in their target. -/
def segsMeet (a b : Seg) : Bool :=
  a.target == b.target && decide (a.dest < b.dest + b.data.length) && decide (b.dest < a.dest + a.data.length)

/-- No two segments of a list overlap. -/
def apart : List Seg → Bool
  | [] => true
  | s :: ss => ss.all (fun t => !segsMeet s t) && apart ss

/-- Summit accepts the image for a slot of a type (R372). -/
def Dev.imageOk (d : Dev) (type : Nat) (im : Image) : Bool :=
  im.formOk && im.type == type && im.keyOk && im.sigOk && im.hashOk &&
  decide (SMap.get 0 d.summit.fuseSvn type ≤ im.svn) &&
  im.segs.all (segFits type) && (type == 2 || apart im.segs) && (type != 2 || im.segs.length == 1)

/-- The accepted image of a flash slot, if it holds one. -/
def Dev.slotImage (d : Dev) (slot type : Nat) : Option Image :=
  (SMap.get none d.summit.flash slot).filter (d.imageOk type)

/-- The slot of a pair (`base`, `base` + 1) that boots, trying `first` and then the other: its number in the pair, its image,
whether the first tried was refused (R375). -/
def Dev.chooseSlot (d : Dev) (base type first : Nat) : Option (Nat × Image × Bool) :=
  match d.slotImage (base + first) type with
  | some im => some (first, im, false)
  | none =>
    match d.slotImage (base + (1 - first)) type with
    | some im => some (1 - first, im, true)
    | none => none

/-- A bit of directory word 0 (R370), and setting it. -/
def Dev.dirBit (d : Dev) (b : Nat) : Nat := bits d.summit.dir b 1
def Dev.setDirBit (d : Dev) (b v : Nat) : Dev :=
  { d with summit := { d.summit with dir := d.summit.dir - d.dirBit b * 2 ^ b + v % 2 * 2 ^ b } }

/-- The policy that an accepted policy image holds (R374). -/
def Policy.ofImage (im : Image) : Policy :=
  let b := match im.segs with | [] => [] | s :: _ => s.data
  let f := fieldAt b 0x20 4
  { mgrPorts := fieldAt b 0 16
    ideReqPorts := fieldAt b 0x10 16
    i3cMgr := f.testBit 0
    i3cFlash := f.testBit 1
    debugScopes := bits f 2 6
    allow := (List.range (min 64 (fieldAt b 0x24 4))).map fun i => (fieldAt b (0x28 + 8 * i) 4, fieldAt b (0x2C + 8 * i) 4) }

/-! ### The island (R375) -/

/-- The nonce is replaced (R391); its value is free. -/
def Dev.newNonce (d : Dev) : Dev :=
  let x := d.draw
  (x.2.wr SUMMIT.DBG_NONCE_LO.V 0 x.1.toNat).wr SUMMIT.DBG_NONCE_HI.V 0 (x.1.toNat / 2 ^ 32)

/-- BOOT_STATUS shows the fuse security versions. -/
def Dev.showSvn (d : Dev) : Dev :=
  (d.wr SUMMIT.BOOT_STATUS.SUMMIT_SVN 0 (SMap.get 0 d.summit.fuseSvn 1)).wr SUMMIT.BOOT_STATUS.FOOTHILL_SVN 0
    (SMap.get 0 d.summit.fuseSvn 3)

def Dev.stage (d : Dev) (n : Nat) : Dev := d.wr SUMMIT.BOOT_STATUS.STAGE 0 n
def Dev.bootFail (d : Dev) (n : Nat) : Dev := (d.stage 15).wr SUMMIT.BOOT_STATUS.FAIL 0 n

/-- Steps 1 to 5 of R375: the fuse shadow, the Summit image (the pending slot first, R394), the policy image. ROM zeroes the key
store (R387). -/
def Dev.islandBoot (d : Dev) : Dev :=
  let d := { d with summit := { d.summit with lockKeys := [], ideKeys := [] } }
  let d := (d.newNonce.showSvn.wr BIST.REPAIR_STATUS.FUSED 0 d.bist.fused.length).stage 1
  let first := if d.dirBit 3 = 1 then 1 - d.dirBit 0 else d.dirBit 0
  match d.chooseSlot 0 1 first with
  | none => d.bootFail 1
  | some (slot, sim, fell) =>
    let d := if d.dirBit 3 = 1 then (d.setDirBit 0 slot).setDirBit 3 0 else d
    let d := (d.wr SUMMIT.BOOT_STATUS.SUMMIT_SLOT 0 slot).setOn SUMMIT.BOOT_STATUS.FALLBACK 0 fell
    match d.chooseSlot 2 2 (d.dirBit 1) with
    | none => d.bootFail 2
    | some (ps, im, pfell) =>
      let d := { d with summit := { d.summit with
        policy := some (Policy.ofImage im), svnRun := SMap.put 0 (SMap.put 0 d.summit.svnRun 1 sim.svn) 2 im.svn } }
      let d := (d.wr SUMMIT.BOOT_STATUS.POLICY_SLOT 0 ps).setOn SUMMIT.BOOT_STATUS.FALLBACK 0 (fell || pfell)
      d.stage 2

/-! ### Foothill (R376 steps 5 and 6) -/

/-- Bytes of an image go to memory; the words they fill are no longer poisoned. -/
def Dev.storeImage (d : Dev) (flat : Nat) (data : List Byte) : Dev :=
  let d := d.storeBytes flat data
  d.forIn' ((List.range ((data.length + 7) / 8)).map fun i => flat + 8 * i) fun a d => d.setPoison a false

/-- The SRAM segments of an image go to a core, its Spur memory segments to an image area (R371, R393). -/
def Dev.loadCore (d : Dev) (im : Image) (c : Nat) : Dev :=
  d.forIn' im.segs fun s d =>
    if s.target = 0 then d.storeImage (coreBase c + s.dest) s.data
    else if s.target = 1 then d.storeImage (coreBase c + 0x20000 + s.dest) s.data
    else d
def Dev.loadArea (d : Dev) (im : Image) (area : Nat) : Dev :=
  d.forIn' im.segs fun s d => if s.target = 2 then d.storeImage (spurBase + 0x100000 * area + s.dest) s.data else d

/-- A refused image: Summit zeroes every location it wrote while reading (R372). -/
def Image.zeroed (im : Image) : Image := { im with segs := im.segs.map fun s => { s with data := s.data.map fun _ => 0 } }

/-- An image of a slot that is refused after its header and segment table passed has been written and is zeroed. -/
def Dev.zeroRefused (d : Dev) (slot : Nat) (cores : List Nat) (area : Nat) : Dev :=
  match SMap.get none d.summit.flash slot with
  | some im =>
    if im.formOk ∧ im.segs.all (segFits 3) ∧ ¬d.imageOk 3 im then
      (d.forIn' cores fun c d => d.loadCore im.zeroed c).loadArea im.zeroed area
    else d
  | none => d

/-- MGR.PORTS takes the policy's ports (R374). -/
def Dev.policyPorts (d : Dev) : Dev :=
  match d.summit.policy with
  | some p => d.each 4 fun i d => d.wr MGR.PORTS.PORTS i (p.mgrPorts / 2 ^ (32 * i))
  | none => d

/-- Port `p` is a manager port (R214, R374). -/
def Dev.mgrPort (d : Dev) (p : Nat) : Bool := (d.rd MGR.PORTS.PORTS (p / 32)).testBit (p % 32)

/-- STATE_FMT on every core (R397). -/
def Dev.setStateFmt (d : Dev) (v : Nat) : Dev := d.each 9 fun c d => d.wr SPUR.IMG_AREA.STATE_FMT c v

/-- The lowest core of a mask. -/
def lowCore (m : Nat) : Option Nat := (List.range 9).find? fun c => m.testBit c

/-- Roles at release: C0 to C7 hold roles 0 to 7 and C8 is the spare. Failed cores are held again (R427); the spare takes the role
of the lowest of them and the other roles stop (DESIGN CHOICE: the spec does not say which core takes a failed core's role
after a warm reset). -/
def Dev.releaseCores (d : Dev) : Dev :=
  let failed := d.rd SPUR.HANDOVER.FAILED
  let spareOk := !failed.testBit 8
  let lost := lowCore (failed % 256)
  let d := d.each 9 fun c d =>
    let k : SpurCore := { mode := .running, role := if c < 8 then c else 15 }
    if failed.testBit c then d.setCore c { k with mode := .failed, role := 15 }
    else if c = 8 then d.setCore c { k with role := lost.getD 15 }
    else d.setCore c k
  d.wr SPUR.HANDOVER.SPARE 0 (if spareOk && lost.isNone then 8 else 15)

/-- The save that a copy of the Cairn goes to (R421): an erased one, else the one whose largest SEQ is smaller. -/
def Dev.chooseSave (d : Dev) : Nat :=
  match SMap.get none d.summit.saves 0, SMap.get none d.summit.saves 1 with
  | none, _ => 0
  | _, none => 1
  | some a, some b => if b.seq < a.seq then 1 else 0

/-- A frozen Cairn begins to be copied to flash (R376). -/
def Dev.startSave (d : Dev) : Dev :=
  d.when (d.on CAIRN.STATUS.FROZEN) fun d =>
    { d with summit := { d.summit with saving := some d.chooseSave } }.setOn SUMMIT.BOOT_STATUS.CAIRN_SAVING 0 true

/-- Steps 5 and 6 of R376: the Foothill image goes to all nine cores and image area 0, the cores are released, the restart timers
of the slots run from the end of the reset (R362). Without a valid image the cores stay held (R378). -/
def Dev.bootFoothill (d : Dev) : Dev :=
  let d := d.each 32 fun s d => d.setOn SLOT.PWR_STATUS.RESTART_RUN s true
  let d := d.zeroRefused (4 + d.dirBit 2) (List.range 9) 0
  match d.chooseSlot 4 3 (d.dirBit 2) with
  | none => (d.zeroRefused (5 - d.dirBit 2) (List.range 9) 0).bootFail 3
  | some (slot, im, fell) =>
    let d := d.wr SUMMIT.BOOT_STATUS.FOOTHILL_SLOT 0 slot
    let d := d.when fell fun d => d.setOn SUMMIT.BOOT_STATUS.FALLBACK 0 true
    let d := (d.each 9 fun c d => d.loadCore im c).loadArea im 0
    let d := { d with summit := { d.summit with
      stateVer := im.stateVer, svnRun := SMap.put 0 d.summit.svnRun 3 im.svn } }.setStateFmt im.stateVer
    (d.releaseCores.stage 4).startSave

end Sys2Proof.Machine
end

