-- ==== Sys2Proof/Machine/Slot.lean ====
section
/-! DEFINITION. Slot power channels (12_slot_power_sideband R347 to R363): the gate, power-good, SLOT_PERST_N, trips, shedding,
slot events; and the commands on one channel. -/

namespace Sys2Proof.Machine

open Sys2Proof

/-! ### Slot events (R252, R253, R308, R363) -/

/-- The port that names a slot (R347). -/
def Dev.portOfSlot (d : Dev) (s : Nat) : Option Nat :=
  ((SMap.keys (fun k b => k % 1024 == PORT.CFG.SLOT_V.num && b == 1) d.regs).map (· / 1024)).find? fun p =>
    d.rd PORT.CFG.SLOT p == s

/-- vDSPs mapped to a port of any device: domain × 32 + k. -/
def Dev.vdspsAt (d : Dev) (dev p : Nat) : List Nat :=
  ((SMap.keys (fun k b => k % 1024 == VSW.VDSP_MAP.VALID.num && b == 1) d.regs).map (· / 1024)).filter fun i =>
    d.rd VSW.VDSP_MAP.PORT i == p && d.rd VSW.VDSP_MAP.DEV i == dev

/-- A SLOT_EVT (R253 byte 1) reaches the vDSPs that present the slot (R308). -/
def Vdsp.slotEvt (v : Vdsp) (ev : Nat) : Vdsp :=
  { v with
    pdChanged := v.pdChanged || ev.testBit 0
    pdState := if ev.testBit 0 then ev.testBit 1 else v.pdState
    attention := v.attention || ev.testBit 2
    cmdCompleted := v.cmdCompleted || (decide (0 < v.pccAt) && ev.testBit 4)
    pccAt := if ev.testBit 4 then 0 else v.pccAt }

/-- A power fault reaches the vDSPs that present the slot (R308). -/
def Vdsp.slotFault (v : Vdsp) : Vdsp :=
  { v with powerFault := true, cmdCompleted := v.cmdCompleted || decide (0 < v.pccAt), pccAt := 0 }

/-- The slot status of the vDSPs mapped to a port changes; each signals its MSI where it is enabled. -/
def Dev.tellVdsps (d : Dev) (dev p : Nat) (f : Vdsp → Vdsp) : Dev :=
  d.forIn' (d.vdspsAt dev p) fun i d => d.vdspTold i (f (d.vdsp i))

/-- Sends a slot message over the fabric when the slot has a route (R252); to this device itself it is consumed here. -/
def Dev.slotMessage (d : Dev) (s mtype : Nat) (payload : List Byte) : Dev :=
  if d.on FABRIC.SLOT_ROUTE.VALID s then
    let dev := d.rd FABRIC.SLOT_ROUTE.DEV s
    let m := d.colMessage mtype dev payload
    if dev = d.rd FABRIC.ID.DEV then m.2.signalSlot
    else m.2.sendFabric dev (d.rd FABRIC.SLOT_ROUTE.PORT s) (d.rd FABRIC.SLOT_ROUTE.CLASS s) 4 none m.1
  else d

/-- A presence, attention or power-good event of slot `s` (R363): EVENT.SLOT, a SLOT_EVT message, the vDSP's slot status. -/
def Dev.slotEvent (d : Dev) (s ev : Nat) : Dev :=
  let d := (d.signalSlot).slotMessage s 2 (natBytes 1 s ++ natBytes 1 ev)
  match d.portOfSlot s with
  | some p => d.tellVdsps (d.rd FABRIC.ID.DEV) p fun v => v.slotEvt ev
  | none => d

/-- A power alert of slot `s` (R253): EVENT.SLOT, a PWR_ALERT message, the vDSP's Power Fault Detected for a fault. -/
def Dev.slotAlert (d : Dev) (s cause : Nat) (latched : Bool) : Dev :=
  let d := (d.signalSlot).slotMessage s 3 (natBytes 1 s ++ natBytes 1 cause ++ natBytes 1 latched.toNat)
  match d.portOfSlot s with
  | some p => d.when (cause < 5) fun d => d.tellVdsps (d.rd FABRIC.ID.DEV) p Vdsp.slotFault
  | none => d

/-! ### Gate, power-good, PERST -/

/-- The pin SLOT_PERST_N of a slot: deasserted if `b`. -/
def Dev.drivePerst (d : Dev) (s : Nat) (b : Bool) : Dev :=
  if SMap.get false d.slot.released s = b then d
  else { d with slot := { d.slot with released := SMap.put false d.slot.released s b } }.emit (.pin .slotPerst s b)

/-- SLOT_PERST_N of a slot: deasserted if `b`; its assertion resets the port, which freezes with cause 11 (R263, R320). -/
def Dev.setReleased (d : Dev) (s : Nat) (b : Bool) : Dev :=
  if !b && SMap.get false d.slot.released s then
    let d := d.drivePerst s false
    match d.portOfSlot s with
    | some p => d.portFreeze p 11
    | none => d
  else d.drivePerst s b

/-- Power-good deasserts: SLOT_PERST_N asserts (R352); without a fault STATE goes back to 2 (R351). -/
def Dev.dropPg (d : Dev) (s : Nat) : Dev :=
  let d := d.setOn SLOT.PWR_STATUS.PG s false
  let d := { d with slot := { d.slot with pgAt := SMap.put 0 d.slot.pgAt s 0 } }
  d.setReleased s false

/-- The channel's gate is driven: it ramps or is on. -/
def Dev.slotActive (d : Dev) (s : Nat) : Bool :=
  d.rd SLOT.PWR_STATUS.STATE s == 2 || d.rd SLOT.PWR_STATUS.STATE s == 3

/-- Where a channel stands with its gate off: latched, waiting or off. -/
def Dev.slotRest (d : Dev) (s : Nat) : Nat :=
  if d.on SLOT.PWR_STATUS.LATCHED s then 4 else if d.on SLOT.PWR_CTL.ON s then 1 else 0

/-- The gate is pulled down (R352, R354, R357): power-good and SLOT_PWREN deassert, SLOT_PERST_N asserts, the restart timer
starts. `strong`: through the 2 A sink. -/
def Dev.gateOff (d : Dev) (s : Nat) (strong : Bool) : Dev :=
  let was := d.on SLOT.PWR_STATUS.PG s
  let d := (d.dropPg s).emit (.pin .slotPwrEn s false)
  let d := { d with slot := { d.slot with strong := SMap.put false d.slot.strong s strong } }
  let d := (d.when strong fun d => d.emit (.pin .gate2A s true)).setOn SLOT.PWR_STATUS.RESTART_RUN s true
  let d := d.wr SLOT.PWR_STATUS.STATE s (d.slotRest s)
  d.when was fun d => d.slotEvent s 0x10

/-- A trip (R354) with a cause of R253 and the sense voltage measured: recorded, the port that names the slot freezes with
cause 5 (R363), the outcome follows the retry setting; a shed is never latched. -/
def Dev.slotTrip (d : Dev) (s cause sense : Nat) : Dev :=
  let bit := match cause with
    | 1 => SLOT.PWR_STATUS.HARD_SHORT
    | 2 => SLOT.PWR_STATUS.FLT_TIMER
    | 3 => SLOT.PWR_STATUS.GATE_FAIL
    | 4 => SLOT.PWR_STATUS.FET_SHORT
    | _ => SLOT.PWR_STATUS.SHED
  let d := (d.setOn bit s true).wr SLOT.PWR_MEAS1.SENSE s sense
  let lim := d.rd SLOT.PWR_CTL.RETRY_MAX s
  let retry := cause ≤ 2 && d.on SLOT.PWR_CTL.AUTO_RETRY s && (lim == 0 || d.rd SLOT.PWR_STATUS.RETRIES s < lim)
  let latch := cause ≤ 4 && !retry
  let d := d.when latch fun d => d.setOn SLOT.PWR_STATUS.LATCHED s true
  let d := { d with slot := { d.slot with retry := SMap.put false d.slot.retry s retry } }
  let d := match d.portOfSlot s with
    | some p => d.portFreeze p 5
    | none => d
  let d := d.gateOff s (cause ≤ 3)
  let d := d.cairnPush 0x09 s 1 cause sense
  let d := d.when latch fun d => d.cairnPush 0x09 s 2 cause sense
  d.slotAlert s cause latch

/-- The filtered PWR_WARN_N, SYS_RST_N and PWR_OK (R364). -/
def Dev.pwrWarn (d : Dev) : Bool := d.on SBIN.STATUS.LEVEL 128
def Dev.sysRst (d : Dev) : Bool := d.on SBIN.STATUS.LEVEL 129
def Dev.pwrOk (d : Dev) : Bool := d.on SBIN.STATUS.LEVEL 130

/-- A channel that has just become one with ON = 1 waits for its conditions. -/
def Dev.slotWait (d : Dev) (s : Nat) : Dev :=
  d.when (!d.slotActive s) fun d => d.wr SLOT.PWR_STATUS.STATE s (d.slotRest s)

/-- ON written 1 (R349): refused while a limit is 0. -/
def Dev.slotOn (d : Dev) (s : Nat) : Dev :=
  if d.rd SLOT.PWR_LIMIT.ILIM s = 0 ∨ d.rd SLOT.PWR_LIMIT.RSENSE s = 0 ∨ d.rd SLOT.PWR_FOLD.LIMIT s = 0 then
    d.setOn SLOT.PWR_STATUS.ON_REFUSED s true
  else (d.setOn SLOT.PWR_CTL.ON s true).slotWait s

/-- ON written 0 (R359): the gate goes off through 10 mA and the restart timer starts. -/
def Dev.slotOff (d : Dev) (s : Nat) : Dev := (d.setOn SLOT.PWR_CTL.ON s false).gateOff s false

/-- CLEAR (R359). -/
def Dev.slotClear (d : Dev) (s : Nat) : Dev :=
  let d := d.forIn' [SLOT.PWR_STATUS.LATCHED, SLOT.PWR_STATUS.HARD_SHORT, SLOT.PWR_STATUS.FLT_TIMER,
    SLOT.PWR_STATUS.GATE_FAIL, SLOT.PWR_STATUS.FET_SHORT, SLOT.PWR_STATUS.SHED, SLOT.PWR_STATUS.RETRIES] fun f d => d.wr f s 0
  d.slotWait s

/-- A limit or fold-back write (R348): refused if V_HS would exceed 100 mV or V_ILIM fall below 4 mV. In 10 mA × µΩ: V_ILIM is
ILIM × RSENSE ÷ 100 µV. -/
def limitOk (ilim rs : Nat) : Bool := decide (3 * ilim * rs ≤ 10000000) && decide (400000 ≤ ilim * rs)

/-- PWR_LIMIT or PWR_FOLD is written. -/
def Dev.pwrLimitWrite (d : Dev) (s : Nat) (fold : Bool) (v : Nat) : Dev :=
  let ilim := if fold then d.rd SLOT.PWR_LIMIT.ILIM s else SLOT.PWR_LIMIT.ILIM.of v
  let rs := if fold then d.rd SLOT.PWR_LIMIT.RSENSE s else SLOT.PWR_LIMIT.RSENSE.of v
  if limitOk ilim rs then
    if fold then d.wr SLOT.PWR_FOLD.LIMIT s (SLOT.PWR_FOLD.LIMIT.of v)
    else (d.wr SLOT.PWR_LIMIT.ILIM s ilim).wr SLOT.PWR_LIMIT.RSENSE s rs
  else d.setOn SLOT.PWR_STATUS.LIMIT_REFUSED s true

/-- PERST is written 0 when power-good has held for 100 ms: SLOT_PERST_N deasserts at once; else the deassertion is held
(R352). -/
def Dev.perstWritten (d : Dev) (s : Nat) : Dev :=
  let at_ := SMap.get 0 d.slot.pgAt s
  if d.on SLOT.PWR_CTL.PERST s then d.setReleased s false
  else if d.on SLOT.PWR_STATUS.PG s ∧ 0 < at_ ∧ 25000000 ≤ d.timeBase - (at_ - 1) then d.setReleased s true
  else d

/-- A write of PWR_CTL (R349, R352, R359). -/
def Dev.pwrCtlWrite (d : Dev) (s v : Nat) : Dev :=
  let d := d.forIn' [SLOT.PWR_CTL.AUTO_RETRY, SLOT.PWR_CTL.RETRY_MAX, SLOT.PWR_CTL.PRSNT_GATE, SLOT.PWR_CTL.PERST] fun f d =>
    d.wr f s (f.of v)
  let d := d.perstWritten s
  let d := d.when (v.testBit 8) fun d => d.slotClear s
  if v.testBit 0 then (if d.on SLOT.PWR_CTL.ON s then d else d.slotOn s)
  else d.slotOff s

/-! ### The commands -/

/-- A command on slot channels works while the core domain runs. -/
def Dev.slotRun (d : Dev) (f : Dev → Dev) : Dev := if d.coreUp then f d else d

def execSlotOn (s : Fin 32) (σ : State) := σ.lift fun d => d.slotRun fun d => d.slotOn s
def execSlotOff (s : Fin 32) (σ : State) := σ.lift fun d => d.slotRun fun d => d.slotOff s
def execSlotClear (s : Fin 32) (σ : State) := σ.lift fun d => d.slotRun fun d => d.slotClear s
def execPwrLimitWrite (s : Fin 32) (fold : Bool) (v : W32) (σ : State) :=
  σ.lift fun d => d.slotRun fun d => d.pwrLimitWrite s fold v.toNat

/-- The conditions of R349 hold, VIN as measured in 4 mV steps. -/
def Dev.rampReady (d : Dev) (s vin : Nat) : Bool :=
  d.on SLOT.PWR_CTL.ON s && !d.on SLOT.PWR_STATUS.LATCHED s && !d.on SLOT.PWR_STATUS.RESTART_RUN s &&
  (d.on SLOT.PWR_STATUS.PRSNT_STABLE s || !d.on SLOT.PWR_CTL.PRSNT_GATE s) && decide (2550 ≤ vin) &&
  !(d.pwrWarn && (d.rd SLOT.WARN_SHED.MASK).testBit s) && !d.slotActive s

/-- The ramp starts (R350): SLOT_PWREN asserts; a retry is counted (R354). -/
def execRampStart (s : Fin 32) (vin src : Fin 4096) (σ : State) :=
  σ.lift fun d => d.slotRun fun d =>
    let d := (d.wr SLOT.PWR_MEAS0.VIN s vin).wr SLOT.PWR_MEAS0.SRC s src
    if d.rampReady s vin then
      let d := d.when (SMap.get false d.slot.retry s) fun d => d.bump SLOT.PWR_STATUS.RETRIES s
      let d := { d with slot := { d.slot with
        retry := SMap.put false d.slot.retry s false, strong := SMap.put false d.slot.strong s false } }
      (d.wr SLOT.PWR_STATUS.STATE s 2).emit (.pin .slotPwrEn s true)
    else d

/-- Power-good asserts (R351) on the measured levels, which have held for 1 ms out of regulation. -/
def execPowerGoodAssert (s : Fin 32) (vin src vgs : Fin 4096) (σ : State) :=
  σ.lift fun d => d.slotRun fun d =>
    let d := ((d.wr SLOT.PWR_MEAS0.VIN s vin).wr SLOT.PWR_MEAS0.SRC s src).wr SLOT.PWR_MEAS1.VGS s vgs
    if d.rd SLOT.PWR_STATUS.STATE s = 2 ∧ 2000 ≤ vgs.val ∧ vin.val ≤ src.val + 125 then
      let d := (d.wr SLOT.PWR_STATUS.STATE s 3).setOn SLOT.PWR_STATUS.PG s true
      let d := { d with slot := { d.slot with pgAt := SMap.put 0 d.slot.pgAt s (d.timeBase + 1) } }
      d.slotEvent s 0x30
    else d

/-- Power-good deasserts on the measured levels (R351): below 7.0 V of gate drive, or the slot rail 1.0 V low. -/
def execPowerGoodDeassert (s : Fin 32) (vin src vgs : Fin 4096) (σ : State) :=
  σ.lift fun d => d.slotRun fun d =>
    let d := ((d.wr SLOT.PWR_MEAS0.VIN s vin).wr SLOT.PWR_MEAS0.SRC s src).wr SLOT.PWR_MEAS1.VGS s vgs
    if d.rd SLOT.PWR_STATUS.STATE s = 3 ∧ (vgs.val < 1750 ∨ src.val + 250 < vin.val) then
      ((d.dropPg s).wr SLOT.PWR_STATUS.STATE s 2).slotEvent s 0x10
    else d

/-- 100 ms after power-good a written PERST = 0 takes effect (R352). -/
def execSlotPerstRelease (s : Fin 32) (σ : State) :=
  σ.lift fun d => d.slotRun fun d =>
    if d.on SLOT.PWR_STATUS.PG s ∧ ¬d.on SLOT.PWR_CTL.PERST s then d.setReleased s true else d

/-- The fault time in regulation ends (R353). -/
def execFaultTimerExpiry (s : Fin 32) (sense : Fin 4096) (σ : State) :=
  σ.lift fun d => d.slotRun fun d => if d.slotActive s then d.slotTrip s 2 sense else d

/-- The sense voltage exceeds V_HS (R355): a trip while the gate is driven; during a normal turn-off the 2 A sink is switched
on (R360). -/
def execHardShort (s : Fin 32) (sense : Fin 4096) (σ : State) :=
  σ.lift fun d => d.slotRun fun d =>
    if 3 * d.rd SLOT.PWR_LIMIT.ILIM s * d.rd SLOT.PWR_LIMIT.RSENSE s < sense.val * 2500 then
      if d.slotActive s then d.slotTrip s 1 sense
      else ({ d with slot := { d.slot with strong := SMap.put false d.slot.strong s true } }.emit
        (.pin .gate2A s true)).setOn SLOT.PWR_STATUS.HARD_SHORT s true
    else d

/-- 5 ms of sourcing with V_GS below 3.0 V (R356). -/
def execGateFail (s : Fin 32) (vgs : Fin 4096) (σ : State) :=
  σ.lift fun d => d.slotRun fun d =>
    let d := d.wr SLOT.PWR_MEAS1.VGS s vgs
    if d.slotActive s ∧ vgs.val < 750 then d.slotTrip s 3 (d.rd SLOT.PWR_MEAS1.SENSE s) else d

/-- The gate has been off for 500 ms and the slot rail stays above half of the input (R356). -/
def execFetShort (s : Fin 32) (vin src : Fin 4096) (σ : State) :=
  σ.lift fun d => d.slotRun fun d =>
    let d := (d.wr SLOT.PWR_MEAS0.VIN s vin).wr SLOT.PWR_MEAS0.SRC s src
    if !d.slotActive s ∧ vin.val < 2 * src.val then d.slotTrip s 4 (d.rd SLOT.PWR_MEAS1.SENSE s) else d

/-- The restart timer ends (R357). -/
def execRestartTimerExpiry (s : Fin 32) (σ : State) :=
  σ.lift fun d => d.slotRun fun d => (d.setOn SLOT.PWR_STATUS.RESTART_RUN s false).slotWait s

/-- Power-good has held for 1 s (R354). -/
def execRetriesClear (s : Fin 32) (σ : State) :=
  σ.lift fun d => d.slotRun fun d => if d.on SLOT.PWR_STATUS.PG s then d.wr SLOT.PWR_STATUS.RETRIES s 0 else d

/-- Presence has held for 200 ms (R358). -/
def execPresenceStable (s : Fin 32) (σ : State) :=
  σ.lift fun d => d.slotRun fun d =>
    if d.on SBIN.STATUS.LEVEL (64 + s.val) then d.setOn SLOT.PWR_STATUS.PRSNT_STABLE s true else d

/-- Every channel goes off through 10 mA, as a reset or a power-down does (R362, R450). -/
def Dev.slotsOff (d : Dev) : Dev :=
  d.each 32 fun s d => (d.drivePerst s false).emit (.pin .slotPwrEn s false)

/-- The channels in WARN_SHED shed (R361). -/
def Dev.shed (d : Dev) : Dev :=
  d.each 32 fun s d => d.when ((d.rd SLOT.WARN_SHED.MASK).testBit s && d.slotActive s) fun d => d.slotTrip s 5
    (d.rd SLOT.PWR_MEAS1.SENSE s)

/-- Presence is lost (R275, R358): the channel turns off when PRSNT_GATE is set, and the slot's port freezes with cause 2. -/
def Dev.presenceLost (d : Dev) (s : Nat) : Dev :=
  let d := match d.portOfSlot s with
    | some p => d.portFreeze p 2
    | none => d
  d.when (d.on SLOT.PWR_CTL.PRSNT_GATE s && d.slotActive s) fun d => d.gateOff s false

end Sys2Proof.Machine
end

