-- ==== Sys2Proof/Machine/Reset.lean ====
section
/-! DEFINITION. Resets and power (01_tiles_planes_pool R17 to R22, 16_supplies_clocks_reset): VAUX power-on, cold, warm, tile and
Spur core reset, the core phase, the supply monitors, the power-down. -/

namespace Sys2Proof.Machine

open Sys2Proof

/-! ### Grants end with a reset (R391) -/

/-- The active grant ends: halted cores resume, the nonce is replaced. -/
def Dev.dropGrant (d : Dev) : Dev :=
  if d.summit.grant.isSome then
    let d := d.forIn' d.summit.halted fun c d =>
      d.updCore c fun k => { k with mode := if k.mode == .halted then .running else k.mode }
    let d : Dev := { d with summit := { d.summit with grant := none, halted := [], stepping := [] } }
    let d := ((d.setOn SUMMIT.GRANT_STATUS.ACTIVE 0 false).wr SUMMIT.GRANT_STATUS.SCOPE 0 0).wr SUMMIT.GRANT_STATUS.REMAIN 0 0
    d.newNonce
  else d

/-! ### Cold reset (R446, R447) -/

/-- The bypass switches of the Col ports close (R262, R454). -/
def Dev.closeBypass (d : Dev) : Dev :=
  let d := (d.emit (.pin .colBypass 0 true)).emit (.pin .colBypass 1 true)
  (d.wr COL.LINK_STATUS.STATE 0 0).wr COL.LINK_STATUS.STATE 1 0

/-- Field numbers that keep their value through a cold reset: those that take their Reset values only at VAUX power-on (R412, R442,
R448), the live levels of the sideband inputs, the counts of repairs. -/
def coldKept : List Nat :=
  [CAIRN.TRIG.SYSRST, CAIRN.TRIG.PWRWARN, CAIRN.TRIG.TILE, CAIRN.TRIG.STACK, CAIRN.TRIG.NO_SPARE, CAIRN.STATUS.FROZEN,
   CAIRN.STATUS.WR_IDX, CAIRN.STATUS.CAUSE, CAIRN.STATUS.FREEZE_IDX, CAIRN.COUNT.DISCARDED, CAIRN.COUNT.TRIGGERS,
   CAIRN.RD_IDX.INDEX, CAIRN.RD_DATA.DATA, SUP.STATUS.IN_RANGE, SUP.STATUS.PWR_OK, SUP.FAULT.UNDER, SUP.FAULT.OVER, SUP.MEAS.MV,
   DEV.RST_STATUS.COLD_CAUSE, DEV.RST_STATUS.WARM_CAUSE, DEV.RST_STATUS.COLD_COUNT, DEV.RST_STATUS.WARM_COUNT,
   DEV.RST_STATUS.REFUSED, SBIN.STATUS.LEVEL, SBIN.STATUS.RAW, BIST.REPAIR_STATUS.SOFT, BIST.REPAIR_STATUS.FUSED,
   BIST.REPAIR_STATUS.FULL].map Fld.num

/-- The registers of a device that keeps the fields numbered in `nums`. -/
def keepRegs (nums : List Nat) (m : SMap Nat) : SMap Nat := SMap.drop (fun k => !nums.contains (k % 1024)) m

/-- What a cold reset leaves before the island boots: flash, fuses, the Cairn, Summit's table of soft repairs, the levels of the
sideband inputs. -/
def Dev.coldState (d : Dev) : Dev :=
  { power := .cold, osc := d.osc, free := d.free, regs := keepRegs coldKept d.regs, cairn := d.cairn
    summit := { flash := d.summit.flash, dir := d.summit.dir, saves := d.summit.saves, fuseSvn := d.summit.fuseSvn }
    bist := { soft := d.bist.soft, fused := d.bist.fused }
    out := d.out }

/-- A cold reset starts with a cause (R446, R447); in VAUX power-on reset and in a cold reset it has no effect of its own. The
record of a Summit fatal condition (causes 4 and 5) is a trigger of cause 3, that of SYS_RST_N one of cause 5 when enabled
(R416). -/
def Dev.coldReset (d : Dev) (cause : Nat) : Dev :=
  if d.power = .vaux ∨ d.power = .cold then d
  else
    let d := if 4 ≤ cause then d.cairnFreeze 3 0x08 0 2 cause 0
      else if cause = 1 then d.cairnTrig CAIRN.TRIG.SYSRST 5 0x08 0 2 cause 0
      else d.cairnPush 0x08 0 2 cause 0
    let d := d.slotsOff.closeBypass.coldState
    let d := (d.wr DEV.RST_STATUS.COLD_CAUSE 0 cause).bump DEV.RST_STATUS.COLD_COUNT 0
    d.islandBoot

/-! ### Power-down (R190, R449 to R452) -/

/-- Steps 4 and 5 of R450: channels off, ports frozen with cause 9, JOIN = 0, PWRDN = 1. -/
def Dev.powerDown (d : Dev) : Dev :=
  let d := d.each 32 fun s d => d.slotOff s
  let d := d.each 128 fun p d => d.portFreeze p 9
  let d := (d.setOn COL.CTL.JOIN 0 false).closeBypass
  { d.setOn SUP.STATUS.PWRDN 0 true with power := .down, summit := { d.summit with pdRun := false } }

/-- Summit raises the power-down request (R190): EVENT.PWRDN on every core and the grace; a second request is absorbed. -/
def Dev.pdRequest (d : Dev) : Dev :=
  if d.summit.pdRun ∨ d.power = .down ∨ d.power = .vaux then d
  else
    let d : Dev := { d with summit := { d.summit with pdRun := true } }
    if d.coreUp then
      let d := d.each 9 fun c d => d.when ((d.core c).mode == .running || (d.core c).mode == .halted) fun d => d.setEvent c 10
      { d with spur := { d.spur with grace := true } }
    else d

/-- The grace ends (R190 step 3): every core that runs stops at its boundary, a DLWAIT or a barrier is left without completing, its
stores are performed and its loads waited for. -/
def Dev.graceEnd (d : Dev) : Dev :=
  if d.spur.grace ∧ d.coreUp then
    let d : Dev := { d with spur := { d.spur with grace := false } }
    d.each 9 fun c d =>
      let k := d.core c
      if k.mode == .running || k.mode == .halted then
        let d := (d.settle c).drainAll c
        d.updCore c fun k =>
          if k.mode == .failed then k
          else { k with mode := .drained, wait := if k.ldio.isSome then .ldio else .none }
      else d
  else d

/-- Every core has drained. -/
def Dev.drained (d : Dev) : Bool :=
  !d.spur.grace && (List.range 9).all fun c => (d.core c).mode != .running && (d.core c).mode != .halted &&
    (d.core c).wait != .ldio

/-! ### Warm reset (R448, R22, R377, R384, R427) -/

/-- Field numbers that keep their value through a warm reset: the island's, the RWS fields, what R141, R166, R167 and R427 keep. -/
def warmKept : List Nat :=
  islandNums ++ [FABRIC.ID.DEV, FABRIC.ID.FABRIC, TARN.PART.SPARE, TARN.PART.SCREE_GIB, TARN.REGION_TOP.GRANULES,
    TARN.EVAC_STATUS.STATE, TARN.EVAC_STATUS.PC, TARN.EVAC_STATUS.COUNT, TARN.PC_FROZEN_LO.MAP, TARN.PC_FROZEN_HI.MAP,
    SPUR.HANDOVER.FAILED, TRV.ENG_STATUS.FAULTED].map Fld.num

/-- Stores waiting in store buffers. -/
def Dev.storesHeld (d : Dev) : Nat := (List.range 9).foldl (fun n c => n + (d.core c).sb.length) 0

/-- FW_ACTIVATE, by its posted word (R385). -/
def QCmd.isActivate (q : QCmd) : Bool := q.word.toNat % 256 == 0x0B

/-- What a warm reset leaves: the island's side, Tarn's data, colours and ownership, and the RWS fields. SRAM contents stay (DESIGN
CHOICE: no rule resets them). -/
def Dev.warmState (d : Dev) : Dev :=
  let kept := d.summit.flashQ.filter fun q => !q.isActivate
  { power := .warm, osc := d.osc, free := d.free, regs := keepRegs warmKept d.regs, mem := d.mem, cairn := d.cairn
    spur := { poison := d.spur.poison }
    tarn := { own := d.tarn.own, colour := d.tarn.colour, poison := d.tarn.poison, metaBad := d.tarn.metaBad, ce := d.tarn.ce
              remap := d.tarn.remap, spares := d.tarn.spares, stackFrozen := d.tarn.stackFrozen
              evacuated := d.tarn.evacuated }
    summit := { d.summit with
      mbx := [], stateQ := [], stateRun := false, timers := [], fw := none, tarnInit := false
      flashQ := kept.map fun q => { q with wanted := false }
      flashRun := d.summit.flashRun && !(d.summit.flashQ.head?.any QCmd.isActivate) }
    bist := { d.bist with
      running := [], waiting := [], pend := []
      last := d.bist.running.foldl (fun m t => SMap.put 0 m (t.kind * 256 + t.index) 3) d.bist.last }
    out := d.out }

/-- The registers that show mailboxes, tests and the power-down read zero again. -/
def Dev.warmIsland (d : Dev) : Dev :=
  let d := { d with regs := SMap.drop (fun k => [SUMMIT.MBX_RPLY_LO.V.num, SUMMIT.MBX_RPLY_HI.V.num, BIST.STATUS.TILES.num,
    BIST.STATUS.PLANES.num, BIST.STATUS.CORES.num, BIST.STATUS.ENGINE.num, BIST.POWER.RUNNING_W.num,
    BIST.POWER.WAITING.num].contains (k % 1024)) d.regs }
  d.setOn SUP.STATUS.PWRDN 0 false

/-- A warm reset starts with a cause (1 mailbox, 2 RST_CTL, 3 Summit, 4 resume): from the running device, or, resuming, from the
powered-down state; elsewhere it is absorbed (R20, R452). A grant whose scan chains have shifted ends in a cold reset (R392). -/
def Dev.warmReset (d : Dev) (cause : Nat) : Dev :=
  if d.power = .run ∨ (d.power = .down ∧ cause = 4) then
    let d := d.cairnPush 0x08 0 3 cause 0
    if d.summit.grant.isSome && d.summit.scanned then d.dropGrant.coldReset 5
    else
      let d := d.dropGrant
      let d := d.each 128 fun p d => d.portFreeze p 10
      let n := d.storesHeld
      let d := if 0 < n then
          let x := d.draw
          x.2.cairnPush 0x07 0 1 n x.1.toNat
        else d
      let d := d.forIn' d.tarn.reqs fun r d => d.lostWrite r
      let d := d.slotsOff.closeBypass.warmState.warmIsland
      (d.wr DEV.RST_STATUS.WARM_CAUSE 0 cause).bump DEV.RST_STATUS.WARM_COUNT 0
  else d

/-- Steps 4 and 5, and the warm reset that follows at once when PWR_WARN_N has deasserted meanwhile (R452). -/
def Dev.powerDownGo (d : Dev) : Dev :=
  let d := d.powerDown
  if d.summit.pdEnd then ({ d with summit := { d.summit with pdEnd := false } } : Dev).warmReset 4 else d

/-! ### The core phase (R376) -/

/-- Step 3: repair is applied, the policy is written, and then Foothill (steps 5 and 6); a power-down that waits takes its step 4
instead of releasing the cores (R452). -/
def Dev.corePhase (d : Dev) (hbmFail : Nat) : Dev :=
  let d := (d.setOn DEV.CLK_STATUS.ROOT_LOCK 0 true).setOn DEV.CLK_STATUS.SUMMIT_ON_ROOT 0 true
  let d := (d.wr SUMMIT.BOOT_STATUS.FAIL 0 0).policyPorts.stage 3
  let d := { d with power := .run }
  let d := d.each 4 fun s d => d.when (hbmFail.testBit s) fun d => d.stackFreeze s
  let d := d.tarnInit
  let d := { d with summit := { d.summit with tarnInit := true } }
  let d := d.bootFoothill
  d.when d.summit.pdRun fun d => d.powerDownGo

/-! ### Tile reset (R21, R322) -/

/-- The lane begins to adapt again. -/
def LaneSt.restart (x : LaneSt) : LaneSt := { x with checkedAt := 0, resumeDue := false, resuming := false, periodic := false }

/-- Tile `t` as the reset leaves it: link layers, pipelines, queues and schedulers, Scree segments; contexts charged to its ports are
released; the lanes adapt again. ENABLE of its ports is 0 (DEDUCED from the steps of R434's example). -/
def Dev.tileClear (d : Dev) (t : Nat) : Dev :=
  let d := d.forIn' (d.sad.pkts.filter fun k => k.port / 8 == t && !k.crossed) fun k d => d.removePkt k
  let d := d.forIn' (d.sad.staged.filter fun x => x.port / 8 == t) fun x d => d.nullifyAt x
  let d : Dev := { d with
    notch := { d.notch with
      runs := d.notch.runs.filter (fun r => r.tile != t), traps := d.notch.traps.filter (fun x => x.tile != t),
      nextPipe := SMap.put 0 d.notch.nextPipe t 0 }
    sad := { d.sad with
      spilling := SMap.put false d.sad.spilling t false,
      credit := SMap.drop (fun k => k / 6 / 8 == t) d.sad.credit,
      thxCredit := SMap.drop (fun k => k / 32 / 8 == t) d.sad.thxCredit }
    fab := { d.fab with thx := SMap.drop (fun p => p / 8 == t) d.fab.thx } }
  let d := d.each 8 fun s d => d.forIn' (d.ctxsOf (8 * t + s)) fun i d => d.releaseCtx i
  let d := d.each 8 fun s d =>
    let p := 8 * t + s
    let d := (d.setOn PORT.CFG.ENABLE p false).setOn PORT.THX_CTL.ENABLE p false
    let d := d.forIn' (Reg.flds .PORT_LINK_STATUS) fun f d => d.wr f p f.reset
    d.forIn' ((Reg.flds .PORT_THX_STATUS).filter fun f => f.acc == .ro) fun f d => d.wr f p f.reset
  let d := ((d.wr TILE.SCREE_STATUS.IN_USE t 0).setOn TILE.SCREE_STATUS.FULL t false).setOn TILE.VOQ_STATUS.SPILLING t false
  let d := d.setOn TILE.VOQ_STATUS.WITHHOLD t false
  let lanes := (List.range 16).foldl (fun m i => SMap.upd {} m (16 * t + i) LaneSt.restart) d.phy.lanes
  let d : Dev := { d with phy := { d.phy with lanes := lanes } }
  d.each 16 fun i d => d.forIn' (Reg.flds .LANE_MARGIN_RESULT) fun f d => d.wr f (16 * t + i) f.reset

def Dev.tileRst (d : Dev) (t : Nat) : Nat := SMap.get 0 d.ctn.tileReset t
def Dev.setTileRst (d : Dev) (t v : Nat) : Dev := { d with ctn := { d.ctn with tileReset := SMap.put 0 d.ctn.tileReset t v } }

/-- A tile reset starts. -/
def Dev.tileResetStart (d : Dev) (t : Nat) : Dev := (d.tileClear t).setTileRst t 2

/-! ### Spur core reset (R189) -/

/-- CSRs at their Reset values, deadlines disarmed, the pc at 0; the role stays. General registers and flags read zero (DESIGN
CHOICE: no reset value is given). -/
def Dev.coreReset (d : Dev) (c : Nat) : Dev :=
  let d := d.coreDiscard c
  d.updCore c fun k => { ({} : SpurCore) with
    mode := .running, role := k.role, lateLdio := k.lateLdio, kicked := k.kicked }

/-! ### The commands -/

/-- VAUX rises: the device leaves VAUX power-on reset and the island boots. -/
def execVauxPowerOn (s : State) :=
  s.lift fun d => if d.power = .vaux then ({ d with power := .cold } : Dev).islandBoot else d

/-- VAUX falls below 1.55 V: everything but flash and fuses is lost (R19, R443). -/
def execVauxLoss (s : State) :=
  s.lift fun d =>
    { power := .vaux, free := d.free, out := d.out, bist := { fused := d.bist.fused }
      summit := { flash := d.summit.flash, dir := d.summit.dir, saves := d.summit.saves, fuseSvn := d.summit.fuseSvn } }

/-- The root PLL loses lock (R17): a freeze trigger, Summit on the island oscillator, a cold reset of cause 3. -/
def execRootPllLossOfLock (s : State) :=
  s.lift fun d =>
    if d.on DEV.CLK_STATUS.ROOT_LOCK then
      let d := d.cairnFreeze 1 0x0B 0 1 0 0
      let d := (d.setOn DEV.CLK_STATUS.ROOT_LOCK 0 false).setOn DEV.CLK_STATUS.SUMMIT_ON_ROOT 0 false
      d.coldReset 3
    else d

/-- A rail leaves its monitor limits (R442, R454): `over` above the high limit, else below the low one; `mv` as measured. -/
def execSupplyMonitorFault (r : Fin 9) (high : Bool) (mv : Fin 4096) (s : State) :=
  s.lift fun d =>
    if d.vauxUp ∧ r.val ≠ 0 then
      let v := d.rd SUP.STATUS.IN_RANGE
      let d := (d.wr SUP.STATUS.IN_RANGE 0 (v - (v &&& 2 ^ r.val))).wr SUP.MEAS.MV r mv
      let d := d.when (r.val ∈ [2, 3, 4]) fun d => d.closeBypass
      if d.pwrOk then
        let d := d.orBit (if high then SUP.FAULT.OVER else SUP.FAULT.UNDER) 0 r
        (d.cairnFreeze 2 0x0B r 2 r mv).coldReset 4
      else d
    else d

/-- 100 µs after the end conditions last came to hold (R447); `rails` is what the monitors see. A power-down that waits takes its
step 4 (R452). -/
def execColdResetEnd (rails : BitVec 9) (s : State) :=
  s.lift fun d =>
    if d.power = .cold then
      let d := d.wr SUP.STATUS.IN_RANGE 0 rails.toNat
      if !d.sysRst && d.pwrOk && rails == 0x1FF#9 then { d with power := .waitCore } else d
    else d

/-- The core phase starts at the later of the end of cold reset and STAGE 2 (R376): `lock` if the root PLL locks within 1 ms, the
stacks that fail to train. -/
def execCorePhaseStart (lock : Bool) (hbmFail : BitVec 4) (s : State) :=
  s.lift fun d =>
    if d.power = .waitCore ∧ d.rd SUMMIT.BOOT_STATUS.STAGE = 2 then
      if lock then d.corePhase hbmFail.toNat else d.wr SUMMIT.BOOT_STATUS.FAIL 0 4
    else d

/-- Every 10 ms Summit retries a root PLL that failed to lock (R378). -/
def execPllLockRetry (lock : Bool) (hbmFail : BitVec 4) (s : State) :=
  s.lift fun d =>
    if d.power = .waitCore ∧ d.rd SUMMIT.BOOT_STATUS.STAGE = 2 ∧ d.rd SUMMIT.BOOT_STATUS.FAIL = 4 ∧ lock then
      d.corePhase hbmFail.toNat
    else d

/-- The copy of the Cairn to flash ends (R376, R421): Summit re-arms it (R418); if the flash write failed it stays frozen. -/
def execCairnSaveDone (ok : Bool) (s : State) :=
  s.lift fun d =>
    match d.summit.saving with
    | none => d
    | some n =>
      let save : CairnSave := ⟨d.cairn.seq, d.cairn.ring⟩
      let d : Dev := { d with summit := { d.summit with
        saving := none, saves := if ok then SMap.put none d.summit.saves n (some save) else d.summit.saves } }
      let d := d.setOn SUMMIT.BOOT_STATUS.CAIRN_SAVING 0 false
      if ok ∧ d.on CAIRN.STATUS.FROZEN then
        (d.setOn CAIRN.STATUS.FROZEN 0 false).cairnPush 0x08 0 4 (d.rd CAIRN.STATUS.WR_IDX) 0
      else d

/-- The warm reset ends (R377, R448): the directory is cleared, the policy written again, Foothill loaded and the cores released; a
power-down that waits takes its step 4. A reset that found the root PLL unlocked goes on with a core phase. -/
def execWarmResetEnd (s : State) :=
  s.lift fun d =>
    if d.power = .warm then
      if d.on DEV.CLK_STATUS.ROOT_LOCK then
        let d : Dev := { d with power := .run, tarn := { d.tarn with dir := [], ra := [], trackers := [] } }
        let d := (d.policyPorts.stage 3).bootFoothill
        d.when d.summit.pdRun fun d => d.powerDownGo
      else { d with power := .waitCore }
    else d

/-- A write of DEV.RST_CTL (R448): valid only from a manager port's management function, with WARM = 1 and the key. -/
def Dev.rstCtlWrite (d : Dev) (m : Master) (v : Nat) : Dev :=
  let fromMgr := match m with | .mgmt p => d.mgrPort p | _ => false
  if fromMgr && DEV.RST_CTL.WARM.of v == 1 && DEV.RST_CTL.KEY.of v == 0x5752 then d.warmReset 2
  else d.bump DEV.RST_STATUS.REFUSED 0

def execRstCtlWrite (m : Master) (v : W32) (s : State) :=
  s.lift fun d => if d.vauxUp then d.rstCtlWrite m v.toNat else d

/-- Foothill asks for a tile reset: every port of the tile freezes with cause 9 first. -/
def execTileReset (t : Fin 16) (s : State) :=
  s.lift fun d =>
    if d.coreUp ∧ d.tileRst t ≠ 1 ∧ d.tileRst t ≠ 2 ∧ d.tileRst t ≠ 4 then
      (d.each 8 fun k d => d.portFreeze (8 * t + k) 9).setTileRst t 1
    else d

/-- The freeze has taken effect: the tile reset starts. -/
def execTileResetStart (t : Fin 16) (s : State) :=
  s.lift fun d => if d.coreUp ∧ d.tileRst t = 1 then d.tileResetStart t else d

/-- The tile reset ends. -/
def execTileResetEnd (t : Fin 16) (s : State) :=
  s.lift fun d => if d.coreUp ∧ d.tileRst t = 2 then d.setTileRst t 3 else d

/-- A Spur core reset of a core that is not held by a failure or a wider reset (R20, R189, R195). -/
def execSpurCoreReset (c : Fin 9) (s : State) :=
  s.lift fun d =>
    let m := (d.core c).mode
    if d.coreUp ∧ m ≠ .held ∧ m ≠ .failed then d.coreReset c else d

/-- The grace ends by time, or by a write of READY from any core (R190). -/
def execGraceExpiry (s : State) := s.lift fun d => d.graceEnd
def execPwrdnReady (_m : Master) (s : State) := s.lift fun d => d.graceEnd

/-- The drained cores acknowledge (R190, R450); a PWR_WARN_N that has deasserted meanwhile starts the warm reset at once (R452). -/
def execPowerDownAck (s : State) :=
  s.lift fun d =>
    if d.summit.pdRun ∧ d.coreUp ∧ d.drained then
      (d.setOn SPUR.PWRDN.ACKED 0 true).powerDownGo
    else d

/-- Every 1 ms DEV.TEMP takes the readings (R469), its HBM field the hottest stack's; a stack above 85 °C refreshes at twice the rate (R468). -/
def execTempUpdate (die s0 s1 s2 s3 : Fin 256) (s : State) :=
  s.lift fun d =>
    if d.coreUp then
      let hbm := max (max s0.val s1.val) (max s2.val s3.val)
      let hot (n : Fin 256) : Bool := decide (85 < n.val)
      let r := BitVec.ofNat 4 ((hot s0).toNat + 2 * (hot s1).toNat + 4 * (hot s2).toNat + 8 * (hot s3).toNat)
      let d : Dev := { d with tarn := { d.tarn with refresh2 := r } }
      let d := (d.wr DEV.TEMP.DIE 0 die).wr DEV.TEMP.HBM 0 hbm
      let d := d.wr DEV.TEMP.DIE_PEAK 0 (max die.val (d.rd DEV.TEMP.DIE_PEAK))
      d.when (decide (105 < die.val) || decide (95 < hbm)) fun d => d.setOn DEV.TEMP.HOT 0 true
    else d

/-- Every 40,000 tb each tile reference is measured against CLK_TB (R13, DEV.CLK_STATUS). -/
def execTileRefCheck (ok : BitVec 16) (s : State) :=
  s.lift fun d => if d.on DEV.CLK_STATUS.ROOT_LOCK then d.wr DEV.CLK_STATUS.TILE_REF_OK 0 ok.toNat else d

/-- The Tarn initialisation of R149 ends (R376 step 7). -/
def execTarnInitialisationDone (s : State) :=
  s.lift fun d => { d with summit := { d.summit with tarnInit := false } }

end Sys2Proof.Machine
end

