-- ==== Sys2Proof/Machine/TrvOps.lean ====
section
/-! DEFINITION. Functions, Traverse queues, transfers and their segments (07_tenants_functions_traverse R196 to R213, R216 to R219). -/

namespace Sys2Proof.Machine

open Sys2Proof

/-! ### Functions (R196, R197, R218) -/

/-- The VFs of a host domain's PF. -/
def Dev.vfsOfPf (d : Dev) (dom : Nat) : List Nat := (List.range (d.rd FN.PF_VFS.TOTALVFS dom)).map (d.vfBase dom + ·)

/-- State of a function: the PF of port p at p, VF v at 128 + v. -/
def Dev.fn (d : Dev) (i : Nat) : FnSt := SMap.get {} d.trv.fns i
def Dev.setFn (d : Dev) (i : Nat) (f : FnSt) : Dev := { d with trv := { d.trv with fns := SMap.put {} d.trv.fns i f } }

/-- VF Enable of its PF is set and NumVFs reaches the VF. -/
def Dev.vfEnabled (d : Dev) (v : Nat) : Bool :=
  match d.domainOfVf v with
  | none => false
  | some h => match d.portOfDomain h with
    | none => false
    | some p =>
      let f := d.fn p
      f.vfEnable && decide (v - d.vfBase h < min f.numVfs (d.rd FN.PF_VFS.TOTALVFS h)) && d.on FN.VF_BIND.BOUND v

/-- The VF may issue requests: enabled, Bus Master Enable set, in no reset. -/
def Dev.vfRuns (d : Dev) (v : Nat) : Bool := d.vfEnabled v && (d.fn (128 + v)).bme && !(d.fn (128 + v)).flr

/-! ### The manager event ring (R214, R215) -/

def Dev.mgrPage (d : Dev) (p : Nat) : MgrPage := SMap.get {} d.trv.mgr p
def Dev.setMgrPage (d : Dev) (p : Nat) (m : MgrPage) : Dev := { d with trv := { d.trv with mgr := SMap.put {} d.trv.mgr p m } }

/-- Ports whose bit Summit sets in MGR.PORTS. -/
def Dev.mgrPorts (d : Dev) : List Nat := (List.range 128).filter fun p => (d.rd MGR.PORTS.PORTS (p / 32)).testBit (p % 32)

/-- Foothill posts a 16-byte entry to the event ring of every manager port and signals MSI-X vector 0 of its PF. -/
def Dev.postEvent (d : Dev) (type tenant vf : Nat) : Dev :=
  d.forIn' d.mgrPorts fun p d =>
    let m := d.mgrPage p
    let n := 2 ^ m.evSize
    let d := if m.evBase = 0 ∨ (m.tail + 1) % n = m.head % n then d.setMgrPage p { m with overflow := true }
      else
        let e := natBytes 8 (type + tenant % 512 * 2 ^ 8 + vf % 512 * 2 ^ 17) ++ natBytes 8 d.timeBase
        (d.setMgrPage p { m with tail := (m.tail + 1) % n }).emit (.hostWrite p (d.pfRid p) (m.evBase + 16 * (m.tail % n)) e)
    d.emit (.msix p 0 0)

/-! ### Descriptors (R210) -/

def Xfer.word (x : Xfer) (i : Nat) : Nat := x.words.getD i 0
def Xfer.op (x : Xfer) : Nat := bits (x.word 0) 0 4
def Xfer.record (x : Xfer) : Bool := (x.word 0).testBit 4
def Xfer.irq (x : Xfer) : Bool := (x.word 0).testBit 5
def Xfer.flush (x : Xfer) : Bool := (x.word 0).testBit 6
def Xfer.srcSpace (x : Xfer) : Nat := bits (x.word 0) 16 2
def Xfer.dstSpace (x : Xfer) : Nat := bits (x.word 0) 18 2
def Xfer.srcWin (x : Xfer) : Nat := bits (x.word 0) 20 2
def Xfer.dstWin (x : Xfer) : Nat := bits (x.word 0) 22 2
def Xfer.srcDesc (x : Xfer) : Nat := bits (x.word 0) 24 12
def Xfer.dstDesc (x : Xfer) : Nat := bits (x.word 0) 36 12
def Xfer.len (x : Xfer) : Nat := bits (x.word 1) 0 32
def Xfer.userTag (x : Xfer) : Nat := bits (x.word 1) 32 32
def Xfer.src (x : Xfer) : Nat := x.word 2
def Xfer.dst (x : Xfer) : Nat := x.word 3
def Xfer.recAddr (x : Xfer) : Nat := x.word 4
/-- The operation reads its source; it has a destination. -/
def Xfer.reads_ (x : Xfer) : Bool := x.op == 1 || x.op == 3
def Xfer.hasDst (x : Xfer) : Bool := x.op != 0

/-- A bad descriptor (R210). -/
def Xfer.bad (x : Xfer) (allowed : List Nat) : Bool :=
  bits (x.word 0) 9 7 != 0 || bits (x.word 0) 48 16 != 0 || x.word 5 != 0 || x.word 6 != 0 || x.word 7 != 0
    || decide (bits (x.word 1) 0 32 = 0 ∧ x.op ≠ 0) || decide (3 < x.op) || x.srcSpace == 3 || x.dstSpace == 3
    || (x.reads_ && x.srcSpace == 2 && !allowed.contains x.srcDesc) || (x.hasDst && x.dstSpace == 2 && !allowed.contains x.dstDesc)

/-! ### Segments (R204) -/

/-- Length of the running segment: to the next 4 KiB boundary of the destination address. -/
def Xfer.segLen (x : Xfer) : Nat := min (x.len - x.done) (4096 - (x.dst + x.done) % 4096)

/-- Pieces of at most `m` bytes that do not cross a 4 KiB boundary, as offset and length. -/
def pieces (m a off : Nat) : Nat → Nat → List (Nat × Nat)
  | 0, _ => []
  | fuel + 1, len =>
    if len = 0 then []
    else
      let n := min len (min m (4096 - a % 4096))
      (off, n) :: pieces m (a + n) (off + n) fuel (len - n)

/-- Size of a ring (R209). -/
def Queue.ring (k : Queue) : Nat := 2 ^ (min 15 (max 4 k.size))

/-- The whole of an access lies in a peer window (R207). -/
def PeerWin.holds (w : PeerWin) (a len : Nat) : Bool := decide (w.base ≤ a) && decide (a + len ≤ w.base + w.len)

/-- The peer window a transfer names, if the manager has set it. -/
def Queue.win (k : Queue) (w : Nat) : PeerWin := k.wins.getD w ⟨0, 0, false, 0⟩

/-- The port through which an access of a queue leaves: none for TARN. -/
def Dev.spacePort (d : Dev) (q space win : Nat) : Option Nat :=
  match space with
  | 0 => d.vfPort (q / 8)
  | 1 => some ((d.queue q).win win).port
  | _ => none

/-- The port does not take the access: frozen, not configured, its link down. -/
def Dev.portDead (d : Dev) (p : Nat) : Bool := !d.configured p || d.frozen p || !d.linkUp p

/-- The requester ID of VF `v`: First VF Offset 1, VF Stride 1 (R197). -/
def Dev.vfRid (d : Dev) (v : Nat) : Option Nat :=
  match d.domainOfVf v with
  | none => none
  | some h => (d.portOfDomain h).map fun p => d.pfRid p + 1 + (v - d.vfBase h)

/-- Reads through a port with fewer than 14 tag bits need a context of their own (R213). -/
def Dev.narrow (d : Dev) (p : Nat) : Bool := decide (SMap.get 14 d.trv.tagBits p < 14)

/-- The read waits for its narrow tag (R201). -/
def Dev.readWaits (d : Dev) (r : EngRead) : Bool :=
  r.data.isNone && r.ctx.isNone && match r.port with | some p => d.narrow p | none => false

/-- The context of a narrow-tag engine read (R199). -/
def Dev.readCtx (d : Dev) (q p tag len : Nat) : CtxEnt :=
  { user := .engine, tenant := d.queueTenant q, port := (d.vfPort (q / 8)).getD 0, egress := p, tag := tag, origTag := 0,
    origRid := 0, origDev := d.rd FABRIC.ID.DEV, origPort := (d.vfPort (q / 8)).getD 0, srcHost := false, trk := none, owed := len,
    quarantined := false, guar := false }

/-- Takes a narrow tag for a read if one can be had. -/
def Dev.tryNarrow (d : Dev) (q : Nat) (r : EngRead) : EngRead × Dev :=
  match r.port with
  | none => (r, d)
  | some p =>
    if d.narrow p && r.ctx.isNone then
      match d.freeTag p with
      | none => (r, d)
      | some t => match d.allocCtx (d.readCtx q p t r.len) with
        | some (i, d) => ({ r with ctx := some i }, d)
        | none => (r, d)
    else (r, d)

/-- The reads of one operand of the running segment. -/
def Dev.operandReads (d : Dev) (q : Nat) (x : Xfer) (ofDst : Bool) : List EngRead :=
  let a := (if ofDst then x.dst else x.src) + x.done
  let port := d.spacePort q (if ofDst then x.dstSpace else x.srcSpace) (if ofDst then x.dstWin else x.srcWin)
  (pieces 512 a 0 20 x.segLen).map fun c => ⟨0, port, ofDst, c.1, c.2, none, none, false⟩

/-- An access of the segment is outside its peer window (R207): the first such address. -/
def Dev.peerOut (d : Dev) (q space win a len : Nat) : Option Nat :=
  if space = 1 ∧ !((d.queue q).win win).holds a len then
    let w := (d.queue q).win win
    some (if w.base ≤ a ∧ a < w.base + w.len then w.base + w.len else a)
  else none

/-- A transfer ends with a status (R212): reads still out are marked discard. -/
def Dev.endXfer (d : Dev) (q : Nat) (x : Xfer) (status errAddr : Nat) : Dev :=
  let d := d.lateReads x
  d.setQueue q { d.queue q with xfer := some { x with reads := [], status := some status, errAddr := errAddr, flushing := false } }

/-- Numbers the reads of a list from the transfer's next entry on. -/
def numberReads (n : Nat) : List EngRead → List EngRead
  | [] => []
  | r :: rs => { r with entry := n % 256 } :: numberReads (n + 1) rs

/-- Takes narrow tags for the reads of a list. -/
def Dev.tagReads (d : Dev) (q : Nat) : List EngRead → List EngRead × Dev
  | [] => ([], d)
  | r :: rs =>
    let a := d.tryNarrow q r
    let b := a.2.tagReads q rs
    (a.1 :: b.1, b.2)

/-- The requester ID of an engine's access through port `p` (R207): PEER requests carry TRV_RID of the port, HOST ones the VF's own. -/
def Dev.engRid (d : Dev) (q space p : Nat) : Nat := if space = 1 then d.rd PORT.TRV_RID.RID p else (d.vfRid (q / 8)).getD 0

/-- Address of a read: a flush read has its own offset from the start of the destination; the others lie in the running segment. -/
def Xfer.readAddr (x : Xfer) (r : EngRead) : Nat :=
  if x.flushing then x.dst + r.off else (if r.ofDst then x.dst else x.src) + x.done + r.off

/-- A read goes out with its tag (R213), if it does not wait for a narrow one and is not one of Tarn. -/
def Dev.sendRead (d : Dev) (q : Nat) (x : Xfer) (r : EngRead) : Dev :=
  match r.port with
  | none => d
  | some p =>
    if d.readWaits r then d
    else
      let tag := match r.ctx.bind d.ctx? with
        | some c => c.tag
        | none => x.engine * 512 + r.entry * 2
      d.emit (.hostRead p (d.engRid q (if r.ofDst then x.dstSpace else x.srcSpace) p) tag (x.readAddr r) (max 1 r.len))

/-- Issues reads for a transfer. -/
def Dev.issueReads (d : Dev) (q : Nat) (x : Xfer) (rs : List EngRead) : Dev :=
  let t := d.tagReads q (numberReads x.nextEntry rs)
  let d := t.2.forIn' t.1 fun r d => d.sendRead q x r
  d.setQueue q { d.queue q with xfer := some { x with reads := t.1, nextEntry := (x.nextEntry + rs.length) % 256 } }

/-- The running segment begins: its reads go out, unless one cannot (R204, R207, R266). -/
def Dev.beginSegment (d : Dev) (q : Nat) (x : Xfer) : Dev :=
  let rs := (if x.reads_ then d.operandReads q x false else []) ++ (if x.op = 3 then d.operandReads q x true else [])
  let out := if x.reads_ then d.peerOut q x.srcSpace x.srcWin (x.src + x.done) x.segLen else none
  let out := match out with
    | some a => some a
    | none => if x.hasDst then d.peerOut q x.dstSpace x.dstWin (x.dst + x.done) x.segLen else none
  match out with
  | some a => d.endXfer q x 5 a
  | none =>
    if rs.any fun r => r.port.any fun p => d.portDead p then
      d.endXfer q x 1 ((if x.reads_ then x.src else x.dst) + x.done)
    else d.issueReads q x rs

/-- Bytes of an operand of the segment, in order of offset. -/
def Xfer.gathered (x : Xfer) (ofDst : Bool) : List Byte :=
  (x.reads.filter fun r => r.ofDst == ofDst).flatMap fun r => r.data.getD []

/-- Bytes of a FILL segment (R210). -/
def Xfer.pattern (x : Xfer) : List Byte :=
  (List.range x.segLen).map fun i => BitVec.ofNat 8 (x.src / 256 ^ ((x.done + i) % 8))

/-- Offset of the first difference. -/
def firstDiff (i : Nat) : List Byte → List Byte → Option Nat
  | a :: as, b :: bs => if a = b then firstDiff (i + 1) as bs else some i
  | _, _ => none

/-- The segment is over: the transfer goes on, flushes, or has ended (R211). -/
def Dev.nextSegment (d : Dev) (q : Nat) (x : Xfer) : Dev :=
  let d := (d.event 0x121 x.engine { tenant := some (d.queueTenant q) })
  if x.done < x.len then d.beginSegment q x
  else if x.flush then
    let r : EngRead := ⟨0, d.spacePort q x.dstSpace x.dstWin, true, x.len - 1, 0, none, none, false⟩
    if r.port.any fun p => d.portDead p then d.endXfer q { x with reads := [] } 1 (x.dst + x.len - 1)
    else d.issueReads q { x with status := some 0, flushing := true } [r]
  else d.setQueue q { d.queue q with xfer := some { x with status := some 0, reads := [] } }

/-- An access of an engine to Tarn (R147, R207): the descriptor's base plus the offset, the tenant of the queue. -/
def Dev.engAcc (d : Dev) (q desc off len : Nat) (op : TarnOp) : PoolAcc :=
  { desc := desc, tenant := some (d.queueTenant q), key := none, host := none, device := true, addr := (d.desc desc).hbase + off,
    len := len, op := op }

/-- A refused engine access ends the transfer with REGION_FAULT, or COLOUR_FAULT for cause 9 (R148, R207). -/
def Dev.engRefused (d : Dev) (q : Nat) (x : Xfer) (acc : PoolAcc) (cause bad : Nat) : Dev :=
  (d.poolRefuse acc cause bad 0 ((d.vfPort (q / 8)).getD 0)).endXfer q x (if cause = 9 then 6 else 5) bad

/-- Writes issued, for R217. -/
def Dev.countIssued (d : Dev) (q n : Nat) : Dev :=
  { d with trv := { d.trv with issued := SMap.put 0 d.trv.issued q (SMap.get 0 d.trv.issued q + n) } }

/-- The data writes of a segment, piece by piece (R204). -/
def Dev.writePieces (d : Dev) (p rid a : Nat) (data : List Byte) : Dev :=
  d.forIn' (pieces (min 512 (if d.theox p then 512 else SMap.get 128 d.host.mps p)) a 0 40 data.length) fun c d =>
    d.emit (.hostWrite p rid (a + c.1) ((data.drop c.1).take c.2))

/-- The engine issues the writes of a segment whose read data is all there (R204, R212). -/
def Dev.segmentWrite (d : Dev) (q : Nat) (x : Xfer) : Dev :=
  let n := x.segLen
  let next (d : Dev) (data : List Byte) : Dev :=
    let d := (d.countIssued q ((data.length + 511) / 512)).event 0x120 x.engine { tenant := some (d.queueTenant q) } data.length
    d.nextSegment q { x with done := x.done + n, reads := [] }
  if x.op = 3 then
    match firstDiff 0 (x.gathered false) (x.gathered true) with
    | some i => d.endXfer q x 8 (x.done + i)
    | none => d.nextSegment q { x with done := x.done + n, reads := [] }
  else
    let data := if x.op = 2 then x.pattern else x.gathered false
    match d.spacePort q x.dstSpace x.dstWin with
    | some p =>
      if d.portDead p then d.endXfer q x 7 (x.dst + x.done) else next (d.writePieces p (d.engRid q x.dstSpace p) (x.dst + x.done) data) data
    | none =>
      let acc := d.engAcc q x.dstDesc (x.dst + x.done) n .write
      match d.poolCheck acc with
      | some (cause, bad) => d.engRefused q x acc cause bad
      | none =>
        let pool := (d.desc x.dstDesc).poolOf acc.addr
        let r := d.deviceReady .write x.dstDesc (linesOf pool n)
        if r.1 then next ((r.2.dirPerform .write none x.dstDesc (linesOf pool n)).poolWrite pool data false) data else r.2

/-! ### Queue registers (R209, R216) -/

/-- The queue's function may start work. -/
def Dev.queueMay (d : Dev) (q : Nat) : Bool :=
  d.vfRuns (q / 8) && !(d.queue q).holdNew && !d.tenFrozen (d.queueTenant q)

/-- The context of a queue (R199). -/
def Dev.queueCtx (d : Dev) (q : Nat) : CtxEnt :=
  { user := .queue, tenant := d.queueTenant q, port := (d.vfPort (q / 8)).getD 0, egress := 0, tag := 0, origTag := 0, origRid := 0,
    origDev := 0, origPort := 0, srcHost := false, trk := none, owed := 0, quarantined := false, guar := false }

/-- ENABLE = 1 requests a context: the queue runs with it, or waits with STATE 4 (R201, R209). -/
def Dev.queueGrant (d : Dev) (q : Nat) : Dev :=
  let k := d.queue q
  match d.allocCtx (d.queueCtx q) with
  | some (i, d) => d.setQueue q { k with st := 1, ctx := some i }
  | none =>
    let p := (d.vfPort (q / 8)).getD 0
    let d := if k.st = 4 then d else d.bump CTX.PORT_USE.WAITING p
    d.setQueue q { k with st := 4 }

/-- The queue's context is released. -/
def Dev.queueRelease (d : Dev) (q : Nat) : Dev :=
  let k := d.queue q
  let d := d.unwait q
  match k.ctx with
  | some i => (d.releaseCtx i).setQueue q { k with ctx := none }
  | none => d

/-- ENABLE is written (R209). -/
def Dev.queueEnable (d : Dev) (q : Nat) (on : Bool) : Dev :=
  let k := d.queue q
  if k.st = 3 ∨ k.enable = on then d
  else if on then
    if k.holdNew || !d.vfEnabled (q / 8) then d else (d.setQueue q { k with enable := true }).queueGrant q
  else
    let d := (d.cancelXfer q).queueRelease q
    d.setQueue q { d.queue q with enable := false, st := 0 }

/-- RESUME (R209, R218). A queue that was stopped while it waited for its context asks for it again (DEDUCED). -/
def Dev.queueResume (d : Dev) (q : Nat) : Dev :=
  let k := d.queue q
  if k.st = 2 ∧ d.queueMay q then
    if k.ctx.isSome then d.setQueue q { k with st := 1, cause := 0 } else (d.setQueue q { k with cause := 0 }).queueGrant q
  else d

/-- TAIL (R209): ignored while STATE is 0. -/
def Dev.queueTail (d : Dev) (q v : Nat) : Dev :=
  let k := d.queue q
  if k.st = 0 then d else d.setQueue q { k with tail := v % 65536 }

/-- Word `off` of a queue page (R209). -/
def Dev.queueRead (d : Dev) (q off : Nat) : Nat :=
  let k := d.queue q
  match off / 4 with
  | 0 => bits k.base 6 26 * 64
  | 1 => bits k.base 32 32
  | 2 => k.size % 16 + k.enable.toNat * 16
  | 3 => k.tail
  | 4 => k.head
  | 5 => k.st + k.cause * 2 ^ 8 + k.stopIndex % 65536 * 2 ^ 16
  | _ => 0

/-- A write of word `off` of a queue page: BASE and SIZE are refused while ENABLE = 1. -/
def Dev.queueWrite (d : Dev) (q off v : Nat) : Dev :=
  let k := d.queue q
  if k.st = 3 ∧ off / 4 ≠ 3 then d
  else match off / 4 with
  | 0 => if k.enable then d else d.setQueue q { k with base := k.base / 2 ^ 32 * 2 ^ 32 + v % 2 ^ 32 / 64 * 64 }
  | 1 => if k.enable then d else d.setQueue q { k with base := k.base % 2 ^ 32 + v % 2 ^ 32 * 2 ^ 32 }
  | 2 =>
    let d := if k.enable then d else d.setQueue q { k with size := v % 16 }
    let d := d.queueEnable q (v.testBit 4)
    if v.testBit 5 then d.queueResume q else d
  | 3 => d.queueTail q v
  | _ => d

/-- Writes of the whole words that a packet's bytes cover. -/
def Dev.queueBytes (d : Dev) (q off : Nat) (data : List Byte) : Dev :=
  d.each (data.length / 4) fun i d => d.queueWrite q (off + 4 * i) (bytesNat ((data.drop (4 * i)).take 4))

/-- A packet that TRV brought to a queue acts on its page (R197, R209): a write writes registers, a read is completed with them. -/
def Dev.queuePage (d : Dev) (k : Pkt) (q : Nat) : Dev :=
  let f := k.frame
  let off := f.h5.toNat % 4096
  if !d.vfEnabled (q / 8) then
    match subOf f with
    | .nonPosted => d.completeReq k.port f 1 []
    | _ => d
  else match subOf f with
    | .posted => if f.ftype = 1 then d.queueBytes q off f.data else d
    | .nonPosted =>
      let n := (f.h6.toNat + off % 4 + 3) / 4
      let ws := (List.range n).flatMap fun i => natBytes 4 (d.queueRead q (off / 4 * 4 + 4 * i))
      if f.ftype = 0 then d.completeReq k.port f 0 ((ws.drop (off % 4)).take f.h6.toNat) else d.completeReq k.port f 1 []
    | .completion => d.unexpected k

/-! ### Quiesce (R216) -/

/-- VFs of a target: a tenant, or VF v as 512 + v. -/
def Dev.targetVfs (d : Dev) (t : Nat) : List Nat := if t < 512 then d.vfsOf t else [t - 512]

/-- Queues of a target that the device holds. -/
def Dev.targetQueues (d : Dev) (t : Nat) : List Nat := (d.targetVfs t).flatMap fun v => d.queuesOf v

/-- A queue has come to its end: no transfer, and with DRAIN no posted descriptor left. -/
def Queue.idle (k : Queue) (cancel : Bool) : Bool :=
  k.xfer.isNone && (cancel || k.st != 1 || k.head == k.tail % k.ring)

/-- Every request of the target has completed, timed out or been quarantined: contexts of its tenant, late engine reads. -/
def Dev.targetQuiet (d : Dev) (t : Nat) : Bool :=
  if t < 512 then
    !(d.trv.ctx.any fun x => match x.2 with
      | some c => c.tenant == t && c.user != .queue && !c.quarantined
      | none => false)
  else true

/-- Step 3 of R216 is reached. -/
def Dev.quiesced (d : Dev) (z : Quiesce) : Bool :=
  (d.targetQueues z.target).all (fun q => (d.queue q).idle z.cancel) && d.targetQuiet z.target

/-- The target is quiesced: its queues show STATE 2 with CAUSE 4, its VFs STATE 2. -/
def Dev.markQuiesced (d : Dev) (t : Nat) : Dev :=
  let d := d.forIn' (d.targetQueues t) fun q d =>
    let k := d.queue q
    if k.st = 0 ∨ k.st = 3 then d else (d.unwait q).setQueue q { k with st := 2, cause := 4, stopIndex := k.head }
  let d := d.forIn' (d.targetVfs t) fun v d =>
    if d.rd FN.VF_BIND.STATE v = 1 then d else d.wr FN.VF_BIND.STATE v 2
  let d := if t < 512 then
      { d with trv := { d.trv with tenants := SMap.put {} d.trv.tenants t { d.tenant t with st := 2 } } }
    else d
  -- the target has reached QUIESCED, which clears Summit's timer (R386)
  { d with summit := { d.summit with timers := SMap.put 0 d.summit.timers t 0 } }

/-- Every transfer of the target is cancelled (R217). -/
def Dev.cancelTarget (d : Dev) (t : Nat) : Dev := d.forIn' (d.targetQueues t) fun q d => d.cancelXfer q

/-! ### Function resets (R218, R219) -/

/-- Bus Master Enable of a VF is cleared (R218). -/
def Dev.vfBmeClear (d : Dev) (v : Nat) : Dev :=
  let f := d.fn (128 + v)
  if f.flr ∨ !f.bme then d
  else
    let d := d.setFn (128 + v) { f with bme := false }
    let d := d.forIn' (d.queuesOf v) fun q d => d.stopQueue q 1
    let d := if d.rd FN.VF_BIND.STATE v = 0 then d.wr FN.VF_BIND.STATE v 3 else d
    d.postEvent 2 (d.rd FN.VF_BIND.TENANT v) v

/-- Bus Master Enable of the PF of port `p` is cleared, with all its VFs. -/
def Dev.pfBmeClear (d : Dev) (p : Nat) : Dev :=
  let d := d.setFn p { d.fn p with bme := false }
  match d.domainOfPort p with
  | some h => d.forIn' (d.vfsOfPf h) fun v d => d.vfBmeClear v
  | none => d

/-- Step 1 of an FLR of a VF (R219), and Summit's timer at 90 ms (R386). A second FLR is absorbed (R220). -/
def Dev.vfFlr (d : Dev) (v : Nat) : Dev :=
  let f := d.fn (128 + v)
  if f.flr then d
  else
    let d := (d.setFn (128 + v) { f with flr := true }).wr FN.VF_BIND.STATE v 1
    let d := d.each 8 fun i d =>
      let q := 8 * v + i
      let k := d.queue q
      (d.unwait q).setQueue q { k with st := 3 }
    let d : Dev := { d with summit := { d.summit with timers := SMap.put 0 d.summit.timers (512 + v) (d.timeBase + 22500000) } }
    d.postEvent 1 (d.rd FN.VF_BIND.TENANT v) v

/-- A PF FLR clears VF Enable and runs for every VF in parallel (R219); the PF is in reset until its last VF has finished. -/
def Dev.pfFlr (d : Dev) (p : Nat) : Dev :=
  match d.domainOfPort p with
  | some h =>
    let vs := d.vfsOfPf h
    let d := d.setFn p { bme := false, vfEnable := false, numVfs := 0, flr := !vs.isEmpty }
    d.forIn' vs fun v d => d.vfFlr v
  | none => d.setFn p {}

/-- The PF of VF `v` ends its reset once none of its VFs is in one. -/
def Dev.pfFlrDone (d : Dev) (v : Nat) : Dev :=
  match d.domainOfVf v with
  | none => d
  | some h => match d.portOfDomain h with
    | none => d
    | some p => if (d.vfsOfPf h).any fun w => (d.fn (128 + w)).flr then d else d.setFn p { d.fn p with flr := false }

/-- Step 6 of an FLR: function state and queue pages at their reset values, queue contexts released. -/
def Dev.vfFlrDone (d : Dev) (v : Nat) : Dev :=
  if (d.fn (128 + v)).flr then
    let d := d.each 8 fun i d => (((d.cancelXfer (8 * v + i)).queueRelease (8 * v + i)).setQueue (8 * v + i)
      { ({} : Queue) with wins := (d.queue (8 * v + i)).wins, descs := (d.queue (8 * v + i)).descs })
    let d := ((d.setFn (128 + v) {}).wr FN.VF_BIND.STATE v 0).pfFlrDone v
    { d with
      summit := { d.summit with timers := SMap.put 0 d.summit.timers (512 + v) 0 }
      host := { d.host with cfg := SMap.drop (fun k => k / 1024 % 1024 == fnVf v && decide (k / 1048576 < 128)) d.host.cfg } }
  else d

end Sys2Proof.Machine
end

