-- ==== Sys2Proof/Machine/Traverse.lean ====
section
/-! DEFINITION. The Traverse rows: queue registers, descriptors, segments, completions, records, Bus Master Enable and function
resets (R204 to R213, R218, R219). -/

namespace Sys2Proof.Machine

open Sys2Proof

def execEnable (q : Fin 4096) (on : Bool) (s : State) := s.lift fun d => if d.coreUp then d.queueEnable q on else d
def execResume (q : Fin 4096) (s : State) := s.lift fun d => if d.coreUp then d.queueResume q else d
def execTailWrite (q : Fin 4096) (v : BitVec 16) (s : State) := s.lift fun d => if d.coreUp then d.queueTail q v.toNat else d

/-- A queue has a posted descriptor and may start it. -/
def Dev.hasWork (d : Dev) (q : Nat) : Bool :=
  let k := d.queue q
  k.st == 1 && k.xfer.isNone && k.head != k.tail % k.ring && d.vfRuns (q / 8)

/-- R206: a tenant with weight 0 waits for every other tenant that has work. -/
def Dev.trvTurn (d : Dev) (q : Nat) : Bool :=
  d.rd TRV.TEN_CFG.WEIGHT (d.queueTenant q) != 0 ||
    !((SMap.keys (fun _ _ => true) d.trv.queues).any fun p => d.hasWork p && d.rd TRV.TEN_CFG.WEIGHT (d.queueTenant p) != 0)

/-- Engine `e` is in service and idle. -/
def Dev.engineFree (d : Dev) (e : Nat) : Bool :=
  !(d.rd TRV.ENG_STATUS.FAULTED).testBit e && d.trv.queues.all fun x => match x.2.xfer with | some y => y.engine != e | none => true

/-- The words of a completion record (R211). -/
def recordBytes (st phase tag done index err time : Nat) : List Byte :=
  natBytes 8 (st % 256 + phase % 2 * 256 + tag % 2 ^ 32 * 2 ^ 32) ++ natBytes 8 (done % 2 ^ 32 + index % 65536 * 2 ^ 32)
    ++ natBytes 8 err ++ natBytes 8 time

/-- The record of a transfer is written, with its MSI-X if asked (R211): HEAD's pass gives PHASE. -/
def Dev.writeRecord (d : Dev) (q : Nat) (x : Xfer) (st err : Nat) : Dev :=
  match d.vfPort (q / 8) with
  | none => d
  | some p =>
    if d.frozen p || !(d.fn (128 + q / 8)).bme then d
    else
      let k := d.queue q
      let d := if x.record then
          d.emit (.hostWrite p ((d.vfRid (q / 8)).getD 0) x.recAddr (recordBytes st (1 - k.wraps % 2) x.userTag x.done x.index err d.timeBase))
        else d
      if x.irq then d.emit (.msix p (q / 8 + 1) (q % 8)) else d

/-- The transfer leaves the engine; the queue stops with a cause, or goes on. HEAD stands past the descriptor. -/
def Dev.closeXfer (d : Dev) (q : Nat) (x : Xfer) (stop : Option Nat) : Dev :=
  let k := d.queue q
  let d : Dev := { d with trv := { d.trv with issued := SMap.put 0 d.trv.issued q 0 } }
  let k := { k with xfer := none, wraps := if x.index + 1 = k.ring then k.wraps + 1 else k.wraps }
  d.setQueue q (match stop with
    | some c => if k.st = 1 then { k with st := 2, cause := c, stopIndex := x.index } else k
    | none => k)

/-- An engine starts the descriptor at HEAD, whose 64 bytes it has fetched from host space (R205, R210). -/
def execDescriptorStart (q : Fin 4096) (e : Fin 32) (w : Vector W64 8) (s : State) :=
  s.lift fun d =>
    if d.coreUp && d.hasWork q && d.engineFree e && d.trvTurn q && !d.tenFrozen (d.queueTenant q) then
      let k := d.queue q
      let x : Xfer := { engine := e, index := k.head, words := w.toList.map (·.toNat), done := 0, reads := [], nextEntry := 0,
                        status := none, errAddr := 0, flushing := false }
      let d := d.setQueue q { k with head := (k.head + 1) % k.ring, xfer := some x }
      if x.bad k.descs then (d.writeRecord q x 9 0).closeXfer q x (some 2)
      else if x.op = 0 then
        if x.flush then
          let r : EngRead := ⟨0, d.spacePort q x.dstSpace x.dstWin, true, 0, 0, none, none, false⟩
          if r.port.any fun p => d.portDead p then d.endXfer q x 1 x.dst
          else d.issueReads q { x with status := some 0, flushing := true } [r]
        else d.setQueue q { d.queue q with xfer := some { x with status := some 0 } }
      else d.beginSegment q x
    else d

/-- The engine leaves service (R212). -/
def Dev.engineFault (d : Dev) (e : Nat) : Dev :=
  let d := d.orBit TRV.ENG_STATUS.FAULTED 0 e
  { d with bist := { d.bist with last := SMap.put 0 d.bist.last (3 * 256 + e) 0 } }

/-- Once all read data of a segment is there, its writes are issued (R204); `ue` finds the engine's buffer uncorrectable. -/
def execSegmentWrite (q : Fin 4096) (ue : Bool) (s : State) :=
  s.lift fun d =>
    let k := d.queue q
    match k.xfer with
    | none => d
    | some x =>
      if d.coreUp && k.st == 1 && x.status.isNone && x.reads.all (fun r => r.data.isSome) && d.vfRuns (q / 8) then
        if ue then (d.engineFault x.engine).endXfer q x 10 (x.dst + x.done) else d.segmentWrite q x
      else d

/-- The queue whose transfer runs on engine `e`. -/
def Dev.queueOfEngine (d : Dev) (e : Nat) : Option Nat :=
  SMap.first (fun _ k => match k.xfer with | some x => x.engine == e | none => false) d.trv.queues

/-- The data of a read lands in its entry; a flush read's end ends the flush. -/
def Dev.readData (d : Dev) (q : Nat) (x : Xfer) (r : EngRead) (data : List Byte) : Dev :=
  let d := match r.ctx with | some i => d.releaseCtx i | none => d
  let rs := x.reads.map fun y => if y.entry = r.entry then { y with data := some data, ctx := none } else y
  d.setQueue q { d.queue q with xfer := some (if x.flushing then { x with flushing := false, reads := [] } else { x with reads := rs }) }

/-- A read of Tarn is checked and performed (R147, R207). -/
def Dev.tarnRead (d : Dev) (q : Nat) (x : Xfer) (r : EngRead) : Dev :=
  let desc := if r.ofDst then x.dstDesc else x.srcDesc
  let off := x.readAddr r
  let acc := d.engAcc q desc off (max 1 r.len) .read
  match d.poolCheck acc with
  | some (cause, bad) => d.engRefused q x acc cause bad
  | none =>
    let pool := (d.desc desc).poolOf acc.addr
    let ls := linesOf pool (max 1 r.len)
    let y := d.deviceReady .read desc ls
    if y.1 then
      let v := y.2.poolRead pool r.len
      if v.2 then y.2.endXfer q x 3 acc.addr
      else ((y.2.dirPerform .read none desc ls).countReads pool (max 1 r.len) (some (d.queueTenant q))).readData q x r v.1
    else y.2

/-- A completion for read `entry` of engine `e` (R213): placed by tag, or discarded when its transfer has ended. `status` is 0 for
success, 1 for Unsupported Request, 2 for Completer Abort; a read of Tarn takes its data from the pool. -/
def execEngineReadCompletion (e : Fin 32) (entry : Fin 256) (status : Fin 3) (ep : Bool) (data : List Byte) (s : State) :=
  s.lift fun d =>
    let hit := (d.queueOfEngine e).bind fun q => (d.queue q).xfer.bind fun x =>
      (x.reads.find? fun r => r.entry == entry.val && r.data.isNone && !d.readWaits r).map fun r => (q, x, r)
    match hit with
    | some (q, x, r) =>
      match r.port with
      | none => d.tarnRead q x r
      | some _ =>
        let d := match r.ctx with | some i => d.releaseCtx i | none => d
        let r := { r with ctx := none }
        let x := { x with reads := x.reads.map fun y => if y.entry = r.entry then r else y }
        let bad := (if r.ofDst then x.dst else x.src) + (if x.flushing then r.off else x.done + r.off)
        if status.val ≠ 0 then d.endXfer q x status bad
        else if ep then d.endXfer q x 3 bad
        else if data.length = r.len then d.readData q x r data
        else d
    | none =>
      match d.trv.late.find? fun l => l.key == e.val * 256 + entry.val with
      | none => d
      | some l =>
        let d : Dev := { d with trv := { d.trv with late := d.trv.late.filter fun x => x.key != l.key } }
        let d := match l.ctx with | some i => d.releaseCtx i | none => d
        match l.port with
        | some p => d.bump PORT.CTN_COUNT.LATE_ENGINE p
        | none => d

/-- The completion record of an ended transfer (R211, R212): any status but SUCCESS and COMPARE_MISMATCH stops the queue with
CAUSE 3. -/
def execCompletionRecord (q : Fin 4096) (s : State) :=
  s.lift fun d =>
    match (d.queue q).xfer with
    | none => d
    | some x =>
      match x.status with
      | none => d
      | some st =>
        if d.coreUp && !x.flushing then
          (d.writeRecord q x st x.errAddr).closeXfer q x (if st = 0 ∨ st = 8 then none else some 3)
        else d

/-- Bus Master Enable of a device function is cleared: of VF `v`, or of the PF of a port (R218). -/
def execBusMasterEnableClear (p : Fin 128) (v : Option (Fin 512)) (s : State) :=
  s.lift fun d =>
    if d.coreUp then
      match v with
      | some v => d.vfBmeClear v
      | none => d.pfBmeClear p
    else d

/-- An FLR of VF `v`, or of the PF of a port (R219). -/
def execFunctionLevelReset (p : Fin 128) (v : Option (Fin 512)) (s : State) :=
  s.lift fun d =>
    if d.coreUp then
      match v with
      | some v => d.vfFlr v
      | none => d.pfFlr p
    else d

def execFlrComplete (v : Fin 512) (s : State) := s.lift fun d => if d.coreUp then d.vfFlrDone v else d

end Sys2Proof.Machine
end

