-- ==== Sys2Proof/Machine/Col.lean ====
section
/-! DEFINITION. Col messages (08_fabric_mode_col_ring R249 to R255, R259, R420): what a message does at this member, the receive and
transmit rings, ring frames (R256 to R258), posted-discard notices, slot events from afar, and the Cairn read over the ring. -/

namespace Sys2Proof.Machine

open Sys2Proof

/-! ### Messages (R254) -/

def msgType (m : List Byte) : Nat := fieldAt m 0 1
def msgFlags (m : List Byte) : Nat := fieldAt m 1 1
def msgBcast (m : List Byte) : Bool := (msgFlags m).testBit 2
def msgBySerial (m : List Byte) : Bool := (msgFlags m).testBit 3
def msgSrc (m : List Byte) : Nat := fieldAt m 4 1
def msgDst (m : List Byte) : Nat := fieldAt m 5 1
def msgRoute (m : List Byte) : Nat := fieldAt m 7 1
def msgPayload (m : List Byte) : List Byte := (m.drop 16).take (fieldAt m 2 2)

/-- Byte `i` of a message replaced. -/
def msgSet (m : List Byte) (i v : Nat) : List Byte := m.set i (BitVec.ofNat 8 v)

/-- The message is addressed to this member (R254, R258). -/
def Dev.msgMine (d : Dev) (m : List Byte) : Bool :=
  if msgBySerial m then fieldAt m 16 8 == Config.serial else msgDst m == d.rd FABRIC.ID.DEV

/-! ### Ring frames (R257) -/

/-- One step of the CRC-32 of R257 in reflected form: 0xEDB88320 is 0x04C1_1DB7 with its bits in the other order. -/
def ringBit (c : Nat) : Nat := if c % 2 = 1 then (c / 2) ^^^ 0xEDB88320 else c / 2
def ringByte (c b : Nat) : Nat := ringBit (ringBit (ringBit (ringBit (ringBit (ringBit (ringBit (ringBit (c ^^^ b))))))))
def ringCrc (bs : List Byte) : Nat := (bs.foldl (fun c b => ringByte c b.toNat) 0xFFFFFFFF) ^^^ 0xFFFFFFFF

/-- A ring frame: start marker, DIR and RING_HOPS, the message, the CRC. DIR is 0 from COL_B to COL_A: out of COL_B (port 1). -/
def ringFrame (k hops : Nat) (m : List Byte) : List Byte :=
  let body := BitVec.ofNat 8 ((1 - k % 2) + 2 * (hops % 128)) :: m
  0xC5#8 :: (body ++ natBytes 4 (ringCrc body))

/-- A frame leaves by Col port `k` when that port is up; else it is lost. -/
def Dev.ringSend (d : Dev) (k hops : Nat) (m : List Byte) : Dev :=
  if d.rd COL.LINK_STATUS.STATE k = 2 then d.emit (.ring k (ringFrame k hops m)) else d

/-! ### The receive ring (R259) -/

/-- Entries of a Col ring. -/
def colRing (size : Nat) : Nat := 2 ^ (min 8 (max 4 size))

/-- A message goes to the receive ring with its arrival (0 COL_A, 1 COL_B, 2 a Theox port) and rings the doorbell of the role; a
full ring discards it. -/
def Dev.colReceive (d : Dev) (arrival : Nat) (m : List Byte) : Dev :=
  let n := colRing (d.rd COL.RX_CTL.SIZE)
  let tail := d.rd COL.RX_STATUS.TAIL % n
  if (tail + 1) % n = d.rd COL.RX_STATUS.HEAD % n then d.setOn COL.RX_STATUS.OVERFLOW 0 true
  else
    let d := d.spurStore (d.rd COL.RX_CTL.BASE * 256 + tail * 256) ((msgSet m 7 arrival).take 256)
    let d := d.wr COL.RX_STATUS.TAIL 0 ((tail + 1) % n)
    match d.coreOfRole (d.rd COL.RX_CTL.ROLE) with
    | some c => d.ringDoorbell c
    | none => d

/-! ### Posted-discard notices (R249 to R251) -/

/-- The VF that uses a requester ID, if one is allotted. -/
def Dev.vfOfRid (d : Dev) (rid : Nat) : Option Nat := (List.range 512).find? fun v => d.vfRid v == some rid

/-- A running descriptor of VF `v` whose destination range holds an address: its queue. -/
def Dev.xferAt (d : Dev) (v addr : Nat) : Option Nat :=
  (d.queuesOf v).find? fun q => match (d.queue q).xfer with
    | some x => x.hasDst && x.status.isNone && decide (x.dst ≤ addr) && decide (addr < x.dst + x.len)
    | none => false

/-- A received notice (R251): counted, reported to the host domain of SRC_PORT as type 16, and the running descriptor whose
destination holds the write ends with WRITE_DISCARDED; a notice for a VF's write whose record is out only counts (R212). -/
def Dev.pdNotice (d : Dev) (pl : List Byte) : Dev :=
  let addr := fieldAt pl 0 8
  let rid := fieldAt pl 8 2
  let src := fieldAt pl 13 1 % 128
  let dport := fieldAt pl 17 1 % 128
  let d := d.bump FABRIC.PD_COUNT.RCVD 0
  let d := d.report { type := 16, kind := 0, index := dport, addr := addr, rid := rid, tenant := fieldAt pl 14 2 % 512, port := src,
                      dev := fieldAt pl 16 1 } (d.domainsAt src)
  match d.vfOfRid rid with
  | none => d
  | some v => match d.xferAt v addr with
    | none => d.bump TRV.TEN_DISCARD_LATE.COUNT (d.rd FN.VF_BIND.TENANT v)
    | some q => match (d.queue q).xfer with
      | some x => d.endXfer q x 7 addr
      | none => d

/-- At the end of a coalescing period the gathered notice of a key goes (R249). -/
def Dev.pdFlush (d : Dev) (dev port tenant : Nat) : Dev :=
  match d.fab.pd.find? fun k => k.same dev port tenant with
  | none => d
  | some k =>
    if 2500 ≤ d.timeBase - k.sentAt then
      if k.count = 0 then
        { d with fab := { d.fab with pd := d.fab.pd.filter fun x => !x.same dev port tenant } }
      else (d.putPd { k with count := 0, sentAt := d.timeBase }).sendPd k
    else d

/-! ### The Cairn over the ring (R420) -/

/-- The 32 bytes of a record (R413). -/
def CairnRec.bytes (r : CairnRec) : List Byte :=
  natBytes 8 r.time ++ natBytes 1 r.src ++ natBytes 1 r.inst ++ natBytes 1 r.event
    ++ natBytes 1 (r.freeze.toNat + r.lost % 16 * 16) ++ natBytes 4 r.seq ++ natBytes 8 r.data0 ++ natBytes 8 r.data1

def Dev.cairnAt (d : Dev) (i : Nat) : CairnRec := SMap.get .zero d.cairn.ring (i % 8192)

/-- Message `j` of the answer to a request for `count` records from `first` on: up to 7 records of 32 bytes from byte 16. -/
def Dev.cairnData (d : Dev) (dest first count j : Nat) : List Byte × Dev :=
  let n := min 7 (count - 7 * j)
  let i := (first + 7 * j) % 8192
  let head := natBytes 2 i ++ natBytes 1 n ++
    natBytes 1 ((d.on CAIRN.STATUS.FROZEN).toNat + (if count ≤ 7 * (j + 1) then 2 else 0)) ++
    natBytes 2 (d.rd CAIRN.STATUS.WR_IDX) ++ List.replicate 10 0
  let recs := (List.range n).flatMap fun x => (d.cairnAt (i + x)).bytes
  d.colMessage 0x0A dest ((head ++ recs ++ List.replicate 240 0).take 240)

/-- Sends a message of the device by the way a request came: a Col port, or the fabric (R259). -/
def Dev.colAnswer (d : Dev) (arrival : Nat) (m : List Byte) : Dev :=
  if arrival < 2 then d.ringSend arrival 31 m
  else if d.routeTo (msgDst m) then d.emit (.fabric (msgDst m) 0 7 4 none m)
  else d

/-- Summit answers a CAIRN_REQ (R420). -/
def Dev.cairnReq (d : Dev) (arrival dest first count : Nat) : Dev :=
  d.each ((min 8192 count + 6) / 7) fun j d =>
    let m := d.cairnData dest first (min 8192 count) j
    m.2.colAnswer arrival m.1

/-! ### Dispatch (R255) -/

/-- A slot message from the fabric (R252): the vDSPs that present the sending port change, EVENT.SLOT is set. `src` is the device
and port of the segment it came in. -/
def Dev.slotEvtIn (d : Dev) (src : Option (Nat × Nat)) (ev : Nat) : Dev :=
  let d := d.signalSlot
  match src with
  | some s => d.tellVdsps s.1 s.2 fun v => v.slotEvt ev
  | none => d

def Dev.pwrAlertIn (d : Dev) (src : Option (Nat × Nat)) (cause : Nat) : Dev :=
  let d := d.signalSlot
  match src with
  | some s => d.when (decide (cause < 5)) fun d => d.tellVdsps s.1 s.2 Vdsp.slotFault
  | none => d

/-- A Col message for this member: hardware types go to their units, CAIRN_REQ to Summit, the other types of R255 to the receive
ring; a reserved type is discarded and counted. What TIME_SYNC measures comes with the command TIME_SYNC. -/
def Dev.colIn (d : Dev) (arrival : Nat) (src : Option (Nat × Nat)) (m : List Byte) : Dev :=
  let t := msgType m
  let pl := msgPayload m
  if t = 1 then d.pdNotice pl
  else if t = 2 then d.slotEvtIn src (fieldAt pl 1 1)
  else if t = 3 then d.pwrAlertIn src (fieldAt pl 1 1)
  else if t = 4 then d
  else if t = 9 then d.cairnReq arrival (msgSrc m) (fieldAt pl 0 2) (fieldAt pl 2 2)
  else if t = 6 ∨ t = 7 ∨ t = 8 ∨ t = 10 ∨ 0x80 ≤ t then d.colReceive arrival m
  else { d with fab := { d.fab with colReserved := d.fab.colReserved + 1 } }

/-- A frame of FTYPE 10 addressed to this device never reaches a program (R255). -/
def Dev.colForMe (d : Dev) (f : Frame) : Bool :=
  f.ftype == 10 && f.fabric && !segMc f && segDstDev f == d.rd FABRIC.ID.DEV

/-- A ring frame arrives at Col port `k` (R257, R258): discarded and counted on a bad CRC; delivered if addressed to this member or
BCAST; sent on by the other port with RING_HOPS − 1 unless it is for this member alone, its hops are spent, or this member sent it. -/
def Dev.ringIn (d : Dev) (k : Nat) (bs : List Byte) : Dev :=
  let body := (bs.drop 1).take (bs.length - 5)
  let m := body.drop 1
  let hops := fieldAt bs 1 1 / 2
  if fieldAt bs 0 1 ≠ 0xC5 ∨ bs.length < 22 ∨ ringCrc body ≠ fieldAt bs (bs.length - 4) 4 then d.bump COL.LINK_STATUS.CRC_ERR k
  else
    let d := d.event 0x150 k
    if hops = 0 ∨ msgSrc m = d.rd FABRIC.ID.DEV then d
    else
      let mine := d.msgMine m
      let d := d.when (mine || msgBcast m) fun d => d.colIn k none m
      d.when (!mine || msgBcast m) fun d => d.ringSend (1 - k) (hops - 1) m

/-! ### The transmit ring (R259) -/

/-- Sends the message of a ring entry by its route, with the time base at sending. -/
def Dev.colSend (d : Dev) (m : List Byte) : Dev :=
  let m := (m.take 12) ++ natBytes 4 d.timeBase ++ msgPayload m
  match msgRoute m with
  | 0 => d.ringSend 0 31 m
  | 1 => d.ringSend 1 31 m
  | 2 => (d.ringSend 0 31 m).ringSend 1 31 m
  | 3 => d.colAnswer 2 m
  | _ => d

/-- Sends up to `n` entries from HEAD on, as far as TAIL. -/
def Dev.colDrain (d : Dev) : Nat → Dev
  | 0 => d
  | n + 1 =>
    let size := colRing (d.rd COL.TX_CTL.SIZE)
    let head := d.rd COL.TX_STATUS.HEAD % size
    if head = d.rd COL.TX_CTL.TAIL % size then d
    else
      let m := d.loadBytes (spurAt (d.rd COL.TX_CTL.BASE * 256 + head * 256)) 256
      Dev.colDrain ((d.colSend m).wr COL.TX_STATUS.HEAD 0 ((head + 1) % size)) n

/-- A write of COL.TX_CTL: what stands before the new TAIL is sent. -/
def Dev.colTxWrite (d : Dev) (summit : Bool) (v : Nat) : Dev := (d.writeFields summit .COL_TX_CTL 0 v).colDrain 256

/-! ### The commands -/

def execColMessageReceive (arrival : Fin 3) (src : Option (Fin 256 × Fin 128)) (m : List Byte) (s : State) :=
  s.lift fun d => if d.coreUp then d.colIn arrival (src.map fun x => (x.1.val, x.2.val)) m else d

def execColRingFrame (k : Fin 2) (frame : List Byte) (s : State) :=
  s.lift fun d => if d.coreUp && d.rd COL.LINK_STATUS.STATE k == 2 then d.ringIn k frame else d

def execColTx (m : Master) (v : W32) (s : State) :=
  s.lift fun d => if d.coreUp then d.colTxWrite (m == .summit) v.toNat else d

def execCairnReq (arrival : Fin 3) (dest : Fin 256) (first count : BitVec 16) (s : State) :=
  s.lift fun d => if d.coreUp then d.cairnReq arrival dest first.toNat count.toNat else d

def execPdNotice (payload : List Byte) (s : State) := s.lift fun d => if d.coreUp then d.pdNotice payload else d

def execPdNoticeSend (dev : Fin 256) (port : Fin 128) (tenant : Fin 512) (s : State) :=
  s.lift fun d => if d.coreUp then d.pdFlush dev port tenant else d

def execSlotEvt (dev : Fin 256) (port : Fin 128) (ev : BitVec 8) (s : State) :=
  s.lift fun d => if d.coreUp then d.slotEvtIn (some (dev.val, port.val)) ev.toNat else d

def execPwrAlert (dev : Fin 256) (port : Fin 128) (cause : Fin 8) (s : State) :=
  s.lift fun d => if d.coreUp then d.pwrAlertIn (some (dev.val, port.val)) cause else d

end Sys2Proof.Machine
end

