-- ==== Sys2Proof/Machine/LaneOps.lean ====
section
/-! DEFINITION. Operations on serial lanes that links use (11_serdes_lanes R321 to R346): a port's lanes, transmit taps, equalisation steps,
what ENABLE and a link that goes down do to a lane. -/

namespace Sys2Proof.Machine

open Sys2Proof

/-! ### Lanes and ports (R10, R321) -/

/-- Widest code of a port's lanes: 4 x16, 3 x8, 2 x4, 1 x2. -/
def Dev.maxWidth (d : Dev) (p : Nat) : Nat := 4 - d.rd TILE.BIFUR.MODE (p / 8)

/-- Device lane of lane `l` of a port. -/
def laneOf (p l : Nat) : Nat := 16 * (p / 8) + 2 * (p % 8) + l

/-- The lanes of a port. -/
def Dev.lanesOf (d : Dev) (p : Nat) : List Nat := (List.range (2 ^ d.maxWidth p)).map (laneOf p)

/-- The port whose lane this is. -/
def Dev.laneHome (d : Dev) (n : Nat) : Nat :=
  let w := 2 ^ (4 - d.rd TILE.BIFUR.MODE (n / 16))
  8 * (n / 16) + n % 16 / w * (w / 2)

def Dev.lane (d : Dev) (n : Nat) : LaneSt := SMap.get {} d.phy.lanes n
def Dev.setLane (d : Dev) (n : Nat) (x : LaneSt) : Dev := { d with phy := { d.phy with lanes := SMap.put {} d.phy.lanes n x } }

/-- The condition of R340: the lane's port is not enabled, or the lane belongs to no configured port. -/
def Dev.laneFree (d : Dev) (n : Nat) : Bool :=
  decide (256 ≤ n) || (let p := d.laneHome n
    (!d.on PORT.CFG.ENABLE p && !d.on PORT.THX_CTL.ENABLE p) || !d.configured p)

/-- A lane register write is refused (R324, R340, R343, R344, R346). -/
def Dev.laneRefused (d : Dev) (n : Nat) : Dev := d.setOn LANE.CFG.REFUSED n true

/-! ### Transmit taps (R324 to R326) -/

/-- The six taps, C−3 to C+2 in order; the cursor C0 is not negative. -/
structure Taps where
  cm3 : Int
  cm2 : Int
  cm1 : Int
  c0 : Int
  cp1 : Int
  cp2 : Int
  deriving DecidableEq, Repr

/-- Two's complement of 7 bits. -/
def tapInt (v : Nat) : Int := if 64 ≤ v % 128 then (v % 128 : Nat) - 128 else (v % 128 : Nat)
def tapNat (v : Int) : Nat := ((v + 128) % 128).toNat

/-- Taps of the words of TX_TAPS0 and TX_TAPS1. -/
def Taps.ofWords (w0 w1 : Nat) : Taps :=
  ⟨tapInt w0, tapInt (bits w0 8 7), tapInt (bits w0 16 7), (bits w0 24 7 : Nat), tapInt w1, tapInt (bits w1 8 7)⟩

/-- The conditions of R324. -/
def Taps.ok (t : Taps) : Bool :=
  t.cm3.natAbs + t.cm2.natAbs + t.cm1.natAbs + t.c0.natAbs + t.cp1.natAbs + t.cp2.natAbs == 64 && decide (24 ≤ t.c0)

/-- The taps in use. -/
def Dev.taps (d : Dev) (n : Nat) : Taps := Taps.ofWords (d.word .LANE_TX_TAPS0 n) (d.word .LANE_TX_TAPS1 n)

def Dev.setTaps (d : Dev) (n : Nat) (t : Taps) : Dev :=
  let d := ((d.wr LANE.TX_TAPS0.CM3 n (tapNat t.cm3)).wr LANE.TX_TAPS0.CM2 n (tapNat t.cm2)).wr LANE.TX_TAPS0.CM1 n (tapNat t.cm1)
  ((d.wr LANE.TX_TAPS0.C0 n t.c0.toNat).wr LANE.TX_TAPS1.CP1 n (tapNat t.cp1)).wr LANE.TX_TAPS1.CP2 n (tapNat t.cp2)

/-- Preset `k` of R326. -/
def Taps.preset (k : Nat) : Taps :=
  ⟨0, 0, -(2 * (k % 4 : Nat)), 64 - 2 * (k % 4 : Nat) - 4 * (k / 4 : Nat), -(4 * (k / 4 : Nat)), 0⟩

/-- One tap moves by `by_`, and C0 by the opposite of the change of its magnitude; none for a tap that R326 does not name. -/
def Taps.step (t : Taps) (tap : Nat) (by_ : Int) : Option Taps :=
  let c (old : Int) : Int := t.c0 - (((old + by_).natAbs : Int) - (old.natAbs : Int))
  match tap with
  | 0 => some { t with cm3 := t.cm3 + by_, c0 := c t.cm3 }
  | 1 => some { t with cm2 := t.cm2 + by_, c0 := c t.cm2 }
  | 2 => some { t with cm1 := t.cm1 + by_, c0 := c t.cm1 }
  | 4 => some { t with cp1 := t.cp1 + by_, c0 := c t.cp1 }
  | 5 => some { t with cp2 := t.cp2 + by_, c0 := c t.cp2 }
  | _ => none

/-- What a request of R326 makes of the taps; none if it is rejected. DONE changes nothing. -/
def Taps.request (t : Taps) (b : Nat) : Option Taps :=
  let v := b % 16
  let r := match bits b 4 3 with
    | 0 => some (Taps.preset v)
    | 1 => t.step v 1
    | 2 => t.step v (-1)
    | 3 => some t
    | _ => none
  match r with
  | some u => if u.ok && decide (u.c0 ≤ 64) then some u else none
  | none => none

/-- An equalisation step arrives for lane `n`: a request is applied and echoed, or answered with REJECT (R326). -/
def Dev.eqStep (d : Dev) (n b : Nat) : Dev :=
  if b.testBit 7 then d
  else
    match if d.on LANE.CFG.TX_OVERRIDE n then none else (d.taps n).request b with
    | some t => (d.setTaps n t).emit (.eqStep n (b + 128))
    | none => d.emit (.eqStep n (b % 16 + 4 * 16 + 128))

/-- The tap nearest to c × 64/63 (R325). -/
def tapOfCoeff (c : Nat) : Nat := (c * 128 + 63) / 126

/-- A coefficient request on a PCI Express or CXL port, magnitudes of C−1 and C+1: rejected if it would break R324 (R325). -/
def Dev.coeffs (d : Dev) (n cm cp : Nat) : Dev :=
  let t : Taps := ⟨0, 0, -(tapOfCoeff cm : Nat), 64 - (tapOfCoeff cm : Nat) - (tapOfCoeff cp : Nat), -(tapOfCoeff cp : Nat), 0⟩
  if t.ok && !d.on LANE.CFG.TX_OVERRIDE n then d.setTaps n t else d

/-! ### Links and lanes -/

/-- Scans that run on a port's lanes end early (R333). -/
def Dev.scansEnd (d : Dev) (p : Nat) : Dev :=
  d.forIn' (d.lanesOf p) fun n d =>
    d.when (d.on LANE.EYE_CTL.BUSY n) fun d => (d.setOn LANE.EYE_CTL.BUSY n false).wr LANE.EYE_CTL.STATUS n 2

/-- A port's ENABLE changes to 1: LOOP and GEN_EN of its lanes are 0 (R344). -/
def Dev.lanesEnabled (d : Dev) (p : Nat) : Dev :=
  d.forIn' (d.lanesOf p) fun n d => (d.wr LANE.CFG.LOOP n 0).setOn LANE.PRBS_CTL.GEN_EN n false

/-- A port has trained (R335, R340, R342): its reference mode, lane order, polarity; a boundary moved by BITSLIP is gone. -/
def Dev.lanesTrained (d : Dev) (p : Nat) : Dev :=
  let d := d.wr PORT.PHY_STATUS.INDEP p (d.rd TILE.REF_CTL.MODE (p / 8))
  d.forIn' (d.lanesOf p) fun n d => d.setLane n { d.lane n with slip := 0 }

end Sys2Proof.Machine
end

