-- ==== Sys2Proof/Machine/Theox.lean ====
section
/-! DEFINITION. Theox ports (08_fabric_mode_col_ring R222 to R237) and fabric time (R260, R261): the states of a link, its replay buffer
and credits, the spare lane, the servo. -/

namespace Sys2Proof.Machine

open Sys2Proof

/-! ### Fabric time (R260, R261) -/

/-- The member takes its time from a source. -/
def Dev.timeSlave (d : Dev) : Bool := d.on FABRIC.TIME_CTL.ENABLE && !d.on FABRIC.TIME_CTL.MASTER

/-- A link is the time source: Col port 0 or 1, or the Theox port named. -/
def Dev.timeFrom (d : Dev) (src p : Nat) : Bool :=
  d.timeSlave && d.rd FABRIC.TIME_CTL.SOURCE == src && (decide (src < 2) || d.rd FABRIC.TIME_CTL.THX_PORT == p)

/-- The source is lost: holdover. -/
def Dev.timeLoss (d : Dev) : Dev :=
  d.when d.timeSlave fun d => (d.setOn FABRIC.TIME_STATUS.HOLDOVER 0 true).setOn FABRIC.TIME_STATUS.LOCKED 0 false

/-- A 16-bit field as a signed number. -/
def signed16 (v : Nat) : Int := if v % 65536 < 32768 then Int.ofNat (v % 65536) else Int.ofNat (v % 65536) - 65536

/-- The count is set to the source's time, `off` ps ahead of it; one tick of the time base is 4,000 ps. -/
def Dev.timeSet (d : Dev) (off : Int) : Dev :=
  { d with timeBase := (Int.ofNat d.timeBase + off / 4000).toNat % 2 ^ 64,
           fab := { d.fab with timeSet := true, stepDue := false, phase := 0, holdTicks := 0 } }

/-- The servo slews the rate by at most 200 ppm: over 1 µs at most 200 ps, toward the source; how much is left open, a free value. A
whole tick backward is a tick for which the count holds. -/
def Dev.slew (d : Dev) (off : Int) : Dev :=
  let x := d.drawNat
  let m : Nat := min off.natAbs (x.1 % 201)
  let ph := d.fab.phase + (if off < 0 then - Int.ofNat m else Int.ofNat m)
  let d := x.2
  if 4000 ≤ ph then { d with timeBase := (d.timeBase + 1) % 2 ^ 64, fab := { d.fab with phase := ph - 4000 } }
  else if ph ≤ -4000 then { d with fab := { d.fab with phase := ph + 4000, holdTicks := d.fab.holdTicks + 1 } }
  else { d with fab := { d.fab with phase := ph } }

/-- OFFSET, OFFSET_BIG and LOCKED after a measured offset in ps. -/
def Dev.timeShow (d : Dev) (off : Int) : Dev :=
  let sat : Int := max (-32768) (min 32767 off)
  let d := d.wr FABRIC.TIME_STATUS.OFFSET 0 (sat + 65536).toNat
  let d := d.when (decide (1000000 < off.natAbs)) fun d => d.setOn FABRIC.TIME_STATUS.OFFSET_BIG 0 true
  (d.setOn FABRIC.TIME_STATUS.LOCKED 0 (decide (off.natAbs ≤ 2000))).setOn FABRIC.TIME_STATUS.HOLDOVER 0 false

/-- An exchange of TIME_SYNC over a link: its round trip in ps, and by how much the source's departure stamp is ahead of the arrival
stamp here. The delay is half the round trip plus ASYM. -/
def Dev.timeSync (d : Dev) (src p rtt : Nat) (ahead : Int) : Dev :=
  let delay : Int := Int.ofNat (rtt / 2) + (if src < 2 then signed16 (d.rd COL.LINK_CTL.ASYM src) else 0)
  let d := d.when (decide (src < 2)) fun d => d.wr COL.LINK_STATUS.DELAY src (max 0 delay).toNat
  if d.timeFrom src p then
    let off := ahead + delay
    let d := d.timeShow off
    if d.fab.stepDue then d.timeSet off else d.slew off
  else d

/-- A write of TIME_CTL: the first ENABLE and STEP set the count once the source's time has come. -/
def Dev.timeCtlWrite (d : Dev) (summit : Bool) (v : Nat) : Dev :=
  let d := d.writeFields summit .FABRIC_TIME_CTL 0 v
  let due := d.timeSlave && (!d.fab.timeSet || v.testBit 2)
  d.when due fun d => { d with fab := { d.fab with stepDue := true } }

/-! ### A Theox link -/

def Dev.thx (d : Dev) (p : Nat) : ThxSt := SMap.get {} d.fab.thx p
def Dev.setThx (d : Dev) (p : Nat) (x : ThxSt) : Dev := { d with fab := { d.fab with thx := SMap.put {} d.fab.thx p x } }
def Dev.thxState (d : Dev) (p : Nat) : Nat := d.rd PORT.THX_STATUS.STATE p
def Dev.setThxState (d : Dev) (p n : Nat) : Dev := (d.when (n != 5) fun d => d.scansEnd p).wr PORT.THX_STATUS.STATE p n

/-- The link of a port has trained (R277). -/
def Dev.markTrained (d : Dev) (p : Nat) : Dev := { d with ctn := { d.ctn with trained := SMap.put false d.ctn.trained p true } }

/-- The port enters T.ACTIVE from training: sequence numbers start, the partner advertises 16 blocks for each class and type and
2,048 shared (R231), and the spare is unused. -/
def Dev.thxUp (d : Dev) (p : Nat) (rate : Bool) (spared : Bool) : Dev :=
  let c := SMap.drop (fun k => k / 32 == p) d.sad.thxCredit
  let c := (List.range 24).foldl (fun c i => SMap.put 0 c (p * 32 + i) 16) c
  let d : Dev := { d with sad := { d.sad with thxCredit := SMap.put 0 c (thxShared p) 2048 } }
  let d := (d.setThx p { spared := spared }).lanesTrained p
  let d := (d.setOn PORT.THX_STATUS.RATE p rate).setThxState p 5
  (d.markTrained p).signalLink

/-- The port leaves T.ACTIVE or T.RECOVERY for a lower state: its link is down. -/
def Dev.thxDown (d : Dev) (p next : Nat) : Dev :=
  let d := (d.setThx p {}).setThxState p next
  let d := (d.setOn PORT.THX_STATUS.SPARE_USED p false).wr PORT.THX_STATUS.SPARED_LANE p 0
  let d := d.when (d.timeFrom 2 p) fun d => d.timeLoss
  d.signalLink

/-- The link enters T.RECOVERY (R230, R403 0x017). -/
def Dev.thxRecover (d : Dev) (p : Nat) : Dev :=
  if d.thxState p = 5 then
    ((d.setThx p { d.thx p with naks := 0 }).setThxState p 6).event 0x017 (p / 8) { slot := some (p % 8) }
  else d

/-- Flits a frame takes, its frame word with it (R226, R233). -/
def thxFlits (f : Frame) : Nat := (frameLen f + 2 + 223) / 224

/-- Unacknowledged flits. -/
def ThxSt.held (x : ThxSt) : Nat := x.flight.foldl (fun n f => n + f.flits) 0

/-- A packet's flits go out and into the replay buffer; a full one sends the link to T.RECOVERY (R230). -/
def Dev.thxLaunch (d : Dev) (p : Nat) (f : Frame) (hdr : Option Nat) : Dev :=
  let x := d.thx p
  let n := thxFlits f
  let dev := match hdr with | some h => if h.testBit 3 then 256 else bits h 4 8 | none => 256
  let x := { x with tx := (x.tx + n) % 4096, flight := x.flight ++ [⟨(x.tx + n - 1) % 4096, n, dev⟩] }
  let d := d.setThx p x
  d.when (decide (1024 ≤ x.held)) fun d => d.thxRecover p

/-- A TLP goes out on a PCI Express link and into its replay buffer. -/
def Dev.tlpLaunch (d : Dev) (p : Nat) : Dev :=
  let x := d.thx p
  d.setThx p { x with tx := (x.tx + 1) % 4096, flight := x.flight ++ [⟨x.tx, 1, 256⟩] }

/-- Flits up to `ack` are acknowledged. -/
def ThxSt.acked (x : ThxSt) (ack : Nat) : ThxSt :=
  { x with flight := x.flight.filter fun f => decide (2048 ≤ (ack + 4096 - f.last) % 4096) }

/-- The partner NAKs (R230): the port replays from ACKSEQ + 1; the same flit 4 times leads to T.RECOVERY, more than 64 replays in 1 ms
to the fabric-link trigger. -/
def Dev.thxNaked (d : Dev) (p ack : Nat) : Dev :=
  let x := d.thx p
  let seq := (ack + 1) % 4096
  let n := if x.nakSeq = seq then x.naks + 1 else 1
  let rs := (x.replays.filter fun t => decide (d.timeBase - t ≤ 250000)) ++ [d.timeBase]
  let d := (d.setThx p { x with nakSeq := seq, naks := n, replays := rs }).emit (.replay p seq)
  let d := d.event 0x016 (p / 8) { slot := some (p % 8) }
  if 64 < rs.length then d.portFreeze p 6
  else if 4 ≤ n then d.thxRecover p
  else d

/-- A received flit is refused: NAK (R230). -/
def Dev.thxRefuse (d : Dev) (p : Nat) : Dev :=
  (d.emit (.nak p (((d.thx p).rx + 4095) % 4096))).event 0x016 (p / 8) { slot := some (p % 8) }

/-! ### The spare lane (R235 to R237) -/

/-- A lane needs sparing: the receiver asks its partner, or sparing is exhausted. -/
def Dev.spareLane (d : Dev) (p lane : Nat) : Dev :=
  let x := d.thx p
  if d.thxState p = 5 ∧ lane < 15 then
    if x.spared ∧ ¬d.on PORT.THX_STATUS.SPARE_USED p then
      if x.sparing = 0 then (d.setThx p { x with sparing := lane + 1 }).emit (.spare p false lane)
      else if x.sparing = lane + 1 then d
      else d.portFreeze p 7
    else d.portFreeze p 7
  else d

/-- The spare carries a data lane. -/
def Dev.spareUse (d : Dev) (p lane : Nat) : Dev :=
  (d.setOn PORT.THX_STATUS.SPARE_USED p true).wr PORT.THX_STATUS.SPARED_LANE p lane

/-- At a flit boundary the receiver switches to lane 15 and acknowledges. -/
def Dev.spareSwitch (d : Dev) (p : Nat) : Dev :=
  let x := d.thx p
  if x.sparing = 0 then d
  else ((d.setThx p { x with sparing := 0 }).emit (.spare p true (x.sparing - 1))).spareUse p (x.sparing - 1)

/-- Corrected symbols are counted per lane in windows of 1 ms; a lane above SPARE_THR × 64 is spared. -/
def Dev.spareCount (d : Dev) (p : Nat) (lanes : List Nat) : Dev :=
  let x := d.thx p
  let x := if x.corrAt + 250000 ≤ d.timeBase then { x with corr := [], corrAt := d.timeBase } else x
  let x := { x with corr := lanes.foldl (fun m l => SMap.upd 0 m l (· + 1)) x.corr }
  let d := d.setThx p x
  let d := d.when (!lanes.isEmpty) fun d => d.event 0x018 (p / 8) { slot := some (p % 8) } lanes.length
  let thr := d.rd PORT.THX_CTL.SPARE_THR p
  match lanes.find? fun l => decide (thr ≠ 0) && decide (thr * 64 < SMap.get 0 x.corr l) with
  | some l => d.spareLane p l
  | none => d

end Sys2Proof.Machine
end

