-- ==== Sys2Proof/Machine/Saddle.lean ====
section
/-! DEFINITION. A packet's way through the device around its Notch program: arrival, extraction, admission, spill and return, planes,
cells, multicast, egress, traps (R70 to R81, R94 to R137, R274). -/

namespace Sys2Proof.Machine

open Sys2Proof

/-! ### Arrival (R70, R274, R290, R311) -/

/-- An error of a port's link in the AER of the USP, or of each vDSP mapped to it. -/
def Dev.portAer (d : Dev) (p bit : Nat) (cor : Bool) : Dev :=
  let log (d : Dev) (up fn rid : Nat) : Dev := if cor then d.aerCor up fn bit rid else d.aerError up fn bit rid
  if d.upstream p then log d p fnUsp (d.uspRid p)
  else d.forIn' (d.vdspsOf p) fun i d =>
    match d.portOfDomain (i / 32) with
    | some up => log d up (fnVdsp (i % 32)) (d.vdspRid up (i % 32))
    | none => d

/-- A good frame is written into landing blocks; a poisoned one takes cause 3 where that is enabled, and is marked; without the enable
it is reported as Poisoned TLP Received (R263, R265, R274). -/
def Dev.arrive (d : Dev) (p : Nat) (f : Frame) : Dev :=
  let trig := f.ep && d.on PORT.CTN_CTL.POISON_TRIG p
  let d := if trig then d.portFreeze p 3 f.h5.toNat (frameRid f) else if f.ep then d.portAer p 12 false else d
  let k : Pkt := { id := d.sad.nextPkt, port := p, frame := f, marked := trig }
  let t := p / 8
  let d := d.wr TILE.VOQ_STATUS.USED t (d.rd TILE.VOQ_STATUS.USED t + frameBlocks f)
  { d with sad := { d.sad with pkts := d.sad.pkts ++ [k], nextPkt := k.id + 1 } }

/-- An LTR latency in ns; one without its Requirement bit asks for nothing (R288; the encoding is that of the standard, PRESUMED). -/
def ltrNs (w : Nat) : Nat := if w.testBit 15 then w % 1024 * 32 ^ bits w 10 3 else 2 ^ 64

/-- The least requirement among the downstream ports of a domain: the no-snoop (`half` 1) or the snoop (0) latency. -/
def Dev.ltrLeast (d : Dev) (h half : Nat) : Nat :=
  let ws := ((List.range 128).filter fun p => SMap.get 0 d.host.ltr p != 0 && (d.vdspsOf p).any fun i => i / 32 == h).map fun p =>
    bits (SMap.get 0 d.host.ltr p - 1) (16 * half) 16
  ws.foldl (fun a b => if ltrNs b < ltrNs a then b else a) 0

/-- A downstream port records the LTR values of its endpoint; an upstream port tells its host when the least requirement of its domain
changes (R288). The values stand in bytes 12 to 15 of the header, no-snoop first, most significant byte first (PRESUMED). -/
def Dev.ltrIn (d : Dev) (p : Nat) (f : Frame) : Dev :=
  let w := fieldAt f.head 15 1 + fieldAt f.head 14 1 * 256 + (fieldAt f.head 13 1 + fieldAt f.head 12 1 * 256) * 65536
  let e : Dev := { d with host := { d.host with ltr := SMap.put 0 d.host.ltr p (w + 1) } }
  e.forIn' ((d.vdspsOf p).map (· / 32)).eraseDups fun h x =>
    match d.portOfDomain h with
    | some up => x.when (e.ltrLeast h 1 != d.ltrLeast h 1 || e.ltrLeast h 0 != d.ltrLeast h 0) fun x =>
        x.emit (.ltr up (e.ltrLeast h 1) (e.ltrLeast h 0))
    | none => x

/-- An LTR message from the endpoint of a downstream port: code 0x10 of the standard (PRESUMED). -/
def Dev.isLtr (d : Dev) (p : Nat) (f : Frame) : Bool := f.ftype == 5 && !f.fabric && f.h5.toNat % 256 == 0x10 && d.downstream p

/-- A frame that its checks find good: one too long for the port is Malformed, one of an insecure IDE stream is discarded (R274, R311). -/
def Dev.goodFrame (d : Dev) (p : Nat) (f : Frame) : Dev :=
  if decide (d.mpsAt p < f.data.length) && !f.fabric then d.portFreeze p 1
  else if f.ide && SMap.get false d.host.insecure (p * 256 + bits f.h3.toNat 1 8) then d
  else if d.colForMe f then d.colIn 2 (some (segSrcDev f, segSrcPort f)) (f.head ++ f.data)
  else (d.when (d.isLtr p f) fun d => d.ltrIn p f).arrive p f

/-- An IDE stream becomes Insecure, or is secure again (R311). -/
def Dev.setInsecure (d : Dev) (p st : Nat) (b : Bool) : Dev :=
  { d with host := { d.host with insecure := SMap.put false d.host.insecure (p * 256 + st) b } }

/-- A frame comes from the link, with what its checks found (R274). -/
def Dev.frameIn (d : Dev) (p : Nat) (f : Frame) (check : LinkCheck) : Dev :=
  match check with
  | .badCrc => ((d.portAer p 6 true).event 0x016 (p / 8) { slot := some (p % 8) })
  | .uncorrectable => d.portFreeze p 1
  | .ecrc => d.portAer p 19 false
  | .ide st => (d.setInsecure p st true).portAer p 27 false
  | .rekeyed => (d.when f.ide fun d => d.setInsecure p (bits f.h3.toNat 1 8) false).goodFrame p f
  | .good => d.goodFrame p f

def execFrameArrival (p : Fin 128) (f : Frame) (check : LinkCheck) (s : State) :=
  s.lift fun d => if d.coreUp && d.linkUp p then d.frameIn p f check else d

/-! ### Extraction (R71 to R78) -/

/-- A completion carries the last bytes owed: any status but success, no data left, or a byte count that this payload covers
(DEDUCED). -/
def lastCpl (f : Frame) : Bool :=
  bits f.h1.toNat 35 3 != 0 || f.h6 == 0 ||
    decide (bits f.h2.toNat 0 13 ≤ f.h6.toNat - bits f.h2.toNat 13 7 % 4)

/-- The context a completion matches (R77, R202, R242): by TRK for a segment that ends here, by port and tag for the rest. -/
def Dev.completionCtx (d : Dev) (k : Pkt) : Option Nat × Bool :=
  let f := k.frame
  if f.ftype ≠ 4 then (none, false)
  else if f.fabric then
    if segDstDev f ≠ d.rd FABRIC.ID.DEV then (none, false)
    else if segTrkV f then
      match d.ctx? (segTrk f) with
      | some c => if c.user == .tunnel || c.user == .remap then (some (segTrk f), false) else (none, true)
      | none => (none, true)
    else (d.matchCtx k.port (frameTag f), false)
  else (d.matchCtx k.port (frameTag f), false)

/-- What extraction finds of a completion's context. -/
def Dev.hitOf (d : Dev) (k : Pkt) : Option CtxHit × Bool :=
  let m := d.completionCtx k
  match m.1 with
  | none => (none, m.2)
  | some i => match d.ctx? i with
    | none => (none, m.2)
    | some c => (some ⟨i, c.quarantined, lastCpl k.frame, d.ctxWord c, c.trk⟩, false)

/-- h0 (R72). -/
def Dev.h0 (d : Dev) (k : Pkt) : Nat :=
  let f := k.frame
  f.ftype % 16 + k.port % 128 * 2 ^ 4 + f.flit.toNat * 2 ^ 11 + f.ep.toNat * 2 ^ 12 + k.ctx.isSome.toNat * 2 ^ 13
    + (d.upstream k.port).toNat * 2 ^ 14 + f.locked.toNat * 2 ^ 15 + f.fabric.toNat * 2 ^ 16
    + (match k.ctx with | some h => h.last.toNat * 2 ^ 17 + h.index % 2 ^ 14 * 2 ^ 18 | none => 0)
    + d.rd FABRIC.ID.DEV % 256 * 2 ^ 32

/-- The sixteen h registers (R71 to R78). -/
def Dev.hRegs (d : Dev) (k : Pkt) : List W64 :=
  let f := k.frame
  let head (i : Nat) : W64 := BitVec.ofNat 64 (bytesNat ((f.head.drop (8 * i)).take 8))
  [BitVec.ofNat 64 (d.h0 k), f.h1, f.h2, f.h3, f.h4, f.h5, f.h6, f.h7, head 0, head 1, head 2, head 3,
   (match k.ctx with | some h => h.word | none => 0),
   BitVec.ofNat 64 (SMap.get 0 d.notch.portWord k.port),
   (if f.fabric then f.h14 else 0), (if f.fabric then f.h15 else 0)]

/-- The oldest header of a tile that waits for a pipeline. -/
def Dev.nextHeader (d : Dev) (t : Nat) : Option Pkt := d.sad.pkts.find? fun k => k.port / 8 == t && k.phase == .waiting

/-- A header enters stage 1 (R70, R78, R80): it starts the program its selector entry names, or traps with reason 0x3F04. -/
def Dev.startProgram (d : Dev) (t : Nat) (k : Pkt) : Dev :=
  -- an Unlock message is discarded at extraction (R306)
  if k.frame.ftype = 5 ∧ k.frame.h5.toNat % 256 = 0 then d.removePkt k else
  let h := d.hitOf k
  let k := { k with ctx := h.1, noTrk := h.2, phase := .running }
  let d := d.setPkt k
  let pipe := SMap.get 0 d.notch.nextPipe t
  let b := d.activeBank t
  let e := d.selEntry t b (k.port % 8 * 32 + k.frame.fabric.toNat * 16 + k.frame.ftype % 16)
  let d : Dev := { d with notch := { d.notch with nextPipe := SMap.put 0 d.notch.nextPipe t (1 - pipe) } }
  if e < 8 then
    let q : EvQual := { slot := some (k.port % 8), cls := some 0, tenant := some 0 }
    let d := ((d.event 0x001 t q).event 0x002 t q (frameLen k.frame)).bwAdd k.port 0 0 (frameLen k.frame)
    d.act k ⟨5, 0, 0, 0, 0⟩ ⟨pipe, none, false, 0, 0, 0, 0⟩ 0x3F04
  else
    let regs := (d.hRegs k).foldl (fun (x : Nat × SMap W64) v => (x.1 + 1, SMap.put 0 x.2 x.1 v)) (0, [])
    let n : NRun := { id := d.notch.nextRun, pkt := k.id, tile := t, pipe := pipe, bank := b, prog := e % 8, h := regs.2 }
    { d with notch := { d.notch with runs := d.notch.runs ++ [n], nextRun := n.id + 1 } }

/-- The oldest waiting header of a tile starts; `ue` says that the active bank yields an uncorrectable error, which freezes the tile
(R93). -/
def execNotchProgramStart (t : Fin 16) (ue : Bool) (s : State) :=
  s.lift fun d =>
    if d.coreUp then
      match d.nextHeader t with
      | none => d
      | some k => if ue then d.tileFreeze t 2 else d.startProgram t k
    else d

/-! ### Admission (R114 to R118, R289) -/

/-- Lanes of a port of a tile (R10). -/
def Dev.portLanes (d : Dev) (p : Nat) : Nat := 16 / 2 ^ d.rd TILE.BIFUR.MODE (p / 8)

/-- Landing blocks of a port (R231, R289): a PCI Express port's scale with its width, a CXL port's too. -/
def Dev.landing (d : Dev) (p : Nat) : Nat :=
  if d.theox p then 2432
  else if d.configured p then
    (5440 + (if d.on PORT.LINK_STATUS.CXL_ACTIVE p then 1024 else 0)) * d.portLanes p / 16
  else 0

/-- Landing blocks of a tile. -/
def Dev.tileLanding (d : Dev) (t : Nat) : Nat := (List.range 8).foldl (fun n s => n + d.landing (8 * t + s)) 0

def Dev.tenMin (d : Dev) (t n : Nat) : Nat := d.rd TILE.VOQ_TEN_MIN.MIN (t * 512 + n)
def Dev.tenUsed (d : Dev) (t n : Nat) : Nat := d.rd TILE.VOQ_TEN_USE.USED (t * 512 + n)

/-- Sum of the minimums of a tile. -/
def Dev.sumMin (d : Dev) (t : Nat) : Nat := (List.range 512).foldl (fun x n => x + d.tenMin t n) 0

/-- Headroom blocks that the tenants of a tile hold: what each holds beyond its minimum (R116, R117). -/
def Dev.headroomUsed (d : Dev) (t : Nat) : Nat := (List.range 512).foldl (fun x n => x + (d.tenUsed t n - d.tenMin t n)) 0

/-- `n` more blocks of a tenant fit (R114, R116). -/
def Dev.fits (d : Dev) (t ten n : Nat) : Bool :=
  let u := d.tenUsed t ten
  let m := d.tenMin t ten
  decide (u + n ≤ m) ||
    (decide (u + n - m ≤ d.rd TILE.VOQ_TEN_CAP.CAP (t * 512 + ten)) &&
      decide (d.headroomUsed t + (u + n - m) - (u - m) + d.tileLanding t + d.sumMin t ≤ 65536))

/-- The packet waits for admission (R115). -/
def Pkt.landing (k : Pkt) : Bool :=
  !k.charged && match k.phase with
    | .landed | .trapped => true
    | _ => false

/-- Earlier packets of the same port and credit type that are not admitted hold the packet back (R115). -/
def Dev.creditTurn (d : Dev) (k : Pkt) : Bool :=
  !(d.sad.pkts.any fun q => decide (q.id < k.id) && q.port == k.port && subOf q.frame == subOf k.frame && !q.charged &&
    !q.credited && q.phase != .cfg && q.phase != .cfgHold)

/-- Spill thresholds in blocks; LOW at or above HIGH acts as HIGH − 64 KiB (R120). -/
def Dev.spillHigh (d : Dev) (t : Nat) : Nat := d.rd TILE.SCREE_CTL.HIGH t * 16
def Dev.spillLow (d : Dev) (t : Nat) : Nat :=
  let h := d.rd TILE.SCREE_CTL.HIGH t
  let l := d.rd TILE.SCREE_CTL.LOW t
  (if h ≤ l then h - 64 else l) * 16

/-- Segments in use in the whole Scree. -/
def Dev.screeUsed (d : Dev) : Nat := (List.range 16).foldl (fun n t => n + d.rd TILE.SCREE_STATUS.IN_USE t) 0

/-- The tile may take another segment (R121). -/
def Dev.canSpill (d : Dev) (t : Nat) : Bool :=
  decide (d.rd TILE.SCREE_STATUS.IN_USE t < d.rd TILE.SCREE_SHARE.SEGMENTS t) && decide (d.screeUsed < d.screeSegs)

/-- SCREE_STATUS.FULL and VOQ_STATUS.SPILLING as they stand (R118, R121). -/
def Dev.showScree (d : Dev) (t : Nat) : Dev :=
  (d.setOn TILE.SCREE_STATUS.FULL t (!d.canSpill t)).setOn TILE.VOQ_STATUS.SPILLING t
    (decide (0 < d.rd TILE.SCREE_STATUS.IN_USE t))

/-- The tile spills from HIGH until it falls to LOW (R118, R120). -/
def Dev.spillState (d : Dev) (t : Nat) : Dev :=
  let u := d.rd TILE.VOQ_STATUS.USED t
  let was := SMap.get false d.sad.spilling t
  let now := if d.spillHigh t ≤ u then true else was && decide (d.spillLow t < u)
  { d with sad := { d.sad with spilling := SMap.put false d.sad.spilling t now } }

def Pkt.inTail (k : Pkt) : Bool := k.phase == .tail
def Pkt.inScree (k : Pkt) : Bool := match k.phase with | .scree _ | .back _ => true | _ => false

/-- Packets of the VOQ of `k`. -/
def Dev.voq (d : Dev) (k : Pkt) : List Pkt := d.sad.pkts.filter fun q => q.queuedNow && q.charged && q.sameVoq k

/-- The packet joins the tail (R118, R119): the VOQ has a tail or segments, or the tile spills and the VOQ holds 60 blocks behind its
head. -/
def Dev.goesTail (d : Dev) (k : Pkt) : Bool :=
  let qs := (d.sad.pkts.filter fun q => q.queuedNow && q.sameVoq k && q.id != k.id)
  qs.any (fun q => q.inTail || q.inScree) ||
    (SMap.get false d.sad.spilling (k.port / 8) && d.canSpill (k.port / 8) &&
      match qs.filter fun q => q.phase == .queued with
      | [] => false
      | _ :: behind => decide (60 ≤ behind.foldl (fun n q => n + q.blocks) 0))

/-- A packet's blocks are charged and its credits given back (R114). -/
def Dev.admitPkt (d : Dev) (k : Pkt) (phase : Phase) : Dev :=
  let i := k.port / 8 * 512 + k.tenant
  let d := d.wr TILE.VOQ_TEN_USE.USED i (d.rd TILE.VOQ_TEN_USE.USED i + k.blocks)
  (d.setPkt { k with phase := phase, charged := true, credited := true }).emit
    (.credits k.port (subOf k.frame) (frameBlocks k.frame))

/-- The packets of a tail are written to the Scree as one segment (R118). -/
def Dev.writeSegment (d : Dev) (t : Nat) (qs : List Pkt) : Dev :=
  match qs with
  | [] => d
  | _ =>
    let seg := d.sad.nextSeg
    let d : Dev := { d with sad := { d.sad with nextSeg := seg + 1 } }
    let d := d.forIn' qs fun q d => (d.giveBlocks q q.blocks).setPkt { q with phase := .scree seg, charged := false }
    let d := d.wr TILE.SCREE_STATUS.IN_USE t (d.rd TILE.SCREE_STATUS.IN_USE t + 1)
    (d.event 0x011 t).showScree t

def tailBlocks (qs : List Pkt) : Nat := qs.foldl (fun n q => n + q.blocks) 0

/-- A packet has joined the tail of its VOQ: a tail of 60 blocks, or one that this packet would take past 60, becomes a segment. -/
def Dev.tailJoined (d : Dev) (k : Pkt) : Dev :=
  let t := k.port / 8
  let qs := d.sad.pkts.filter fun q => q.inTail && q.sameVoq k
  let before := qs.filter fun q => q.id != k.id
  if !d.canSpill t then d
  else if tailBlocks qs = 60 then d.writeSegment t qs
  else if 60 < tailBlocks qs then d.writeSegment t before
  else d

/-- VOQ_STATUS.WITHHOLD: some packet of the tile waits for blocks (R115). -/
def Dev.showWithhold (d : Dev) (t : Nat) : Dev :=
  d.setOn TILE.VOQ_STATUS.WITHHOLD t
    (d.sad.pkts.any fun q => q.port / 8 == t && q.landing && !d.fits t q.tenant q.blocks)

/-- The admission of a packet (R114 to R118). -/
def Dev.admission (d : Dev) (k : Pkt) : Dev :=
  let t := k.port / 8
  if k.landing && d.creditTurn k then
    let d := d.spillState t
    let tail := k.phase == .landed && d.goesTail k
    let free := tail && SMap.get false d.sad.spilling t && d.canSpill t
    if free || d.fits t k.tenant k.blocks then
      let d := d.admitPkt k (if tail then .tail else if k.phase == .trapped then .trapped else .queued)
      let d := if tail then
          match d.pkt? k.id with
          | some q => d.tailJoined q
          | none => d
        else d
      (d.showScree t).showWithhold t
    else d.showWithhold t
  else d

def execAdmission (k : Nat) (s : State) :=
  s.lift fun d => if d.coreUp then (match d.pkt? k with | some p => d.admission p | none => d) else d

/-! ### Return from the Scree (R120, R122) -/

/-- Packets in segment `seg` of a tile. -/
def Dev.segPkts (d : Dev) (t : Nat) (ph : Phase) : List Pkt := d.sad.pkts.filter fun q => q.port / 8 == t && q.phase == ph

/-- Segments of a tile that are being read back. -/
def Dev.backSegs (d : Dev) (t : Nat) : Nat :=
  ((d.sad.pkts.filterMap fun q => if q.port / 8 = t then (match q.phase with | .back s => some s | _ => none) else none).eraseDups).length

/-- The tile reads back the oldest segment of a VOQ whose SRAM head holds fewer than 60 blocks. -/
def execScreeReturn (t : Fin 16) (seg : Nat) (s : State) :=
  s.lift fun d =>
    if d.coreUp && decide (d.rd TILE.VOQ_STATUS.USED t ≤ d.spillLow t) && decide (d.backSegs t < 8) then
      match d.segPkts t (.scree seg) with
      | [] => d
      | k :: ks =>
        let qs := d.sad.pkts.filter fun q => q.queuedNow && q.sameVoq k
        let head := (qs.filter fun q => q.phase == .queued).foldl (fun n q => n + q.blocks) 0
        let oldest := qs.all fun q => match q.phase with | .scree x => decide (seg ≤ x) | _ => true
        if head < 60 ∧ oldest then
          d.forIn' (k :: ks) fun q d => d.setPkt { q with phase := .back seg }
        else d
    else d

/-- The read-back ends: the blocks are in SRAM and charged without a cap, or lost to an uncorrectable error (R120, R122). -/
def Dev.segmentBack (d : Dev) (t seg : Nat) (ue : Bool) : Dev :=
  let qs := d.segPkts t (.back seg)
  match qs with
  | [] => d
  | _ =>
    let d := d.wr TILE.SCREE_STATUS.IN_USE t (d.rd TILE.SCREE_STATUS.IN_USE t - 1)
    if ue then
      let d := d.forIn' qs fun q d => d.dropPkt q.id
      let d := d.forIn' ((qs.map (·.tenant)).eraseDups) fun n d =>
        let c := (qs.filter fun q => q.tenant == n).length
        (d.cairnPush 0x01 t 3 c n).report
          { type := 18, kind := 2, index := t, tenant := n, count := c } (d.tenDomain n)
      d.showScree t
    else
      let d := d.forIn' qs fun q d =>
        let i := t * 512 + q.tenant
        let n := frameBlocks q.frame
        let d := d.wr TILE.VOQ_TEN_USE.USED i (d.rd TILE.VOQ_TEN_USE.USED i + n)
        let d := d.wr TILE.VOQ_STATUS.USED t (d.rd TILE.VOQ_STATUS.USED t + n)
        d.setPkt { q with phase := .queued, charged := true }
      (d.event 0x012 t).showScree t

def execScreeReturnDone (t : Fin 16) (seg : Nat) (ue : Bool) (s : State) :=
  s.lift fun d => if d.coreUp then d.segmentBack t seg ue else d

/-! ### Traps (R95 to R98) -/

def Dev.trap? (d : Dev) (t n : Nat) : Option Trap := d.notch.traps.find? fun x => x.tile == t && x.n == n
def Dev.dropTrap (d : Dev) (t n : Nat) : Dev :=
  { d with notch := { d.notch with traps := d.notch.traps.filter fun x => !(x.tile == t && x.n == n) } }

/-- Ring entries of a tile (R95). -/
def Dev.trapRing (d : Dev) (t : Nat) : Nat := 2 ^ (min 8 (max 4 (d.rd TILE.NOTCH_TRAP_RING.SIZE t)))

/-- The 64-byte record and the frame's first 64 bytes as received (R95). -/
def Trap.bytes (x : Trap) (k : Pkt) : List Byte :=
  let w0 := x.reason % 2 ^ 14 + k.frame.ftype % 16 * 2 ^ 16 + k.port % 128 * 2 ^ 20 + x.pipe % 2 * 2 ^ 27 + x.tile % 16 * 2 ^ 28
    + x.fn % 8 * 2 ^ 32 + 2 ^ 47 + x.n % 2 ^ 16 * 2 ^ 48
  let frame := (k.frame.head ++ k.frame.data ++ List.replicate 64 0).take 64
  natBytes 8 w0 ++ natBytes 8 x.time ++ natBytes 8 x.o1.toNat ++ natBytes 8 x.o0.toNat ++ natBytes 8 x.o4.toNat
    ++ natBytes 8 x.o5.toNat ++ natBytes 8 x.o6.toNat ++ natBytes 8 x.o7.toNat ++ frame

/-- When its ring entry is free, a trap's record is written and VALID set (R95, R96). -/
def execTrapRecordWrite (t : Fin 16) (n : Nat) (s : State) :=
  s.lift fun d =>
    match d.trap? t n with
    | none => d
    | some x => match d.pkt? x.pkt with
      | none => d
      | some k =>
        let m := d.trapRing t
        let busy := d.notch.traps.any fun y => y.tile == t.val && y.valid && y.n % m == n % m
        let older := d.notch.traps.any fun y => y.tile == t.val && !y.valid && decide (y.n < n)
        if d.coreUp && !x.valid && !busy && !older then
          let d := d.spurStore (d.rd TILE.NOTCH_TRAP_RING.BASE t * 128 + n % m * 128) (x.bytes k)
          let d : Dev := { d with notch := { d.notch with
            traps := d.notch.traps.map fun y => if y.tile = t.val ∧ y.n = n then { y with valid := true } else y } }
          d.signalTrap t
        else d

/-- The staging registers of physical core `c` for tile `t`. -/
def rslvIdx (t c : Nat) : Nat := t * 256 + 0x10 + c

/-- NOTCH_RSLV_CMD (R97): a core's write carries out its action on the held packet; any other is refused and counted. -/
def Dev.trapResolve (d : Dev) (t : Nat) (m : Master) (seq action : Nat) : Dev :=
  let refuse : Dev := { d with notch := { d.notch with
    rslvRefused := SMap.put 0 d.notch.rslvRefused t (SMap.get 0 d.notch.rslvRefused t + 1) } }
  match m with
  | .core c =>
    match d.notch.traps.find? fun x => x.tile == t && x.valid && x.n % 65536 == seq with
    | none => refuse
    | some x => match d.pkt? x.pkt with
      | none => refuse
      | some k =>
        if action = 5 then refuse
        else
          let i := rslvIdx t c
          let lo (f : Fld) : Nat := d.rd f i
          let a : Act := ⟨action, BitVec.ofNat 64 (lo TILE.NOTCH_RSLV_O0.V), BitVec.ofNat 64 (lo TILE.NOTCH_RSLV_O1.V),
            BitVec.ofNat 64 (lo TILE.NOTCH_RSLV_O2_LO.V + 2 ^ 32 * lo TILE.NOTCH_RSLV_O2_HI.V),
            BitVec.ofNat 64 (lo TILE.NOTCH_RSLV_O3.V)⟩
          (d.dropTrap t x.n).act k a ⟨x.pipe, none, false, x.o4, x.o5, x.o6, x.o7⟩ 0
  | _ => refuse

def execTrapResolve (t : Fin 16) (m : Master) (seq : BitVec 16) (action : Fin 8) (s : State) :=
  s.lift fun d => if d.coreUp then d.trapResolve t m seq.toNat action else d

/-- An unresolved trap is disposed of after TIMEOUT (R98). -/
def execTrapTimeout (t : Fin 16) (n : Nat) (s : State) :=
  s.lift fun d =>
    match d.trap? t n with
    | none => d
    | some x => match d.pkt? x.pkt with
      | none => d.dropTrap t n
      | some k =>
        if d.coreUp then
          let d := (d.dropTrap t n).cairnPush 0x01 t 2 (n % 2 ^ 16 + x.reason * 2 ^ 16) k.port
          d.disposeStatus k 1 3 k.frame.h5.toNat
        else d

/-! ### Planes (R102 to R107) -/

/-- A plane takes new packets: STATE 0. -/
def Dev.planeIn (d : Dev) (n : Nat) : Bool := d.rd PLANE.STATUS.STATE n == 0

/-- Planes in service. -/
def Dev.planesIn (d : Dev) : List Nat := (List.range 4).filter fun n => d.planeIn n

/-- The multicast plane of a tile (R128). -/
def Dev.mcPlane (d : Dev) (t : Nat) : Option Nat :=
  (List.range 4).findSome? fun i => if d.planeIn ((t + i) % 4) then some ((t + i) % 4) else none

/-- A plane still has a cell that is not acknowledged, or a multicast packet part of which has crossed on it (R104). -/
def Dev.planeBusy (d : Dev) (n : Nat) : Bool :=
  d.sad.pkts.any fun k => k.cells.any (fun c => c.plane == n && !c.acked) ||
    (k.dest.group?.isSome && !k.crossed && k.cells.any fun c => c.plane == n)

/-- Draining planes with nothing left become isolated. -/
def Dev.drainPlanes (d : Dev) : Dev :=
  d.each 4 fun n d => d.when (d.rd PLANE.STATUS.STATE n == 1 && !d.planeBusy n) fun d =>
    (d.wr PLANE.STATUS.STATE n 2).report { type := 7, kind := 4, index := n } []

/-- A packet is to be sent again whole, on the queued path (R106, R135). -/
def Dev.sendAgain (d : Dev) (i : Nat) : Dev :=
  match d.pkt? i with
  | some k =>
    -- blocks freed by acknowledgements are taken again
    let n := k.freed
    let t := k.port / 8
    let d := d.wr TILE.VOQ_STATUS.USED t (d.rd TILE.VOQ_STATUS.USED t + n)
    let d := d.when k.charged fun d =>
      d.wr TILE.VOQ_TEN_USE.USED (t * 512 + k.tenant) (d.rd TILE.VOQ_TEN_USE.USED (t * 512 + k.tenant) + n)
    d.setPkt { k with cells := [], cut := false, resend := true, mcMap := none }
  | none => d

/-- A plane faults (R106): it leaves service; its unacknowledged unicast cells are sent on another plane, multicast packets that have
not crossed start again, and transmissions that lack the lost cell of packet `lost` are nullified and sent again. -/
def Dev.planeFault (d : Dev) (n cause : Nat) (lost : Option Nat) : Dev :=
  if d.rd PLANE.STATUS.STATE n = 3 then d
  else
    let resent := d.sad.pkts.foldl (fun x k => x + (k.cells.filter fun c => c.plane == n && !c.acked).length) 0
      + (if lost.isSome then 1 else 0)
    let d := ((d.wr PLANE.STATUS.STATE n 3).setOn PLANE.STATUS.FAULT n true).wr PLANE.STATUS.FAULT_CAUSE n cause
    let d := d.wr PLANE.STATUS.RESENT n (min resent 0xFFFF)
    let d := (d.event 0x101 n {} resent).cairnPush 0x04 n 1 cause resent
    let d : Dev := { d with bist := { d.bist with last := SMap.put 0 d.bist.last (256 + n) 0 } }
    let d := d.report { type := 7, kind := 4, index := n, cause := cause, froze := true } []
    match d.planesIn with
    | [] => d.coldReset 5
    | m :: _ =>
      let d := d.forIn' (d.sad.pkts.filter fun k => k.cells.any fun c => c.plane == n && !c.acked) fun k d =>
        if k.dest.group?.isSome && !k.crossed then d.sendAgain k.id
        else d.setPkt { k with cells := k.cells.map fun c => if c.plane = n ∧ !c.acked then { c with plane := m } else c }
      match lost with
      | none => d
      | some i =>
        match d.sad.staged.find? fun x => x.pkt.id == i && x.tx && !x.whole with
        | some x => (d.nullifyAt x).sendAgain i
        | none => d

/-- ISOLATE = 1 (R104, R105). -/
def Dev.planeIsolate (d : Dev) (n : Nat) : Dev :=
  if d.planeIn n ∧ d.planesIn = [n] then
    (d.setOn PLANE.CTL.ISOLATE n false).setOn PLANE.STATUS.ISOLATE_REFUSED n true
  else
    let d := d.setOn PLANE.CTL.ISOLATE n true
    if d.planeIn n then (d.wr PLANE.STATUS.STATE n 1).drainPlanes else d

/-- The last test of a target passed. -/
def Dev.testPassed (d : Dev) (kind i : Nat) : Bool :=
  let r := SMap.get 0 d.bist.last (kind * 256 + i)
  r == 1 || r == 2

/-- ISOLATE = 0 (R107, R435): a faulted plane whose last test did not pass refuses the return. -/
def Dev.planeReturn (d : Dev) (n : Nat) : Dev :=
  if !d.on PLANE.CTL.ISOLATE n then d
  else if d.rd PLANE.STATUS.STATE n = 3 ∧ !d.testPassed 1 n then d.setOn PLANE.STATUS.ISOLATE_REFUSED n true
  else
    ((d.setOn PLANE.CTL.ISOLATE n false).wr PLANE.STATUS.STATE n 0).report { type := 8, kind := 4, index := n } []

def execPlaneIsolate (k : Fin 4) (s : State) := s.lift fun d => if d.coreUp then d.planeIsolate k else d
def execPlaneReturn (k : Fin 4) (s : State) := s.lift fun d => if d.coreUp then d.planeReturn k else d

/-! ### Grants (R102, R108, R110, R111, R119, R128 to R132) -/

/-- The order hold behind a trap (R96). -/
def Dev.heldByTrap (d : Dev) (k : Pkt) : Bool :=
  (d.rd TILE.NOTCH_TRAP_CTL.ORDER (k.port / 8)).testBit (k.port % 8) &&
  d.sad.pkts.any fun q => decide (q.id < k.id) && q.port == k.port && q.cls == k.cls && q.phase == .trapped &&
    !mayPass k.frame q.frame

/-- A packet's next cell may be offered to the planes: admitted, in its turn within its VOQ, held by nothing. -/
def Dev.offered (d : Dev) (k : Pkt) : Bool :=
  k.charged && !k.crossed && k.held.isNone && k.dest != .none && k.dest != .mgmt &&
  (match k.phase with
    | .queued => true
    | .tail => !(d.sad.pkts.any fun q => q.inScree && q.sameVoq k)
    | _ => false) &&
  (if k.cells.isEmpty then
    (d.before k).all (fun q => mayPass k.frame q.frame && q.cells.isEmpty) && !d.heldByMulticast k && !d.heldByTrap k &&
      !(d.sad.pkts.any fun q => q.id != k.id && q.sameVoq k && !q.cells.isEmpty && !q.crossed)
  else true)

def Dev.strict (d : Dev) (p c : Nat) : Bool := (d.rd PORT.EGR_CTL.STRICT p).testBit c
/-- Weight of a class at a port. -/
def Dev.classWt (d : Dev) (p c : Nat) : Nat :=
  match c with
  | 0 => d.rd PORT.EGR_WT_LO.WT0 p
  | 1 => d.rd PORT.EGR_WT_LO.WT1 p
  | 2 => d.rd PORT.EGR_WT_LO.WT2 p
  | 3 => d.rd PORT.EGR_WT_LO.WT3 p
  | 4 => d.rd PORT.EGR_WT_HI.WT4 p
  | 5 => d.rd PORT.EGR_WT_HI.WT5 p
  | 6 => d.rd PORT.EGR_WT_HI.WT6 p
  | _ => d.rd PORT.EGR_WT_HI.WT7 p

/-- The schedulers allow the packet among what waits for its egress port (R110, R111, R130, R133); which of several classes or
VOQs that share by weight comes first is left open here. -/
def Dev.scheduled (d : Dev) (k : Pkt) : Bool :=
  match k.dest with
  | .port p =>
    let others := d.sad.pkts.filter fun q => q.id != k.id && q.dest == .port p && d.offered q
    let byClass := if d.strict p k.cls then !(others.any fun q => d.strict p q.cls && decide (k.cls < q.cls))
      else !(others.any fun q => d.strict p q.cls) &&
        (d.classWt p k.cls != 0 || !(others.any fun q => q.cls != k.cls))
    let byTenant := d.rd SADDLE.TEN_WT.WEIGHT k.tenant != 0 ||
      !(others.any fun q => q.cls == k.cls && q.port != k.port && d.rd SADDLE.TEN_WT.WEIGHT q.tenant != 0)
    let reserved := d.sad.pkts.any fun q => q.reserved && d.offered q && match q.dest with
      | .group g => (d.members q g).testBit p
      | _ => false
    byClass && byTenant && !reserved
  | _ => true

/-- Cells of a packet in cut-through come before every other cell of its tile (R133). -/
def Dev.cutFirst (d : Dev) (k : Pkt) : Bool :=
  k.cut || !(d.sad.pkts.any fun q => q.cut && q.port / 8 == k.port / 8 && !q.cells.isEmpty && !q.crossed)

/-- The plane may carry the packet's next cell. -/
def Dev.planeFor (d : Dev) (k : Pkt) (n : Nat) : Bool :=
  match k.dest with
  | .group _ =>
    match k.cells with
    | [] => d.mcPlane (k.port / 8) == some n
    | c :: _ => c.plane == n && decide (d.rd PLANE.STATUS.STATE n ≤ 1)
  | _ => d.planeIn n

/-- Where a unicast packet's sequence numbers are counted: (ingress tile, egress port, class); destinations that are no port come
behind the ports. -/
def seqKey (k : Pkt) : Nat :=
  let dst := match k.dest with
    | .port p => p
    | .pool i => 256 + i
    | .traverse _ => 320
    | _ => 321
  (k.port / 8 * 1024 + dst) * 8 + k.cls

/-- The multicast advisory, at most once per group in 1 ms (R129). -/
def Dev.mcAdvise (d : Dev) (k : Pkt) (g : Nat) : Dev :=
  let last := SMap.get 0 d.ctn.mcAdvised g
  if last ≠ 0 ∧ d.timeBase - (last - 1) < 250000 then d
  else
    let d : Dev := { d with ctn := { d.ctn with mcAdvised := SMap.put 0 d.ctn.mcAdvised g (d.timeBase + 1) } }
    d.report { type := 17, kind := 0, index := k.port, addr := g, port := k.port, tenant := k.tenant } (d.domainsAt k.port)

/-- A group's DROP count rises, saturating. -/
def Dev.groupDrop (d : Dev) (g n : Nat) : Dev :=
  let x := d.group g
  d.setGroup g { x with drop := min (x.drop + n) 0xFFFFFFFF }

/-- Members of a group with no member bit cleared by NO_REFLECT. -/
def Group.mask (x : Group) (ingress : Nat) : Nat :=
  if x.noReflect then x.map - (if x.map.testBit ingress then 2 ^ ingress else 0) else x.map

/-- A member takes no copy: frozen, link down, not configured (R129). -/
def Dev.unreachable (d : Dev) (p : Nat) : Bool := !d.configured p || d.frozen p || !d.linkUp p

/-- The plane reads the group with the first cell of a multicast packet (R128, R129). None: the group is not valid. -/
def Dev.readGroup (d : Dev) (k : Pkt) (g plane : Nat) : Option Nat × Dev :=
  let x := d.group g
  if x.valid then
    let m := x.mask k.port
    let gone := (List.range 128).filter fun p => m.testBit p && d.unreachable p
    let d := if gone.isEmpty then d
      else ((d.groupDrop g gone.length).event 0x102 plane {} gone.length).mcAdvise k g
    (some (gone.foldl (fun m p => m - 2 ^ p) m), d)
  else (none, (d.groupDrop g 1).mcAdvise k g)

/-- The copy for one member: with its segment header on a Theox port, discarded when no hop is left (R247) or when it is too long for the
port (R290). -/
def Dev.copyTo (d : Dev) (k : Pkt) (g p : Nat) : Dev :=
  let f := k.frame
  let a := k.act.getD ⟨1, 0, 0, 0, 0⟩
  if d.theox p && f.fabric && segHops f == 0 then d.bump FABRIC.DROP.HOPS 0
  else if d.mpsAt p < f.data.length then
    d.report { type := 16, kind := 0, index := k.port, port := k.port, addr := f.h5.toNat, rid := frameRid f, tenant := k.tenant,
               dev := d.rd FABRIC.ID.DEV } (d.domainOfPort k.port).toList
  else match d.outFrame k p { a with o1 := 0 } none with
    | none => { d with host := { d.host with idDrop := d.host.idDrop + 1 } }
    | some out =>
      let hdr := if d.theox p then
          some (segHeader 0 0 (d.srcDev k) k.srcPort k.cls k.tenant
            (if f.fabric then segHops f - 1 else d.hopsInit) g (d.flowOf k a 0 0 k.cls) none true (d.hostSide k.port f))
        else none
      d.setStaged (d.sad.staged ++ [⟨{ k with fwd := some out, segHdr := hdr }, p, k.cellCount, false⟩])

/-- The last cell of a multicast packet has crossed: every reachable member gets its copy. -/
def Dev.deliverCopies (d : Dev) (k : Pkt) (g mask plane : Nat) : Dev :=
  d.each 128 fun p d =>
    if mask.testBit p then
      if d.unreachable p then ((d.groupDrop g 1).event 0x102 plane).mcAdvise k g else d.copyTo k g p
    else d

/-- What a pool access does to the directory (R153): by FTYPE, and for CXL.mem by opcode and MetaValue of the standard (PRESUMED:
MetaValue 0 is I, 2 A, 3 S; opcode 10 is MemClnEvct). -/
def tarnOpOf (f : Frame) : TarnOp :=
  let meta_ := bits f.h1.toNat 25 2
  match f.ftype with
  | 0 => .read
  | 1 => .write
  | 2 => .atomic
  | 6 => if bits f.h1.toNat 16 4 = 10 then .clean else if meta_ = 2 then .readA else if meta_ = 3 then .readS else .read
  | 7 => if meta_ = 2 then .rwdA else if meta_ = 3 then .rwdS else .rwdI
  | _ => .read

/-- Host ID of a pool access (R143). -/
def Dev.hostIdOf (d : Dev) (k : Pkt) : Option Nat :=
  let here := !k.frame.fabric || segSrcDev k.frame == d.rd FABRIC.ID.DEV
  if here then
    let p := if k.frame.fabric then segSrcPort k.frame else k.port
    if d.on TARN.PORT_HOST.VALID p then some (d.rd TARN.PORT_HOST.HOST_ID p) else none
  else
    ((List.range 256).find? fun i => d.on TARN.REMOTE_HOST.VALID i && d.rd TARN.REMOTE_HOST.DEV i == segSrcDev k.frame
      && d.rd TARN.REMOTE_HOST.PORT i == segSrcPort k.frame).map fun i => d.rd TARN.REMOTE_HOST.HOST_ID i

/-- A packet has come whole to its pool port. -/
def Dev.toPool (d : Dev) (k : Pkt) : Dev :=
  let f := k.fwd.getD k.frame
  let a := k.act.getD ⟨2, 0, 0, 0, 0⟩
  let desc := a.o0.toNat % 4096
  let len := max 1 (if f.ftype = 6 ∨ f.ftype = 7 then 64 else f.h6.toNat)
  let r : TarnReq := { pkt := k, op := tarnOpOf f, desc := desc, key := a.o3.toNat % 16, host := d.hostIdOf k, addr := f.h5.toNat,
                       len := len, pool := (d.desc desc).poolOf f.h5.toNat, phase := .arrived }
  { d with tarn := { d.tarn with reqs := d.tarn.reqs ++ [r] } }

/-- A cell crosses on a plane; with its last cell the packet has come to its destination. -/
def Dev.crossCell (d : Dev) (k : Pkt) (plane : Nat) : Dev :=
  let seq := SMap.get 0 d.sad.seq (seqKey k)
  let uni := k.dest.group?.isNone
  let k := { k with cells := k.cells ++ [⟨plane, if uni then seq % 4096 else 0, false⟩] }
  let d := (d.setPkt k).event 0x100 plane
  let d : Dev := if uni then { d with sad := { d.sad with seq := SMap.put 0 d.sad.seq (seqKey k) ((seq + 1) % 4096) } } else d
  match k.dest with
  | .port p =>
    match d.staged? p k.id with
    | some x => d.setStaged (d.sad.staged.map fun y =>
        if y.port = p ∧ y.pkt.id = k.id then { x with pkt := k, have_ := x.have_ + 1 } else y)
    | none => d.setStaged (d.sad.staged ++ [⟨k, p, 1, false⟩])
  | .pool _ => if k.crossed then d.toPool k else d
  | .traverse q => if k.crossed then d.queuePage k q else d
  | .group g => match k.mcMap with
    | some m => if k.crossed then d.deliverCopies k g m.1 plane else d
    | none => d
  | _ => d

/-- The grant of a packet's next cell on a plane; `fault` says that the plane faults with it: 1 cell CRC, 2 scheduler parity, 3 group
table (R106). -/
def Dev.grantCell (d : Dev) (k : Pkt) (plane : Nat) (fault : Option Nat) : Dev :=
  match fault with
  | some c => d.planeFault plane c (if c = 1 then some k.id else none)
  | none =>
    match k.dest, k.cells with
    | .group g, [] =>
      match d.readGroup k g plane with
      | (some m, d) => d.crossCell { k with mcMap := some (m, false) } plane
      | (none, d) => d.removePkt k
    | _, _ => d.crossCell k plane

def execCellGrant (k : Nat) (plane : Fin 4) (fault : Option (Fin 4)) (s : State) :=
  s.lift fun d =>
    match d.pkt? k with
    | none => d
    | some p =>
      if d.coreUp && d.offered p && d.planeFor p plane && d.scheduled p && d.cutFirst p then
        d.grantCell p plane (fault.map fun c => min 3 (c.val + 1))
      else d

/-- After 256 cc each member egress port reserves its next free slot for the cell (R130). -/
def execMulticastReserve (k : Nat) (s : State) :=
  s.lift fun d =>
    match d.pkt? k with
    | some p => if d.coreUp && p.dest.group?.isSome && d.offered p then d.setPkt { p with reserved := true } else d
    | none => d

/-- The egress tile acknowledges cell `i`: its blocks are freed (R103). -/
def execCellAck (k i : Nat) (s : State) :=
  s.lift fun d =>
    match d.pkt? k with
    | none => d
    | some p =>
      match p.cells[i]? with
      | none => d
      | some c =>
        if d.coreUp && !c.acked then
          let d := d.giveBlocks p (cellBlocks (frameBlocks p.frame) i)
          let p := { p with cells := p.cells.set i { c with acked := true } }
          let d := if p.crossed && p.cells.all (fun c => c.acked) then d.dropPkt k else d.setPkt p
          d.drainPlanes
        else d

/-- No acknowledgement within 256 cc (R103): the plane faults with cause 4; `lost` says that the cell did not come. -/
def execAckTimeout (k i : Nat) (lost : Bool) (s : State) :=
  s.lift fun d =>
    match d.pkt? k with
    | none => d
    | some p =>
      match p.cells[i]? with
      | none => d
      | some c => if d.coreUp && !c.acked then d.planeFault c.plane 4 (if lost then some k else none) else d

/-! ### Egress (R109, R133 to R135) -/

/-- Tenths of GT/s of a rate code (R284 MAXRATE). -/
def rateOf : Nat → Nat
  | 0 => 25
  | 1 => 50
  | 2 => 80
  | 3 => 160
  | 4 => 320
  | 5 => 640
  | _ => 1280

/-- A port's rate in B/cc, in units of 1 / (12 · 10 · 33,280): lanes × rate / 12, less the flit or coding overhead (R70, R133). -/
def Dev.portRate (d : Dev) (p : Nat) : Nat :=
  if d.theox p then
    16 / 2 ^ d.rd PORT.THX_STATUS.WIDTH p * (if d.on PORT.THX_STATUS.RATE p then 1280 else 640) * 29120
  else
    let lanes := 2 ^ d.rd PORT.LINK_STATUS.L0P_WIDTH p
    let r := d.rd PORT.LINK_STATUS.RATE p
    let eff := if d.on PORT.LINK_STATUS.FLIT p then 30680 else if r ≤ 1 then 26624 else 32768
    lanes * rateOf r * eff

/-- Cells an egress must hold before it begins (R133). -/
def Dev.cellsBefore (d : Dev) (x : Staged) : Nat :=
  let n := x.pkt.cellCount
  if x.pkt.dest.group?.isSome then n
  else
    let planes := 32 * d.planesIn.length * 12 * 10 * 33280
    let sRate := if x.pkt.cut then min planes (d.portRate x.pkt.port) else planes
    let dRate := d.portRate x.port
    if n ≤ 1 ∨ dRate ≤ sRate then 1
    else min n ((frameLen x.pkt.frame * (dRate - sRate) + dRate * 256 - 1) / (dRate * 256))

/-- Earlier packets in staging that this one may not pass (R109). -/
def Dev.stagedTurn (d : Dev) (x : Staged) : Bool :=
  ((d.sad.staged.filter fun y => y.port == x.port).takeWhile fun y => y.pkt.id != x.pkt.id).all fun y =>
    y.tx || mayPass x.pkt.frame y.pkt.frame

/-- Flits or TLPs flow on a port's link: DL_ACTIVE, L0, or T.ACTIVE. -/
def Dev.linkFlows (d : Dev) (p : Nat) : Bool :=
  if d.on PORT.THX_CTL.THEOX p then d.rd PORT.THX_STATUS.STATE p == 5
  else d.on PORT.LINK_STATUS.DL_ACTIVE p && d.rd PORT.LINK_STATUS.STATE p == 4

/-- The egress port begins to send a packet of its staging. -/
def execEgressTransmitStart (p : Fin 128) (k : Nat) (s : State) :=
  s.lift fun d =>
    let d := if d.coreUp then d.endTransmissions (some p) else d
    match d.staged? p k with
    | none => d
    | some x =>
      let f := x.pkt.fwd.getD x.pkt.frame
      if d.coreUp && !x.tx && d.linkFlows p && !d.frozen p && decide (d.cellsBefore x ≤ x.have_) && d.stagedTurn x &&
          d.creditFor p x.pkt.cls f && !(d.sad.staged.any fun y => y.port == p.val && y.tx) then
        let d := (d.takeCredit p x.pkt.cls f).emit (.transmit p k)
        let d := match x.pkt.segHdr with
          | some h => d.emit (.segment p h)
          | none => d
        let d := if d.theox p then d.thxLaunch p f x.pkt.segHdr else d.tlpLaunch p
        d.setStaged (d.sad.staged.map fun y => if y.port = p.val ∧ y.pkt.id = k then { y with tx := true } else y)
      else d

/-- A packet in transmission is nullified (R134, R135): sent again whole, or lost with its tile's freeze on a block error. -/
def execNullify (p : Fin 128) (k : Nat) (cause : NullCause) (s : State) :=
  s.lift fun d =>
    match d.staged? p k with
    | none => d
    | some x =>
      if d.coreUp && x.tx && !x.whole then
        let d := d.nullifyAt x
        match cause with
        | .blockError =>
          let d := match d.pkt? k with | some q => d.removePkt q | none => d
          d.tileFreeze (x.pkt.port / 8) 2
        | _ => d.sendAgain k
      else d

/-! ### Group commands (R126, R127) -/

/-- MAP, flags and DROP of an entry into the staging registers. -/
def Dev.groupShow (d : Dev) (x : Group) : Dev :=
  let d := d.each 4 fun i d => d.wr SADDLE.MCG_MAP.MAP i (x.map / 2 ^ (32 * i))
  ((d.setOn SADDLE.MCG_ATTR.VALID 0 x.valid).setOn SADDLE.MCG_ATTR.NO_REFLECT 0 x.noReflect).wr SADDLE.MCG_DROP.DROP 0 x.drop

/-- MAP as staged. -/
def Dev.stagedMap (d : Dev) : Nat := (List.range 4).foldl (fun v i => v + d.rd SADDLE.MCG_MAP.MAP i * 2 ^ (32 * i)) 0

/-- A group command's effect and status (R126): a read of an entry with an uncorrectable error, found by `ue`, is POISONED. -/
def Dev.groupRun (d : Dev) (op g : Nat) (ue : Bool) : Nat × Dev :=
  let x := d.group g
  match op with
  | 0 => if x.poison || ue then (2, d.setGroup g { x with poison := true }) else (0, d.groupShow x)
  | 1 => (0, d.setGroup g { map := d.stagedMap, valid := d.on SADDLE.MCG_ATTR.VALID, noReflect := d.on SADDLE.MCG_ATTR.NO_REFLECT,
                            drop := x.drop, poison := false })
  | 2 => (0, d.setGroup g { x with drop := 0 })
  | _ => (3, d)

/-- A write of MCG_CMD (R126, R127): while a command runs a second GO is ignored and changes the status it ends with. -/
def Dev.groupCmd (d : Dev) (op g : Nat) (go ue : Bool) : Dev :=
  let d := (d.wr SADDLE.MCG_CMD.GROUP 0 g).wr SADDLE.MCG_CMD.OP 0 op
  if go then
    match d.sad.mcgCmd with
    | some c => { d with sad := { d.sad with mcgCmd := some { c with second := true } } }
    | none =>
      let x := d.groupRun op g ue
      ({ x.2 with sad := { x.2.sad with mcgCmd := some ⟨x.1, false⟩ } }).setOn SADDLE.MCG_CMD.BUSY 0 true
  else d

def execMcgRead (g : Fin 4096) (ue : Bool) (s : State) := s.lift fun d => if d.coreUp then d.groupCmd 0 g true ue else d
def execMcgWrite (g : Fin 4096) (s : State) := s.lift fun d => if d.coreUp then d.groupCmd 1 g true false else d
def execMcgClearDrop (g : Fin 4096) (s : State) := s.lift fun d => if d.coreUp then d.groupCmd 2 g true false else d

/-- The command ends within 64 cc with its status, or BUSY_REFUSED if a second came. -/
def execMcgCmdEnd (s : State) :=
  s.lift fun d =>
    match d.sad.mcgCmd with
    | none => d
    | some c =>
      (({ d with sad := { d.sad with mcgCmd := none } }.setOn SADDLE.MCG_CMD.BUSY 0 false).wr SADDLE.MCG_CMD.STATUS 0
        (if c.second then 1 else c.status))

/-! ### Contexts granted to what waits (R200, R201) -/

/-- A waiting packet's request can be granted; answers its route and whether it takes a tag. -/
def Dev.grantable (d : Dev) (k : Pkt) : Option (Act × Route × Bool) :=
  match k.act, k.phase with
  | some a, .ctxWait =>
    let r := d.routeOf k a
    match ctxNeed k a r with
    | some tagged => if (d.grantFor k r tagged).isSome then some (a, r, tagged) else none
    | none => none
  | _, _ => none

/-- The oldest waiter of a tile among those that can be granted is served (R201). -/
def Dev.grantPacket (d : Dev) (k : Pkt) : Dev :=
  let older := d.sad.pkts.any fun q => decide (q.id < k.id) && q.port / 8 == k.port / 8 && (d.grantable q).isSome
  match d.grantable k with
  | none => d
  | some (a, r, tagged) =>
    if older then d
    else match d.grantFor k r tagged with
      | some (i, t, d) =>
        let d := d.wr CTX.PORT_USE.WAITING k.port (d.rd CTX.PORT_USE.WAITING k.port - 1)
        d.sendOn k a r (some i) t
      | none => d

/-- An engine read that waits for a narrow tag takes it (R213). -/
def Dev.grantRead (d : Dev) (q entry : Nat) : Dev :=
  match (d.queue q).xfer with
  | none => d
  | some x =>
    match x.reads.find? fun r => r.entry == entry && d.readWaits r with
    | none => d
    | some r =>
      let y := d.tryNarrow q r
      let d := if y.1.ctx.isSome then y.2.sendRead q x y.1 else y.2
      d.setQueue q { d.queue q with xfer := some { x with reads := x.reads.map fun z => if z.entry = entry then y.1 else z } }

/-- A queue that waits with STATE 4 takes its context (R209). -/
def Dev.grantQueue (d : Dev) (q : Nat) : Dev :=
  if (d.queue q).st = 4 ∧ (d.grantFrom (d.queueTenant q) ((d.vfPort (q / 8)).getD 0)).isSome then
    let p := (d.vfPort (q / 8)).getD 0
    (d.wr CTX.PORT_USE.WAITING p (d.rd CTX.PORT_USE.WAITING p - 1)).queueGrant q
  else d

def execContextGrant (w : Waiter) (s : State) :=
  s.lift fun d =>
    if d.coreUp then
      match w with
      | .packet k => (match d.pkt? k with | some p => d.grantPacket p | none => d)
      | .queue q => d.grantQueue q
      | .read q e => d.grantRead q e
    else d

end Sys2Proof.Machine
end

