-- ==== Sys2Proof/Machine/Fabric.lean ====
section
/-! DEFINITION. The commands of fabric mode (08_fabric_mode_col_ring): identity and routes, Theox training and flits, sparing, fabric
time, the Col links. -/

namespace Sys2Proof.Machine

open Sys2Proof

/-! ### Identity and routes (R221, R244, R245) -/

/-- Some Theox port is in T.ACTIVE or T.RECOVERY. -/
def Dev.anyThx (d : Dev) : Bool := (List.range 128).any fun p => d.on PORT.THX_CTL.THEOX p && d.linkUp p

/-- A write of FABRIC.ID: a change of DEV or FABRIC is refused while a Theox port is active; HOPS_INIT is taken (DEDUCED). -/
def Dev.fabricIdWrite (d : Dev) (summit : Bool) (v : Nat) : Dev :=
  let dev := d.rd FABRIC.ID.DEV
  let fab := d.rd FABRIC.ID.FABRIC
  let e := d.writeFields summit .FABRIC_ID 0 v
  if (e.rd FABRIC.ID.DEV ≠ dev ∨ e.rd FABRIC.ID.FABRIC ≠ fab) ∧ d.anyThx then
    ((e.wr FABRIC.ID.DEV 0 dev).wr FABRIC.ID.FABRIC 0 fab).setOn FABRIC.ID.REFUSED 0 true
  else e

/-- A route write: with DRAIN, or during a hold, a hold starts or starts again. -/
def Dev.routeWrite (d : Dev) (summit : Bool) (dev v : Nat) : Dev :=
  let d := d.writeFields summit .FABRIC_ROUTE dev v
  if d.on FABRIC.ROUTE.DRAIN dev ∨ SMap.get 0 d.fab.holds dev ≠ 0 then
    ({ d with fab := { d.fab with holds := SMap.put 0 d.fab.holds dev (d.timeBase + 1) } } : Dev).setOn
      FABRIC.ROUTE_CTL.DRAINING 0 true
  else d

/-- The packet leaves, or is to leave, in a segment toward a device. -/
def Pkt.towardDev (k : Pkt) (dev : Nat) : Bool :=
  match k.segHdr with
  | some h => !h.testBit 3 && bits h 4 8 == dev
  | none => false

/-- Segments toward a device resolved before the hold are not all acknowledged. -/
def Dev.oldSegments (d : Dev) (dev : Nat) : Bool :=
  d.sad.pkts.any (fun k => k.towardDev dev && k.held.isNone && !k.crossed) ||
  d.sad.staged.any (fun x => x.pkt.towardDev dev) ||
  d.fab.thx.any fun x => x.2.flight.any fun f => f.dev == dev

/-- A hold ends (R245): both conditions are met; what waited behind it may go. -/
def Dev.routeDrainEnd (d : Dev) (dev : Nat) : Dev :=
  let h := SMap.get 0 d.fab.holds dev
  if h ≠ 0 ∧ max 1 (d.rd FABRIC.ROUTE_CTL.DRAIN_WAIT) * 250 ≤ d.timeBase - (h - 1) ∧ !d.oldSegments dev then
    let d : Dev := { d with
      fab := { d.fab with holds := SMap.put 0 d.fab.holds dev 0 }
      sad := { d.sad with pkts := d.sad.pkts.map fun k => if k.held = some dev then { k with held := none } else k } }
    d.setOn FABRIC.ROUTE_CTL.DRAINING 0 (!d.fab.holds.isEmpty)
  else d

/-! ### Training (R222 to R225) -/

/-- A write of THX_CTL: THEOX, RATE128 and SPARED only while ENABLE = 0; ENABLE starts or ends the training; SPARE_NOW. -/
def Dev.thxCtlWrite (d : Dev) (p v : Nat) : Dev :=
  let was := d.on PORT.THX_CTL.ENABLE p
  let d := if was then d
    else d.forIn' [PORT.THX_CTL.THEOX, PORT.THX_CTL.RATE128, PORT.THX_CTL.SPARED] fun f d => d.wr f p (f.of v)
  let d := d.forIn' [PORT.THX_CTL.ENABLE, PORT.THX_CTL.SPARE_THR, PORT.THX_CTL.SPARE_LANE] fun f d => d.wr f p (f.of v)
  let d := if d.configured p then d.guarOpen p else d.guarClose p
  let d := d.when (!was && d.on PORT.THX_CTL.ENABLE p) fun d => d.lanesEnabled p
  let d :=
    if d.theox p then
      if d.on PORT.THX_CTL.ENABLE p then (if d.thxState p = 0 then d.setThxState p 1 else d)
      else if d.thxState p = 5 ∨ d.thxState p = 6 then (d.thxDown p 0).portFreeze p 2
      else d.setThxState p 0
    else d
  if v.testBit 16 then d.spareLane p (d.rd PORT.THX_CTL.SPARE_LANE p) else d

/-- An identity fault (R225). -/
def Dev.idFault (d : Dev) (p : Nat) : Dev := ((d.setThxState p 7).setOn PORT.THX_STATUS.ID_FAULT p true).signalLink

/-- A training block in T.CONFIG: identity, then, when numbering and width are settled, on to T.EQ128 or T.ACTIVE. -/
def Dev.thxConfig (d : Dev) (p : Nat) (b : List Byte) (width : Nat) (done : Bool) : Dev :=
  let caps := fieldAt b 2 1
  let fab := fieldAt b 4 1
  let dev := fieldAt b 5 1
  if fab ≠ d.rd FABRIC.ID.FABRIC ∨ dev = d.rd FABRIC.ID.DEV then d.idFault p
  else
    let d := (d.wr PORT.THX_STATUS.PEER_DEV p dev).wr PORT.THX_STATUS.PEER_PORT p (fieldAt b 6 1 % 128)
    let spared := d.on PORT.THX_CTL.SPARED p && caps.testBit 2 && caps.testBit 3 && width == 3
    let d := d.setThx p { d.thx p with spared := spared, peer128 := caps.testBit 1 }
    if done ∧ width ≠ 0 then
      let d := d.wr PORT.THX_STATUS.WIDTH p width
      if d.on PORT.THX_CTL.RATE128 p ∧ caps.testBit 1 then d.setThxState p 4 else d.thxUp p false spared
    else d

/-- A good training block (R223, R224): `width` as the lanes train (1 x4, 2 x8, 3 x16), `done` when the state's own work ends with it,
`lost` a lane that a recovery finds dead. -/
def Dev.trainingState (d : Dev) (p : Nat) (b : List Byte) (width : Nat) (done : Bool) (lost : Option Nat) : Dev :=
  match d.thxState p with
  | 2 => if done ∧ width ≠ 0 then d.setThxState p 3 else d
  | 3 => d.thxConfig p b width done
  | 4 => if done then d.thxUp p true (d.thx p).spared else d
  | 6 =>
    match lost with
    | some l =>
      if (d.thx p).spared ∧ ¬d.on PORT.THX_STATUS.SPARE_USED p then
        (d.spareUse p l).when done fun d => (d.markTrained p).setThxState p 5
      else d.portFreeze p 7
    | none => d.when done fun d => (d.markTrained p).setThxState p 5
  | _ => d

/-- What a block brings to its lane: an equalisation step while equalisation runs, received polarity and lane order in T.CONFIG (R326,
R342). -/
def Dev.trainingLane (d : Dev) (p : Nat) (b : List Byte) (lane : Nat) (reversed inverted : Bool) : Dev :=
  let n := laneOf p lane
  if 2 ^ d.maxWidth p ≤ lane then d
  else match d.thxState p with
    | 2 | 4 | 6 => if fieldAt b 0 1 = 0x23 then d.eqStep n (fieldAt b 3 1) else d
    | 3 => (d.setOn LANE.ADAPT_STATUS.RX_POL_AUTO n inverted).setOn PORT.PHY_STATUS.REVERSED p reversed
    | _ => d

/-- A good training block on lane `lane` of its port. -/
def Dev.trainingBlock (d : Dev) (p : Nat) (b : List Byte) (lane width : Nat) (reversed inverted done : Bool) (lost : Option Nat) : Dev :=
  (d.trainingLane p b lane reversed inverted).trainingState p b width done lost

/-- A training or recovery state runs out of time. -/
def Dev.thxTimeout (d : Dev) (p : Nat) : Dev :=
  match d.thxState p with
  | 2 | 3 => d.setThxState p 1
  | 4 => d.thxUp p false (d.thx p).spared
  | 6 => (d.thxDown p 1).portFreeze p 6
  | _ => d

/-! ### Flits (R226 to R234) -/

/-- What a walk over a payload area finds: each frame that ends in it, whether its frame word keeps the rule, and what is left over of
the last one. -/
structure Walk where
  ends : List Bool := []
  rest : Nat := 0
  restBad : Bool := false
  deriving DecidableEq, Repr

/-- Frame words from offset `o` of the payload on (R233). -/
def walkWords (bs : List Byte) : Nat → Nat → Walk → Walk
  | 0, _, w => w
  | n + 1, o, w =>
    if 224 < o + 2 then w
    else
      let x := fieldAt bs o 2
      let kind := x % 8
      let len := x / 8
      if kind = 0 then w
      else
        let bad := decide (4 < kind) || decide (len = 0)
        let e := o + 2 + len
        if e ≤ 224 then walkWords bs n ((e + 1) / 2 * 2) { w with ends := w.ends ++ [!bad] }
        else { w with rest := e - 224, restBad := bad }

/-- The payload area of a flit that begins with `rest` bytes of a continued frame. -/
def walkFlit (bs : List Byte) (rest : Nat) (restBad : Bool) : Walk :=
  if 224 < rest then { rest := rest - 224, restBad := restBad }
  else walkWords bs 112 ((rest + 1) / 2 * 2) { ends := if rest = 0 then [] else [!restBad] }

/-- The frames of a segment reach extraction in order; those that break the rule, or that extraction cannot read, are discarded and
counted. -/
def Dev.deliver (d : Dev) (p : Nat) (h14 h15 : W64) : List Bool → List Frame → Dev
  | [], _ => d
  | false :: es, fs =>
    Dev.deliver { d with fab := { d.fab with badFrames := d.fab.badFrames + 1 } } p h14 h15 es fs
  | true :: es, [] =>
    Dev.deliver { d with fab := { d.fab with badFrames := d.fab.badFrames + 1 } } p h14 h15 es []
  | true :: es, f :: fs =>
    Dev.deliver (d.frameIn p { f with fabric := true, h14 := h14, h15 := h15 } .good) p h14 h15 es fs

/-- A payload flit, in sequence (R232 to R234). -/
def Dev.payloadFlit (d : Dev) (p : Nat) (x : Flit) : Dev :=
  let h14 := BitVec.ofNat 64 (fieldAt x.bytes 224 8)
  let h15 := BitVec.ofNat 64 (fieldAt x.bytes 232 4)
  let valid := h14.getLsbD 0
  let cont := h14.getLsbD 1
  let stomp := h14.getLsbD 2
  let t := d.thx p
  let d : Dev := if 0 < t.rest ∧ !cont then
      if stomp then { d with fab := { d.fab with stomped := d.fab.stomped + 1 } }
      else { d with fab := { d.fab with badFrames := d.fab.badFrames + 1 } }
    else d
  if !valid then d.setThx p { t with rest := 0, restBad := false }
  else if cont && t.rest == 0 then
    ({ d with fab := { d.fab with badFrames := d.fab.badFrames + 1 } } : Dev)
  else
    let w := walkFlit x.bytes (if cont then t.rest else 0) t.restBad
    (d.setThx p { t with rest := w.rest, restBad := w.restBad }).deliver p h14 h15 w.ends x.frames

/-- Credits come back from the partner (R229, R231). -/
def Dev.thxCredits (d : Dev) (p cls type n : Nat) : Dev :=
  let k := if type = 3 then thxShared p else p * 32 + cls * 3 + type
  { d with sad := { d.sad with thxCredit := SMap.upd 0 d.sad.thxCredit k (· + n) } }

/-- A flit (R229, R230): link control of any good flit is taken; payload and control flits are taken in sequence. -/
def Dev.flitIn (d : Dev) (p : Nat) (x : Flit) : Dev :=
  let d := d.spareCount p (x.corrected.map fun l => l.val)
  if !x.good then d.thxRefuse p
  else
    let lc := fieldAt x.bytes 236 6
    let ltype := bits lc 25 3
    let ack := bits lc 12 12
    let d := d.spareSwitch p
    let d := d.setThx p ((d.thx p).acked ack)
    let d := d.thxCredits p (bits lc 28 3) (bits lc 31 2) (bits lc 33 11)
    let d := d.when (lc.testBit 24) fun d => d.thxNaked p ack
    if ltype = 0 ∨ ltype = 3 then
      if bits lc 0 12 = (d.thx p).rx then
        let d := d.setThx p { d.thx p with rx := ((d.thx p).rx + 1) % 4096 }
        if ltype = 0 then d.payloadFlit p x else d
      else d.thxRefuse p
    else d

/-! ### The Col links (R256, R262) -/

/-- A write of COL.CTL.JOIN: the bypass opens and both ports train, or it closes. -/
def Dev.colJoin (d : Dev) (on : Bool) : Dev :=
  let was := d.on COL.CTL.JOIN
  let d := d.setOn COL.CTL.JOIN 0 on
  if on then
    if was then d
    else
      let d := (d.emit (.pin .colBypass 0 false)).emit (.pin .colBypass 1 false)
      (d.wr COL.LINK_STATUS.STATE 0 1).wr COL.LINK_STATUS.STATE 1 1
  else if was then
    let up := d.timeFrom 0 0 || d.timeFrom 1 0
    (d.closeBypass.when up fun d => d.timeLoss).signalLink
  else d

/-! ### The commands -/

def execFabricIdWrite (m : Master) (v : W32) (s : State) :=
  s.lift fun d => if d.coreUp then d.fabricIdWrite (m == .summit) v.toNat else d

def execFabricRouteWrite (m : Master) (dev : Fin 256) (v : W32) (s : State) :=
  s.lift fun d => if d.coreUp then d.routeWrite (m == .summit) dev v.toNat else d

def execRouteDrainEnd (dev : Fin 256) (s : State) := s.lift fun d => if d.coreUp then d.routeDrainEnd dev else d

def execThxCtlWrite (_m : Master) (p : Fin 128) (v : W32) (s : State) :=
  s.lift fun d => if d.coreUp then d.thxCtlWrite p v.toNat else d

/-- Every 12 ms in T.DETECT: at least 4 lanes see a termination. -/
def execTheoxDetect (p : Fin 128) (lanes : Fin 17) (s : State) :=
  s.lift fun d => if d.coreUp && d.theox p && d.thxState p == 1 && decide (4 ≤ lanes.val) then d.setThxState p 2 else d

/-- A block whose CRC fails is ignored (R224). -/
def execTrainingBlock (p : Fin 128) (block : List Byte) (crcOk : Bool) (lane width : Fin 16)
    (reversed inverted done : Bool) (lost : Option (Fin 16)) (s : State) :=
  s.lift fun d =>
    if d.coreUp && d.theox p && crcOk then
      d.trainingBlock p block lane (width.val % 4) reversed inverted done (lost.map fun l => l.val)
    else d

def execTheoxTrainingTimeout (p : Fin 128) (s : State) :=
  s.lift fun d => if d.coreUp && d.theox p then d.thxTimeout p else d

def execTheoxFlit (p : Fin 128) (x : Flit) (s : State) :=
  s.lift fun d => if d.coreUp && d.theox p && d.thxState p == 5 then d.flitIn p x else d

def execSpareNow (p : Fin 128) (lane : Fin 16) (s : State) :=
  s.lift fun d => if d.coreUp && d.theox p then (d.wr PORT.THX_CTL.SPARE_LANE p lane).spareLane p lane else d

/-- The partner asks: this transmitter drives the lane's stream on lane 15 too. -/
def execSpareReq (p : Fin 128) (lane : Fin 16) (s : State) :=
  s.lift fun d =>
    if d.coreUp && d.theox p && d.thxState p == 5 && decide (lane.val < 15) then
      d.setThx p { d.thx p with driving := lane + 1 } else d

/-- The partner has switched: this transmitter stops driving the lane. -/
def execSpareAck (p : Fin 128) (lane : Fin 16) (s : State) :=
  s.lift fun d =>
    if d.coreUp && d.theox p && (d.thx p).driving == lane.val + 1 then
      (d.setThx p { d.thx p with driving := 0 }).spareUse p lane
    else d

def execTimeSync (src : Fin 3) (p : Fin 128) (roundTrip : Fin 131072) (ahead : Int) (s : State) :=
  s.lift fun d =>
    let up := if src.val < 2 then d.rd COL.LINK_STATUS.STATE src == 2 else d.theox p && d.thxState p == 5
    if d.coreUp && up then d.timeSync src p roundTrip ahead else d

/-- TIME_CTL.STEP, the source's time being `ahead` ps ahead of the count. -/
def execStep (_m : Master) (ahead : Int) (s : State) :=
  s.lift fun d => if d.coreUp && d.timeSlave then d.timeSet ahead else d

def execTimeSourceLoss (s : State) := s.lift fun d => if d.coreUp then d.timeLoss else d

def execJoin (_m : Master) (on : Bool) (s : State) := s.lift fun d => if d.coreUp then d.colJoin on else d

/-- A Col port loses signal (R262): STATE 3, a link event, holdover if it was the time source. -/
def execColLossOfSignal (k : Fin 2) (s : State) :=
  s.lift fun d =>
    if d.coreUp && d.on COL.CTL.JOIN && d.rd COL.LINK_STATUS.STATE k == 2 then
      let d := d.wr COL.LINK_STATUS.STATE k 3
      (d.when (d.timeFrom k 0) fun d => d.timeLoss).signalLink
    else d

/-- The link has trained: its port is up (R256). -/
def execColTrainingDone (k : Fin 2) (s : State) :=
  s.lift fun d =>
    if d.coreUp && d.on COL.CTL.JOIN && (d.rd COL.LINK_STATUS.STATE k == 1 || d.rd COL.LINK_STATUS.STATE k == 3) then
      (d.wr COL.LINK_STATUS.STATE k 2).signalLink
    else d

end Sys2Proof.Machine
end

