-- ==== Sys2Proof/Machine/Contain.lean ====
section
/-! DEFINITION. Containment commands (09_containment_timeouts): software freezes, context overrun, completion timeouts and quarantine,
release (R263 to R278). -/

namespace Sys2Proof.Machine

open Sys2Proof

/-! ### Release (R277, R278) -/

/-- The slot that a port names (R284 SLOT_V). -/
def Dev.slotOf (d : Dev) (p : Nat) : Option Nat := if d.on PORT.CFG.SLOT_V p then some (d.rd PORT.CFG.SLOT p) else none

/-- A trigger of the port is active: its tile is frozen or in reset, its slot has no card or is latched off, its PERST_N is asserted, a
power-down runs. -/
def Dev.portTrig (d : Dev) (p : Nat) : Bool :=
  d.on CTN.TILE_STATUS.FROZEN (p / 8) || d.tileRst (p / 8) == 1 || d.tileRst (p / 8) == 2 || d.tileRst (p / 8) == 4 || d.summit.pdRun ||
  (match d.slotOf p with
    | some s => !d.on SBIN.STATUS.LEVEL (64 + s) || d.on SLOT.PWR_STATUS.LATCHED s
    | none => false) ||
  (d.upstream p && match d.domainOfPort p with
    | some h => d.on SBIN.STATUS.LEVEL h
    | none => false)

/-- DPC Trigger Status is cleared wherever DPC is enabled, where the cause asks for it. -/
def Dev.dpcClear (d : Dev) (p : Nat) : Bool :=
  let c := d.rd PORT.CTN_STATUS.CAUSE p
  !(c == 12 || (decide (c ≤ 3) && d.downstream p)) ||
    (d.vdspsOf p).all fun i => !((d.vdsp i).dpcEnable && (d.vdsp i).dpcTrig)

/-- The preconditions of a port's release hold: what READY shows. -/
def Dev.portReady (d : Dev) (p : Nat) : Bool :=
  SMap.get false d.ctn.trained p && d.linkUp p && !d.portTrig p && d.dpcClear p

/-- A port is released; an upstream port first announces the wires that are asserted (R305). -/
def Dev.portRelease (d : Dev) (p : Nat) : Dev :=
  let d := (d.setOn PORT.CTN_STATUS.FROZEN p false).setOn PORT.CTN_STATUS.READY p false
  let d := d.when (d.upstream p) fun d => d.each 4 fun w d =>
    d.when (decide (0 < d.intxCount p w)) fun d => d.emit (.message p (0x20 + w) (d.uspRid p))
  d.report { type := 2, kind := 0, index := p, cause := d.rd PORT.CTN_STATUS.CAUSE p, port := p }
    (if d.downstream p then d.domainsAt p else [])

def Dev.tenantRelease (d : Dev) (n : Nat) : Dev :=
  (d.setOn CTN.TEN_STATUS.FROZEN n false).report
    { type := 4, kind := 1, index := n, cause := d.rd CTN.TEN_STATUS.CAUSE n, tenant := n } (d.tenDomain n)

def Dev.tileRelease (d : Dev) (t : Nat) : Dev :=
  ((d.setOn CTN.TILE_STATUS.FROZEN t false).setTileRst t 0).report
    { type := 6, kind := 2, index := t, cause := d.rd CTN.TILE_STATUS.CAUSE t }
    (((List.range 8).flatMap fun s => d.domainsAt (8 * t + s)).eraseDups)

def Dev.pcRelease (d : Dev) (g : Nat) : Dev :=
  (d.setPcFrozen g false).report { type := 10, kind := 3, index := g } d.regionDomains

/-- A release is attempted: STATUS 0 OK, 1 not frozen, 2 preconditions not met, 3 bad index. -/
def Dev.release (d : Dev) (kind index : Nat) : Dev :=
  let tell (d : Dev) (st : Nat) : Dev := d.wr CTN.RELEASE.STATUS 0 st
  match kind with
  | 0 =>
    if 128 ≤ index then tell d 3 else if !d.frozen index then tell d 1
    else if d.portReady index then tell (d.portRelease index) 0 else tell d 2
  | 1 => if !d.tenFrozen index then tell d 1 else tell (d.tenantRelease index) 0
  | 2 =>
    if 16 ≤ index then tell d 3 else if !d.on CTN.TILE_STATUS.FROZEN index then tell d 1
    else if d.tileRst index = 3 ∧ d.testPassed 0 index then tell (d.tileRelease index) 0 else tell d 2
  | _ =>
    if 256 ≤ index then tell d 3 else if !d.pcFrozen index then tell d 1
    else if d.rd TARN.EVAC_STATUS.STATE = 2 ∧ d.rd TARN.EVAC_STATUS.PC = index then tell (d.pcRelease index) 0 else tell d 2

/-- A write of CTN.RELEASE. -/
def Dev.releaseWrite (d : Dev) (v : Nat) : Dev :=
  let d := (d.wr CTN.RELEASE.KIND 0 (CTN.RELEASE.KIND.of v)).wr CTN.RELEASE.INDEX 0 (CTN.RELEASE.INDEX.of v)
  if v.testBit 11 then d.release (d.rd CTN.RELEASE.KIND) (d.rd CTN.RELEASE.INDEX) else d

/-! ### Timeouts and quarantine (R271, R272) -/

/-- The request of a context reaches its timeout: completed, quarantined, reported; with CTO_TRIG its port freezes. A read of an engine
is timed as its entry (TimedReq.read). -/
def Dev.ctxTimeout (d : Dev) (i : Nat) : Dev :=
  match d.ctx? i with
  | none => d
  | some c =>
    if c.quarantined || c.user == .queue || c.user == .engine || decide (128 ≤ c.egress) then d
    else
      let trig := d.on PORT.CTN_CTL.CTO_TRIG c.egress
      let d := d.failCtx i
      let d := d.report { type := 14, kind := 0, index := c.egress, cause := 4, froze := trig && !d.frozen c.egress,
                          rid := c.origRid, tenant := c.tenant, port := c.egress } (d.domainOfReq c.origDev c.origPort)
      d.when trig fun d => d.portFreeze c.egress 4 0 c.origRid c.tenant

/-- An engine read reaches its timeout: the transfer ends with READ_TIMEOUT and the entry is quarantined. -/
def Dev.readTimeout (d : Dev) (e entry : Nat) : Dev :=
  let hit := (d.queueOfEngine e).bind fun q => (d.queue q).xfer.bind fun x =>
    (x.reads.find? fun r => r.entry == entry && r.data.isNone && !d.readWaits r && r.port.isSome).map fun r => (q, x, r)
  match hit with
  | none => d
  | some (q, x, r) =>
    let p := r.port.getD 0
    let n := d.queueTenant q
    let trig := d.on PORT.CTN_CTL.CTO_TRIG p
    let bad := (if r.ofDst then x.dst else x.src) + (if x.flushing then r.off else x.done + r.off)
    let d := match r.ctx with | some i => d.quarantine i | none => d
    let d := d.endXfer q x 4 bad
    let d := d.report { type := 14, kind := 0, index := p, cause := 4, froze := trig && !d.frozen p, addr := bad,
                        rid := (d.vfRid (q / 8)).getD 0, tenant := n, port := p } (d.domainOfVf (q / 8)).toList
    d.when trig fun d => d.portFreeze p 4 bad 0 n

/-- A quarantine ends with a further interval: the context and its tag are free. -/
def Dev.quarantineEnd (d : Dev) (x : TimedReq) : Dev :=
  match x with
  | .ctx i =>
    match d.ctx? i with
    | some c => if c.quarantined then d.releaseCtx i else d
    | none => d
  | .read e entry =>
    match d.trv.late.find? fun l => l.key == e.val * 256 + entry.val with
    | none => d
    | some l =>
      let d : Dev := { d with trv := { d.trv with late := d.trv.late.filter fun y => y.key != l.key } }
      match l.ctx with
      | some i => d.releaseCtx i
      | none => d

/-- A request of a tenant at its cap has waited longer than OVR_MS (R263): the manager is told (R214 type 4), a record is written, and
with CTX_TRIG the tenant freezes. -/
def Dev.ctxOverrun (d : Dev) (k : Pkt) : Dev :=
  let n := k.tenant
  if k.phase = .ctxWait ∧ d.rd CTX.TEN_CAP.CAP n ≤ d.rd CTX.TEN_USE.USED n then
    let d := d.postEvent 4 n 0
    if d.on CTN.TEN_CTL.CTX_TRIG n then d.tenantFreeze n 3 k.frame.h5.toNat (frameRid k.frame)
    else d.report { type := 3, kind := 1, index := n, cause := 3, addr := k.frame.h5.toNat, rid := frameRid k.frame, tenant := n,
                    port := k.port } (d.tenDomain n)
  else d

/-! ### The commands -/

def execPortCtnFreeze (_m : Master) (p : Fin 128) (s : State) := s.lift fun d => if d.coreUp then d.portFreeze p 9 else d
def execTenantFreeze (_m : Master) (n : Fin 512) (s : State) := s.lift fun d => if d.coreUp then d.tenantFreeze n 5 else d
def execContextOverrun (k : Nat) (s : State) :=
  s.lift fun d => match d.pkt? k with | some p => if d.coreUp then d.ctxOverrun p else d | none => d
def execCtnRelease (_m : Master) (kind : Fin 4) (index : Fin 512) (s : State) :=
  s.lift fun d => if d.coreUp then
    ((d.wr CTN.RELEASE.KIND 0 kind).wr CTN.RELEASE.INDEX 0 index).release kind index else d
def execCompletionTimeout (x : TimedReq) (s : State) :=
  s.lift fun d => if d.coreUp then
    (match x with | .ctx i => d.ctxTimeout i | .read e n => d.readTimeout e n) else d
def execQuarantineEnd (x : TimedReq) (s : State) := s.lift fun d => if d.coreUp then d.quarantineEnd x else d

end Sys2Proof.Machine
end

