-- ==== Sys2Proof/Machine/Branch.lean ====
section
/-! DEFINITION. Branches and jumps (R35, R39, R40). -/

namespace Sys2Proof.Machine

open Sys2Proof

/-- JALR: a misaligned target raises an alignment exception and rd is not written (R40). -/
def execJalr (c : Fin 9) (rd rs1 : Fin 32) (imm : BitVec 14) (s : State) :=
  s.lift fun d => d.spurInstr c fun d =>
    let k := d.core c
    let target := k.rdG rs1 + immS imm
    if target.toNat % 4 ≠ 0 then d.takeSync c 3 0 k.pc target
    else d.setCore c { (k.wrG rd (k.pc + 4)) with pc := target }

/-- JAL: the return address goes to g31 (R39). -/
def execJal (c : Fin 9) (off : BitVec 26) (s : State) :=
  s.lift fun d => d.spurInstr c fun d =>
    d.updCore c fun k => { (k.wrG 31 (k.pc + 4)) with pc := k.pc + off.signExtend 64 * 4 }

/-- The instruction index a Notch branch goes to; a branch that does not go forward, or goes past instruction 23, is
refused at commit (R47) and here falls through. -/
def branchIdx (idx : Nat) (off : BitVec 22) : Nat :=
  let t := (idx : Int) + off.toInt
  if (idx : Int) < t ∧ t < 24 then t.toNat else idx + 1

/-- Bcc (R39). -/
def execBcc (e : Engine) (cond : Cond) (off : BitVec 22) (s : State) :=
  s.lift fun d =>
    match e with
    | .spur c =>
      d.spurInstr c fun d => d.updCore c fun k =>
        if condTaken k.flags cond then { k with pc := k.pc + off.signExtend 64 * 4 } else k.advance
    | .notch r =>
      d.notchInstr r fun n d =>
        if condTaken n.flags cond ∧ !n.emitted then ({ n with idx := branchIdx n.idx off }, d) else (n.next, d)

end Sys2Proof.Machine
end

