-- ==== Sys2Proof/Machine/System.lean ====
section
/-! DEFINITION. Barriers, deadlines, CSRs and handlers of a Spur core (R55 to R61, R67, R183, R188). -/

namespace Sys2Proof.Machine

open Sys2Proof

/-! ### Barriers -/

/-- BAR.ST: earlier stores are performed (R55). -/
def execBarSt (c : Fin 9) (s : State) :=
  s.lift fun d => d.spurInstr c fun d => (d.drainAll c).updCore c SpurCore.advance

/-- Drains, then waits for every earlier STIO (R56). -/
def Dev.barrier (d : Dev) (c : Nat) (w : CoreWait) : Dev :=
  d.spurInstr c fun d =>
    let d := d.drainAll c
    if (d.core c).stios.isEmpty then d.updCore c SpurCore.advance else d.updCore c fun k => { k with wait := w }

def execBarDev (c : Fin 9) (s : State) := s.lift fun d => d.barrier c .barDev
def execBarFull (c : Fin 9) (s : State) := s.lift fun d => d.barrier c .barFull

/-- The core waits on a barrier. -/
def SpurCore.onBarrier (k : SpurCore) : Bool := k.wait == .barDev || k.wait == .barFull

/-- A barrier completes when the last earlier STIO is accepted or discarded. -/
def Dev.barrierDone (d : Dev) (c : Nat) : Dev :=
  let k := d.core c
  if k.onBarrier ∧ k.stios = [] then d.setCore c { k.advance with wait := .none } else d

/-- 2 µs after its issue the barrier completes anyway (R56). -/
def execBarLate (c : Fin 9) (s : State) :=
  s.lift fun d =>
    let k := d.core c
    if k.onBarrier then d.setCore c { k.advance with wait := .none, dfBarLate := true } else d

/-- IFLUSH: the store buffer drains; the model holds no fetched instruction to discard (R55). -/
def execIflush (c : Fin 9) (s : State) :=
  s.lift fun d => d.spurInstr c fun d => (d.drainAll c).updCore c SpurCore.advance

/-! ### Deadlines -/

/-- DLSET: n above 7 is a reserved value (R55); a value already reached misses at once (R57). -/
def execDlset (c : Fin 9) (g : Fin 32) (imm : BitVec 14) (s : State) :=
  s.lift fun d => d.spurInstr c fun d =>
    if 7 < imm.toNat then d.illegal c 0 (wordS 0x08 g imm.toNat)
    else d.updCore c fun k =>
      let v := k.rdG g
      let x := k.deadline imm.toNat
      let y : Deadline :=
        if v = 0 then { x with armed := false }
        else if v.toNat ≤ d.timeBase then { armed := false, pending := true, value := v }
        else { x with armed := true, value := v }
      (k.setDeadline imm.toNat y).advance

/-- An event that wakes DLWAIT is set. -/
def SpurCore.woken (k : SpurCore) : Bool := k.event &&& k.evmask != 0

/-- DLWAIT ends with Z and the pc at the next instruction. -/
def SpurCore.endWait (k : SpurCore) (z : Bool) : SpurCore :=
  { k.advance with wait := .none, flags := { k.flags with z := z } }

/-- DLWAIT (R55). -/
def execDlwait (c : Fin 9) (g : Fin 32) (s : State) :=
  s.lift fun d => d.spurInstr c fun d =>
    d.updCore c fun k =>
      if (k.rdG g).toNat ≤ d.timeBase then k.endWait true
      else if k.woken then k.endWait false
      else { k with wait := .dlwait (k.rdG g).toNat }

/-- The end of a DLWAIT: the time, an event, or a deadline miss, whose exception is then taken (R188). -/
def Dev.wake (d : Dev) (c : Nat) : Dev :=
  let k := d.core c
  match k.wait with
  | .dlwait t =>
    if t ≤ d.timeBase then d.setCore c (k.endWait true)
    else if k.woken then d.setCore c (k.endWait false)
    else if k.missOf.isSome then (d.setCore c (k.endWait false)).takeDue c
    else d
  | _ => d

def execDlwaitWake (c : Fin 9) (s : State) := s.lift fun d => d.wake c

/-- The time base reaches an armed deadline: it disarms and the miss is pending (R57); a core in DLWAIT ends it with Z = 0,
and a core between instructions takes the exception (R188). -/
def execDeadlineMiss (c : Fin 9) (n : Fin 8) (s : State) :=
  s.lift fun d =>
    let x := (d.core c).deadline n
    if x.armed ∧ x.value.toNat ≤ d.timeBase then
      let d := d.updCore c fun k => k.setDeadline n { x with armed := false, pending := true }
      match (d.core c).wait with
      | .dlwait _ => (d.updCore c fun k => k.endWait false).takeDue c
      | .none => if d.spurReady c then (d.settle c).takeDue c else d
      | _ => d
    else d

/-- A reservation is lost after 4,096 sc (R51). -/
def execReservationExpiry (c : Fin 9) (s : State) :=
  s.lift fun d => d.updCore c fun k => { k with rsv := none }

/-! ### CSRs (R58 to R61) -/

/-- Armed deadlines in [7:0], pending misses in [15:8] (R59). -/
def SpurCore.dlStatus (k : SpurCore) : Nat :=
  (List.range 8).foldl (fun v n =>
    v + (k.deadline n).armed.toNat * 2 ^ n + (k.deadline n).pending.toNat * 2 ^ (8 + n)) 0

/-- MBX_STATUS of a role: full in [3:0], reply present in [7:4] (R59); the spare has no mailbox. -/
def Dev.mbxStatus (d : Dev) (role : Nat) : Nat :=
  if role < 8 then
    (List.range 4).foldl (fun v m =>
      let x : Mbx := SMap.get {} d.summit.mbx (role * 4 + m)
      v + x.full.toNat * 2 ^ m + x.reply.isSome.toNat * 2 ^ (4 + m)) 0
  else 0

/-- DEVFAULT (R61). -/
def SpurCore.devfault (k : SpurCore) : Nat :=
  k.dfDiscard.toNat + k.dfLate.toNat * 2 + k.dfBarLate.toNat * 4 + k.dfCount * 2 ^ 16 + k.dfLast.toNat * 2 ^ 32

/-- The value of a CSR of core `c`; none for an unassigned number (R59). -/
def Dev.csr (d : Dev) (c n : Nat) : Option W64 :=
  let k := d.core c
  match n with
  | 0x000 => some (BitVec.ofNat 64 (k.handler.toNat + k.sflags.toNat * 2 ^ 8))
  | 0x001 => some k.hcause
  | 0x002 => some k.hpc
  | 0x003 => some k.haddr
  | 0x004 => some k.hvec
  | 0x005 => some k.hsave
  | 0x006 => some (BitVec.ofNat 64 k.flags.toNat)
  | 0x010 => some (BitVec.ofNat 64 d.timeBase)
  | 0x011 => some (BitVec.ofNat 64 (c + k.role % 16 * 16))
  | 0x012 => some (BitVec.ofNat 64 k.dlStatus)
  | 0x013 => some k.event
  | 0x014 => some k.evmask
  | 0x015 => some (BitVec.ofNat 64 k.devfault)
  | 0x016 => some (BitVec.ofNat 64 (d.mbxStatus k.role))
  | 0x020 => some (SMap.get 0 k.bpaddr 0)
  | 0x021 => some (SMap.get 0 k.bpaddr 1)
  | 0x022 => some (SMap.get 0 k.bpaddr 2)
  | 0x023 => some (SMap.get 0 k.bpaddr 3)
  | 0x024 => some (k.bpctl.zeroExtend 64)
  | _ => none

/-- The W1C fields of DEVFAULT that have a 1 in `v` are cleared (R5, R61). -/
def SpurCore.clearDevfault (k : SpurCore) (v : Nat) : SpurCore :=
  { k with
    dfDiscard := k.dfDiscard && bits v 0 1 == 0
    dfLate := k.dfLate && bits v 1 1 == 0
    dfBarLate := k.dfBarLate && bits v 2 1 == 0
    dfCount := if bits v 16 16 = 0 then k.dfCount else 0 }

/-- A CSR takes a value; none for a read-only or unassigned one (R58). Reserved bits keep reading zero (R3). -/
def SpurCore.setCsr (k : SpurCore) (n : Nat) (v : W64) : Option SpurCore :=
  match n with
  | 0x000 => some { k with handler := v.getLsbD 0, sflags := Flags.ofNat (bits v.toNat 8 6) }
  | 0x002 => some { k with hpc := v }
  | 0x004 => some { k with hvec := v &&& ~~~0x1FF#64 }
  | 0x005 => some { k with hsave := v }
  | 0x006 => some { k with flags := Flags.ofNat v.toNat }
  | 0x013 => some { k with event := v &&& 0x7FF#64 }
  | 0x014 => some { k with evmask := v }
  | 0x015 => some (k.clearDevfault v.toNat)
  | 0x020 => some { k with bpaddr := SMap.put 0 k.bpaddr 0 v }
  | 0x021 => some { k with bpaddr := SMap.put 0 k.bpaddr 1 v }
  | 0x022 => some { k with bpaddr := SMap.put 0 k.bpaddr 2 v }
  | 0x023 => some { k with bpaddr := SMap.put 0 k.bpaddr 3 v }
  | 0x024 => some { k with bpctl := v.truncate 4 }
  | _ => none

def execCsrr (c : Fin 9) (g : Fin 32) (csr : BitVec 14) (s : State) :=
  s.lift fun d => d.spurInstr c fun d =>
    match d.csr c csr.toNat with
    | some v => d.updCore c fun k => (k.wrG g v).advance
    | none => d.illegal c 2 (wordS 0x10 g csr.toNat)

/-- CSRW, CSRS and CSRC: the CSR takes `f old g`; a W1C field of DEVFAULT is cleared by a 1 in g whichever of them writes it
(DEDUCED). -/
def Dev.csrUpdate (d : Dev) (c fn g csr : Nat) (f : W64 → W64 → W64) : Dev :=
  d.spurInstr c fun d =>
    let k := d.core c
    let old := (d.csr c csr).getD 0
    let v := if csr = 0x015 then k.rdG g else f old (k.rdG g)
    match k.setCsr csr v with
    | some k' => d.setCore c k'.advance
    | none => d.illegal c 2 (wordS fn g csr)

def execCsrw (c : Fin 9) (g : Fin 32) (csr : BitVec 14) (s : State) :=
  s.lift fun d => d.csrUpdate c 0x11 g csr.toNat fun _ v => v
def execCsrs (c : Fin 9) (g : Fin 32) (csr : BitVec 14) (s : State) :=
  s.lift fun d => d.csrUpdate c 0x12 g csr.toNat fun old v => old ||| v
def execCsrc (c : Fin 9) (g : Fin 32) (csr : BitVec 14) (s : State) :=
  s.lift fun d => d.csrUpdate c 0x13 g csr.toNat fun old v => old &&& ~~~v

/-! ### Handlers (R58, R67) -/

/-- The return from a handler: flags from SFLAGS, HANDLER cleared, the pc at HPC (its bits [1:0] are zero, R27). -/
def SpurCore.leave (k : SpurCore) (bpSkip : Bool) : SpurCore :=
  { k with flags := k.sflags, handler := false, pc := k.hpc &&& ~~~3#64, bpSkip := bpSkip }

/-- HRET and HRETB outside a handler are illegal (R58). -/
def Dev.handlerReturn (d : Dev) (c fn : Nat) (bpSkip : Bool) : Dev :=
  d.spurInstr c fun d =>
    let k := d.core c
    if k.handler then d.setCore c (k.leave bpSkip) else d.illegal c 3 (wordS fn 0 0)

def execHret (c : Fin 9) (s : State) := s.lift fun d => d.handlerReturn c 0x18 false
def execHretb (c : Fin 9) (s : State) := s.lift fun d => d.handlerReturn c 0x19 true

/-- BRK: HPC is the next instruction (R62); HADDR is not given and is a free value. -/
def execBrk (c : Fin 9) (s : State) :=
  s.lift fun d => d.spurInstr c fun d =>
    let x := d.draw
    x.2.takeSync c 6 0 ((d.core c).pc + 4) x.1

end Sys2Proof.Machine
end

