-- ==== Sys2Proof/Machine/MbxOps.lean ====
section
/-! DEFINITION. Mailboxes and Summit's queues (R381 to R384), responses to manager commands (R214), and what both ask of the pool:
commits with their sweeps (R145, R146, R157), recolours (R150). -/

namespace Sys2Proof.Machine

open Sys2Proof

/-! ### Replies -/

def Dev.mbx (d : Dev) (b : Nat) : Mbx := SMap.get {} d.summit.mbx b
def Dev.setMbx (d : Dev) (b : Nat) (x : Mbx) : Dev := { d with summit := { d.summit with mbx := SMap.put {} d.summit.mbx b x } }

/-- The reply word (R382): STATUS, SEQ echoed, RESULT. -/
def replyWord (word : W64) (status result : Nat) : Nat := status % 256 + bits word.toNat 8 8 * 2 ^ 8 + result % 2 ^ 32 * 2 ^ 32

/-- Summit replies in a mailbox that waits (R382), and the core that holds its role gets EVENT.MBX_REPLY (R186). -/
def Dev.mbxReply (d : Dev) (b status result : Nat) : Dev :=
  let x := d.mbx b
  if x.full && x.reply.isNone then
    let d := d.setMbx b { x with reply := some (replyWord x.word status result) }
    match d.coreOfRole (b / 4) with
    | some c => d.setEvent c (b % 4)
    | none => d
  else d

/-- Foothill answers a manager command (R214): sources 0 to 127 are the pages of the ports, 128 the board management controller, 129
Foothill's own tasks. -/
def Dev.mgrReply (d : Dev) (src status result : Nat) : Dev :=
  let m := d.mgrPage src
  let w := status + bits (m.cmd.headD 0) 16 16 * 2 ^ 16
  (d.setMgrPage src { m with busy := false, taken := false, resp0 := w, resp1 := result }).emit (.mgrResp src w result)

/-- Summit's status as a manager status. -/
def mgrStatus (s : Nat) : Nat := match s with | 0 => 0 | 1 => 1 | 3 => 3 | _ => 4

/-- Answers who asked: a mailbox, or 1,000 + a manager source. -/
def Dev.answer (d : Dev) (box status result : Nat) : Dev :=
  if box < 1000 then d.mbxReply box status result else d.mgrReply (box - 1000) (mgrStatus status) result

/-! ### Queues (R384) -/

/-- A mailbox command stands at the front of the state queue and nothing runs there; of the flash queue. -/
def Dev.stateTurn (d : Dev) (b : Nat) : Bool := !d.summit.stateRun && (d.summit.stateQ.head?.any fun q => q.box == b)
def Dev.flashTurn (d : Dev) (b : Nat) : Bool :=
  !d.summit.flashRun && (d.summit.flashQ.head?.any fun q => q.box == b && q.wanted)

/-- The mailbox holds a command with this opcode that has no reply yet. -/
def Dev.posted (d : Dev) (b op : Nat) : Bool :=
  let x := d.mbx b
  x.full && x.reply.isNone && x.word.toNat % 256 == op

/-- Summit works: its image and the policy are verified (R375). -/
def Dev.summitUp (d : Dev) : Bool := d.vauxUp && decide (2 ≤ d.rd SUMMIT.BOOT_STATUS.STAGE)

/-- The command at the front of the state queue ends: it replies, and the next may start. -/
def Dev.stateEnd (d : Dev) (box status result : Nat) : Dev :=
  let q := if box < 1000 then d.summit.stateQ.tail else d.summit.stateQ
  ({ d with summit := { d.summit with stateRun := false, stateQ := q } }).answer box status result

/-- The front of the state queue goes on; its reply comes later. -/
def Dev.stateStart (d : Dev) : Dev := { d with summit := { d.summit with stateRun := true } }

/-- The command at the front of the flash queue ends. -/
def Dev.flashEnd (d : Dev) (status result : Nat) : Dev :=
  match d.summit.flashQ with
  | [] => { d with summit := { d.summit with flashRun := false } }
  | q :: qs =>
    let d : Dev := { d with summit := { d.summit with flashRun := false, flashQ := qs } }
    if q.wanted then d.answer q.box status result else d

/-- A 32-bit word of the parameter block of a posted word (R381). -/
def Dev.param (d : Dev) (word : W64) (i : Nat) : Nat := d.load (spurAt (bits word.toNat 16 16 * 64 + 4 * i)) 4

/-- ARG of a posted word. -/
def mbxArg (word : W64) : Nat := bits word.toNat 32 32

/-! ### Commits (R145, R157, R388) -/

/-- The new descriptor may be committed in place `i` (R145, R388), given whether the key block holds the stored key. -/
def Dev.commitOk (d : Dev) (i : Nat) (x : Desc) (keyOk : Bool) : Bool :=
  let old := d.desc i
  if old.locked && !keyOk then false
  else if !x.valid then true
  else
    decide (x.key ≠ 0) && decide (21 ≤ x.subLog2) && decide (x.subLog2 ≤ 34) && x.hbase % x.span == 0 &&
    decide (x.pbase * granuleBytes + x.span ≤ d.rd TARN.REGION_TOP.GRANULES * granuleBytes) &&
    x.hosts != 0 && (x.shared || (maskHosts x.hosts).length == 1) &&
    decide (((SMap.keys (fun j y => j != i && y.valid && y.tenant == x.tenant) d.tarn.descs).length) < 16) &&
    x.granules.all fun g =>
      let o := d.own g
      (!o.owned || o.owner == i) && (o.clean || o.tenant == x.tenant)

/-- Granules that the commit releases. -/
def releasedBy (old new : Desc) : List Nat :=
  if old.valid then old.granules.filter fun g => !(new.valid && new.granules.contains g) else []

/-- Hosts that a sweep asks about a granule: every host where the granule is released, else those the commit takes off (R157). -/
def sweepHosts (old new : Desc) (released : Bool) : Nat :=
  if !new.valid || released then old.hosts else old.hosts - (old.hosts &&& new.hosts)

/-- What a sweep still has to ask: line and hosts. -/
def Dev.sweepLeft (d : Dev) (r : CommitRun) : List (Nat × List Nat) :=
  let old := d.desc r.index
  if old.valid && old.shared then
    let gs := old.granules
    let rel := releasedBy old r.desc
    (SMap.keys (fun l _ => gs.contains (l / granuleLines)) d.tarn.dir).filterMap fun l =>
      let m := sweepHosts old r.desc (rel.contains (l / granuleLines))
      let hs := ((d.dirEnt l).holders old).filter fun h => m.testBit h
      if hs.isEmpty || r.swept.contains l then none else some (l, hs)
  else []

/-- The sweep of the commit that runs goes on: trackers open for lines that hold none, while the stacks have free ones (R157). -/
def Dev.sweepGo (d : Dev) : Dev :=
  match d.tarn.commit with
  | none => d
  | some r =>
    d.forIn' (d.sweepLeft r) fun x d =>
      if d.tracked x.1 || decide (512 ≤ d.trackersOf (stackOfLine x.1)) then d else d.openTracker r.index x.1 x.2 true .sweep

/-- Every line of the sweep has answered. -/
def Dev.sweepDone (d : Dev) (r : CommitRun) : Bool :=
  (d.sweepLeft r).isEmpty && !(d.tarn.trackers.any fun t => t.owner == .sweep)

/-- The 32 bytes of a key block as a number. -/
def Dev.keyBlock (d : Dev) (off : Nat) : Nat := bytesNat ((List.range 32).map fun i => d.byte (spurAt (off + i)))

/-- Keys in the key store. -/
def Dev.lockKey (d : Dev) (i : Nat) : Option Nat := match SMap.get 0 d.summit.lockKeys i with | 0 => none | n + 1 => some n

/-- A commit asked of Summit (R145, R388): refused, or accepted with its sweep begun; `keyAt` is the key block, which Summit zeroes when
it stores the key. -/
def Dev.commitAsk (d : Dev) (box i : Nat) (x : Desc) (keyAt : Option Nat) : Dev :=
  let given := keyAt.map d.keyBlock
  let keyOk := (d.lockKey i).isSome && given == d.lockKey i
  let lockNew := x.valid && x.locked
  let lockOk := !lockNew || (given.isSome && ((d.lockKey i).isSome || decide (d.summit.lockKeys.length < 512)))
  if d.summit.tarnInit then d.stateEnd box 3 0
  else if d.commitOk i x keyOk && lockOk then
    let d := match keyAt, given with
      | some off, some k =>
        if lockNew then
          ({ d with summit := { d.summit with lockKeys := SMap.put 0 d.summit.lockKeys i (k + 1) } } : Dev).spurStore off
            (List.replicate 32 0)
        else d
      | _, _ => d
    let d : Dev := { d with tarn := { d.tarn with commit := some ⟨box, i, x, []⟩ } }
    d.stateStart.sweepGo
  else d.stateEnd box 2 0

/-- The commit point (R145, R146, R157): descriptor, ownership map and directory change together; readahead copies of the descriptor
are dropped; a key whose lock is given up is freed. -/
def Dev.commitPoint (d : Dev) (r : CommitRun) : Dev :=
  let old := d.desc r.index
  let rel := releasedBy old r.desc
  let d := d.setDesc r.index { r.desc with ejected := 0 }
  let d := d.forIn' rel fun g d => d.setOwn g { d.own g with owned := false, clean := false }
  let d := if r.desc.valid then
      d.forIn' r.desc.granules fun g d => d.setOwn g { d.own g with owner := r.index, owned := true, tenant := r.desc.tenant }
    else d
  let toI (g : Nat) : Bool := old.valid && old.shared && old.granules.contains g &&
    (!r.desc.valid || !r.desc.shared || rel.contains g)
  let d : Dev := { d with tarn := { d.tarn with
    dir := SMap.drop (fun l => toI (l / granuleLines)) d.tarn.dir, commit := none } }
  let d := d.dropRa fun x => x.desc == r.index
  let d := if r.desc.valid && r.desc.locked then d
    else { d with summit := { d.summit with lockKeys := SMap.put 0 d.summit.lockKeys r.index 0 } }
  d.stateEnd r.box 0 0

/-! ### Recolours (R150) -/

/-- A recolour asked of Summit: BUSY during the initialisation of Tarn (R376); refused for a bad colour, an owned granule, or a range
that reaches REGION_TOP. -/
def Dev.recolourAsk (d : Dev) (box first count colour : Nat) (zero : Bool) : Dev :=
  if d.summit.tarnInit then d.stateEnd box 3 0
  else if colour = 0 then d.stateEnd box 1 0
  else if d.rd TARN.REGION_TOP.GRANULES < first + count ∨ (SMap.keys (fun g o => decide (first ≤ g) && decide (g < first + count) && o.owned)
      d.tarn.own) ≠ [] then d.stateEnd box 2 0
  else ({ d with tarn := { d.tarn with recolour := some ⟨box, first, count, colour, zero⟩ } } : Dev).stateStart

/-- The granules of a block lie in a range: those of its first and of its last line. -/
def blockWithin (blk first count : Nat) : Bool :=
  decide (first ≤ blk * 15 / granuleLines) && decide ((blk * 15 + 14) / granuleLines < first + count)

/-- The recolour is complete over its range: metadata lines take the new colour; with zeroing the data is zero and the granules are
CLEAN. A retired block whose metadata line was uncorrectable is sound again (R163). -/
def Dev.recolourEnd (d : Dev) (r : RecolourRun) : Dev :=
  let inR (g : Nat) : Bool := decide (r.first ≤ g) && decide (g < r.first + r.count)
  let d : Dev := d.each r.count fun i d =>
    { d with tarn := { d.tarn with colour := SMap.put 0 d.tarn.colour (r.first + i) r.colour } }
  let d := d.dropRa fun x => inR (x.line / granuleLines)
  let bad := d.tarn.metaBad
  let d : Dev := { d with tarn := { d.tarn with
    recolour := none
    metaBad := SMap.drop (fun b => blockWithin b r.first r.count && SMap.get 0 d.tarn.remap b != 0) bad } }
  let d : Dev := if r.zero then
      let d : Dev := { d with
        mem := SMap.drop (fun a => decide (tarnBase ≤ a) && inR ((a - tarnBase) / granuleBytes)) d.mem
        tarn := { d.tarn with poison := SMap.drop (fun l => inR (l / granuleLines)) d.tarn.poison } }
      d.each r.count fun i d => d.setOwn (r.first + i) { d.own (r.first + i) with clean := true }
    else d
  d.stateEnd r.box 0 0

end Sys2Proof.Machine
end

