-- ==== Sys2Proof/Machine/Tarn.lean ====
section
/-! DEFINITION. The pool's rows: checking and performing an access, back-invalidate snoops, readahead, scrub, retirement, evacuation,
commits and recolours (R143 to R167). -/

namespace Sys2Proof.Machine

open Sys2Proof

/-! ### Ends of an access -/

def Dev.tarnReq? (d : Dev) (k : Nat) : Option TarnReq := d.tarn.reqs.find? fun r => r.pkt.id == k
def Dev.setReq (d : Dev) (r : TarnReq) : Dev :=
  { d with tarn := { d.tarn with reqs := d.tarn.reqs.map fun q => if q.pkt.id = r.pkt.id then r else q } }
def Dev.dropReq (d : Dev) (r : TarnReq) : Dev :=
  { d with tarn := { d.tarn with reqs := d.tarn.reqs.filter fun q => q.pkt.id != r.pkt.id } }

/-- A CXL.mem response: on the requester's port, or back in a segment (R243). -/
def Dev.s2m (d : Dev) (r : TarnReq) (drs poison : Bool) (data : List Byte) : Dev :=
  let f := r.frame
  if f.fabric then
    d.sendFabric (segSrcDev f) (segSrcPort f) (segBits f 34 3) 3 (if segTrkV f then some (segTrk f) else none)
      (natBytes 2 f.h1.toNat ++ BitVec.ofNat 8 (drs.toNat + 2 * poison.toNat) :: data)
  else d.emit (.s2m r.pkt.port (f.h1.toNat % 65536) drs poison data)

/-- A refused access ends (R148). -/
def Dev.refuseEnd (d : Dev) (r : TarnReq) (bad : Nat) : Dev :=
  let d := d.dropReq r
  let f := r.frame
  match f.ftype with
  | 6 => d.s2m r true true (List.replicate 64 0)
  | 7 => d.s2m r false false []
  | 1 => if f.fabric then d.pdDiscard f r.pkt.tenant bad r.pkt.port 5 else d
  | _ => d.completeReq r.pkt.port f 4 []

/-- The access as it is checked: the tenant is that of its disposition word, the key that of its o3. -/
def TarnReq.acc (r : TarnReq) : PoolAcc :=
  { desc := r.desc, tenant := some r.pkt.tenant, key := some r.key, host := r.host, device := false, addr := r.addr, len := r.len,
    op := r.op }

/-- An access is refused with a cause (R147, R148). -/
def Dev.refuse (d : Dev) (r : TarnReq) (cause bad : Nat) : Dev :=
  (d.poolRefuse r.acc cause bad (frameRid r.frame) r.pkt.port).refuseEnd r bad

/-- What the error correction found of the lines of an access (R162, R163, R166). -/
def Dev.eccFound (d : Dev) (ls : List Nat) (e : Ecc) : Dev :=
  match e with
  | .good => d
  | .corrected i => match ls[i]? with | some l => d.lineCe (l / 15) | none => d
  | .bad i => match ls[i]? with | some l => d.lineUe (l / 15) (l % 15) | none => d
  | .parity i => match ls[i]? with | some l => d.pcFreeze (pcOfLine l) | none => d

/-- The same for metadata lines, whose block then counts as poisoned. -/
def Dev.eccMeta (d : Dev) (ls : List Nat) (e : Ecc) : Dev :=
  match e with
  | .bad i => match ls[i]? with | some l => d.lineUe (l / 15) 15 | none => d
  | e => d.eccFound ls e

/-! ### Scheduling with the directory (R153, R155) -/

/-- Checked accesses before `r` that wait for one of its lines. -/
def Dev.waitsBefore (d : Dev) (r : TarnReq) (ls : List Nat) : Bool :=
  d.tarn.reqs.any fun q => decide (q.pkt.id < r.pkt.id) && q.phase == .waiting && (linesOf q.pool q.len).any fun l => ls.contains l

/-- A line under snoop waits for this write-back: its host is the one asked (R155). -/
def Dev.writeBack (d : Dev) (r : TarnReq) (ls : List Nat) : Bool :=
  (r.op == .rwdI || r.op == .rwdS || r.op == .rwdA) &&
    ls.all fun l => d.tarn.trackers.any fun t => t.line == l && r.host.any fun h => t.pending.contains h

/-- Entries of a stack's waiting list. -/
def Dev.waitCount (d : Dev) (s : Nat) : Nat :=
  (d.tarn.reqs.filter fun q => q.phase == .waiting && stackOfLine (q.pool / 64) == s).length

/-- The access waits: in the waiting list, or at its pool port while that is full (R155). -/
def Dev.makeWait (d : Dev) (r : TarnReq) : Dev :=
  if r.phase == .waiting then d
  else if 2048 ≤ d.waitCount (stackOfLine (r.pool / 64)) then d
  else d.setReq { r with phase := .waiting }

/-- Every snoop is answered: the state changes and the access is scheduled. -/
def Dev.scheduled' (d : Dev) (r : TarnReq) : Dev :=
  (d.dirPerform r.op r.host r.desc (linesOf r.pool r.len)).setReq { r with phase := .sched }

/-- A checked access takes its place: scheduled, behind trackers of its own, or waiting. -/
def Dev.tarnSchedule (d : Dev) (r : TarnReq) : Dev :=
  let ls := linesOf r.pool r.len
  if d.writeBack r ls then d.scheduled' r
  else if (ls.any fun l => d.tracked l) || d.waitsBefore r ls then d.makeWait r
  else
    let need := d.needSnoop r.op r.host r.desc ls
    if need.isEmpty then d.scheduled' r
    else match d.openTrackers r.desc need (.req r.pkt.id) with
      | some d => d.setReq { r with phase := .tracked }
      | none => d.makeWait r

/-! ### Answers to snoops (R153, R156) -/

/-- A tracker closes when every host has answered; an access without further trackers is scheduled, a sweep goes on. -/
def Dev.closeTracker (d : Dev) (t : Tracker) : Dev :=
  let d : Dev := { d with tarn := { d.tarn with trackers := d.tarn.trackers.filter fun x => x.tag != t.tag } }
  match t.owner with
  | .device => d
  | .sweep =>
    match d.tarn.commit with
    | some r => ({ d with tarn := { d.tarn with commit := some { r with swept :=
        if (d.dirEnt t.line).st == .so then r.swept ++ [t.line] else r.swept } } } : Dev).sweepGo
    | none => d
  | .req k =>
    match d.tarnReq? k with
    | none => d
    | some r => if d.tarn.trackers.any fun x => x.owner == .req k then d else d.scheduled' r

/-- Host `h` has answered tracker `t`, or is treated as if it had. -/
def Dev.answered (d : Dev) (t : Tracker) (h : Nat) : Dev :=
  let d := d.setDir t.line (snooped t.inv [h] (d.dirEnt t.line))
  let t := { t with pending := t.pending.filter (· != h) }
  if t.pending.isEmpty then d.closeTracker t
  else { d with tarn := { d.tarn with trackers := d.tarn.trackers.map fun x => if x.tag = t.tag then t else x } }

/-- A BIRsp; one that no tracker waits for is discarded and counted (R156). -/
def Dev.birsp (d : Dev) (h tag : Nat) : Dev :=
  match d.tarn.trackers.find? fun t => t.tag == tag && t.pending.contains h with
  | some t => d.answered t h
  | none => { d with tarn := { d.tarn with lateBirsp := d.tarn.lateBirsp + 1 } }

/-- Host domains of a host ID: those of the upstream ports that carry it. -/
def Dev.domainsOfHost (d : Dev) (h : Nat) : List Nat :=
  (List.range 128).filterMap fun p =>
    if d.on TARN.PORT_HOST.VALID p && d.rd TARN.PORT_HOST.HOST_ID p == h && d.upstream p then d.domainOfPort p else none

/-- The home ejects a host from the region of descriptor `i` (R156): it holds nothing on any line, a line it held in E is poisoned, the
requests that wait for it go on, and its domain is told. -/
def Dev.eject (d : Dev) (i h line : Nat) : Dev :=
  let x := d.desc i
  let d := d.setDesc i { x with ejected := x.ejected ||| 2 ^ h }
  let gs := x.granules
  let held := (SMap.keys (fun l e => gs.contains (l / granuleLines) && (match e.st with
    | .s | .e => e.hosts.contains h
    | _ => false)) d.tarn.dir)
  let d := d.forIn' held fun l d =>
    let e := d.dirEnt l
    (d.when (e.st == .e) fun d => d.setLinePoison l true).setDir l (e.without h)
  let d := d.forIn' (d.tarn.trackers.filter fun t => t.desc == i && t.pending.contains h) fun t d => d.answered t h
  let d := d.report { type := 18, kind := 1, index := x.tenant, rid := h, tenant := x.tenant } (d.domainsOfHost h)
  d.cairnPush 0x05 (stackOfLine line) 2 i h

/-! ### Performing an access (R158, R159, R163) -/

/-- An earlier posted write of the same ingress port has not become visible (R158). -/
def Dev.writesBefore (d : Dev) (r : TarnReq) : Bool :=
  (d.tarn.reqs.any fun q => decide (q.pkt.id < r.pkt.id) && q.pkt.port == r.pkt.port && q.frame.ftype == 1) ||
  (d.sad.pkts.any fun q => decide (q.id < r.pkt.id) && q.port == r.pkt.port && q.frame.ftype == 1 && !q.crossed &&
    match q.dest with | .pool _ => true | _ => false)

/-- The access may be performed now. -/
def Dev.mayPerform (d : Dev) (r : TarnReq) : Bool :=
  match r.frame.ftype with
  | 1 => frameRo r.frame || !d.writesBefore r
  | 7 => true
  | _ => !d.writesBefore r

/-- Adds a buffered line to the readahead buffer of its stack, which holds 256 (R160). -/
def Dev.addRa (d : Dev) (x : RaLine) : Dev :=
  let same := d.tarn.ra.filter fun y => stackOfLine y.line == stackOfLine x.line
  let ra := match same with
    | y :: _ => if 256 ≤ same.length then d.tarn.ra.erase y else d.tarn.ra
    | [] => d.tarn.ra
  { d with tarn := { d.tarn with ra := if d.tarn.ra.contains x then d.tarn.ra else ra ++ [x] } }

/-- A host read of a line under a descriptor with READAHEAD = 1 (R160): with the line before it read last in a stream, the stack
buffers the lines that follow, inside the enabled span and off frozen pseudo-channels. -/
def Dev.readAhead (d : Dev) (h i line : Nat) : Dev :=
  let x := d.desc i
  let depth := min 32 (d.rd TARN.RA_CTL.DEPTH)
  if !x.readahead || depth == 0 then d
  else
    let s := stackOfLine line
    let old : RaLine := ⟨h, i, line - 1⟩
    let run := decide (0 < line) && d.tarn.streams.contains old
    let rest := d.tarn.streams.filter fun y => y != old && y != ⟨h, i, line⟩
    let mine := rest.filter fun y => stackOfLine y.line == s
    let rest := match mine with
      | y :: _ => if 64 ≤ mine.length then rest.erase y else rest
      | [] => rest
    let d : Dev := { d with tarn := { d.tarn with streams := rest ++ [⟨h, i, line⟩] } }
    if run then
      (List.range depth).foldl (fun (d : Dev) n =>
        let l := line + 1 + n
        let a := l * 64 - x.pbase * granuleBytes + x.hbase
        if stackOfLine l == s && x.covers a && x.poolOf a == l * 64 && !d.lineFrozen l then d.addRa ⟨h, i, l⟩ else d) d
    else d

/-- The access is performed: a write becomes visible, a read returns its data (R158). -/
def Dev.tarnPerform (d : Dev) (r : TarnReq) : Dev :=
  let f := r.frame
  let ls := linesOf r.pool r.len
  let d := d.dropReq r
  match f.ftype with
  | 1 => d.poolWrite r.pool (d.merged r) f.ep
  | 7 => (d.poolWrite r.pool (d.merged r) f.ep).s2m r false false []
  | 2 =>
    let old := d.poolRead r.pool r.len
    let d := d.countReads r.pool r.len (some r.pkt.tenant)
    if old.2 then d.completeReq r.pkt.port f 0 old.1 true
    else
      (d.poolWrite r.pool (natBytes r.len (atomicNew f r.len (bytesNat old.1))) f.ep).completeReq r.pkt.port f 0 old.1
  | 6 =>
    let op := bits f.h1.toNat 16 4
    if op = 8 then d
    else if op ∈ [0, 9, 10] then d.s2m r false false []
    else
      let x := d.poolRead r.pool r.len
      let d := d.countReads r.pool r.len (some r.pkt.tenant)
      let d := match r.host with | some h => d.readAhead h r.desc (r.pool / 64) | none => d
      d.s2m r true x.2 x.1
  | _ =>
    let x := d.poolRead r.pool r.len
    let d := d.countReads r.pool r.len (some r.pkt.tenant)
    let d := match r.host with
      | some h => d.forIn' ls fun l d => d.readAhead h r.desc l
      | none => d
    d.completeReq r.pkt.port f 0 x.1 x.2

/-! ### The rows -/

/-- Frames of a kind that the pool serves: memory reads, writes, AtomicOps, M2S Req and RwD. -/
def poolFrame (f : Frame) : Bool := f.ftype ∈ [0, 1, 6, 7] || (f.ftype == 2 && atomicOk f)

/-- A frame that the pool does not serve: an M2S BIRsp answers its tracker; a non-posted request is answered Unsupported Request; a
posted one is discarded; a completion is unexpected (DESIGN CHOICE: no rule states what POOL does with them). -/
def Dev.poolOther (d : Dev) (r : TarnReq) : Dev :=
  let d := d.dropReq r
  if r.frame.ftype = 8 then
    match r.host with
    | some h => d.birsp h (r.frame.h1.toNat % 65536)
    | none => d
  else match subOf r.frame with
    | .nonPosted => d.completeReq r.pkt.port r.frame 1 []
    | .posted => d
    | .completion => d.unexpected r.pkt

/-- A stack controller checks an access at its pool port, or tries again one that waits (R147, R153). -/
def Dev.tarnAccess (d : Dev) (r : TarnReq) (ecc : Ecc) : Dev :=
  if !poolFrame r.frame then d.poolOther r
  else match r.phase with
    | .arrived =>
      let r := { r with pool := (d.desc r.desc).poolOf r.addr }
      match d.poolCheck r.acc with
      | some (c, bad) => d.refuse r c bad
      | none =>
        let d := d.eccMeta (linesOf r.pool r.len) ecc
        match d.poolCheck r.acc with
        | some (c, bad) => d.refuse r c bad
        | none => (d.setReq r).tarnSchedule r
    | .waiting => d.tarnSchedule r
    | _ => d

def execTarnAccess (k : Nat) (ecc : Ecc) (dirMiss : Bool) (s : State) :=
  s.lift fun d =>
    if d.coreUp then
      match d.tarnReq? k with
      | none => d
      | some r => (d.when dirMiss fun d => d.event 0x113 (stackOfLine (r.pool / 64))).tarnAccess r ecc
    else d

/-- The pseudo-channel controller performs a scheduled access. A line found uncorrectable while a partial write is merged discards the
write whole, under cause 10 (R163); one whose pseudo-channel freezes refuses it under cause 11. -/
def execTarnAccessPerform (k : Nat) (ecc : Ecc) (s : State) :=
  s.lift fun d =>
    match d.tarnReq? k with
    | none => d
    | some r =>
      if d.coreUp && r.phase == .sched && d.mayPerform r then
        let ls := linesOf r.pool r.len
        let d := d.eccFound ls ecc
        let partly := r.op.writes && !(r.op == .atomic) &&
          ls.any fun l => d.linePoison l && !(decide (r.pool ≤ l * 64) && decide (l * 64 + 64 ≤ r.pool + r.len))
        match ecc with
        | .parity _ => d.refuse r 11 r.addr
        | .bad _ => if partly || r.op == .atomic then d.refuse r 10 r.addr else d.tarnPerform r
        | _ => d.tarnPerform r
      else d

def execBirsp (h : Fin 64) (tag : Nat) (s : State) := s.lift fun d => if d.coreUp then d.birsp h tag else d

/-- A snoop has had no BIRsp within TIMEOUT. -/
def execBiTimeout (h : Fin 64) (tag : Nat) (s : State) :=
  s.lift fun d =>
    match d.tarn.trackers.find? fun t => t.tag == tag && t.pending.contains h.val with
    | some t => if d.coreUp then d.eject t.desc h t.line else d
    | none => d

/-- A buffered line not used for 10 µs is dropped. -/
def execReadaheadExpiry (h : Fin 64) (desc : Fin 4096) (line : Nat) (s : State) :=
  s.lift fun d => d.dropRa fun x => x == ⟨h, desc, line⟩

/-- The scrub reads line `j` of a block, 15 being its metadata line (R164); `first` says that a pass begins. -/
def execPatrolScrub (blk : Fin 140624896) (j : Fin 16) (ecc : Ecc) (first : Bool) (s : State) :=
  s.lift fun d =>
    if d.coreUp ∧ d.rd TARN.ECC_CTL.SCRUB_HOURS ≠ 0 then
      let d : Dev := if first then { d with tarn := { d.tarn with ce := [] } } else d
      match ecc with
      | .good => d
      | .corrected _ => d.lineCe blk
      | .bad _ => d.lineUe blk j
      | .parity _ => d.pcFreeze (blk % 256)
    else d

/-- A block queued for retirement is copied to a spare block of its pseudo-channel (R165); with no free spare the pseudo-channel
freezes (R166). -/
def execBlockRetire (blk : Fin 140624896) (s : State) :=
  s.lift fun d =>
    match d.tarn.retireQ.find? fun x => x.1 == blk.val with
    | none => d
    | some x =>
      if d.coreUp then
        let g := blk.val % 256
        let n := SMap.get 0 d.tarn.spares g
        let d : Dev := { d with tarn := { d.tarn with retireQ := d.tarn.retireQ.filter fun y => y.1 != blk.val } }
        if n < d.spareBlocks then
          let d : Dev := { d with tarn := { d.tarn with
            spares := SMap.put 0 d.tarn.spares g (n + 1), remap := SMap.put 0 d.tarn.remap blk (n + 1) } }
          d.cairnPush 0x05 (g % 4) 1 (g + blk.val * 2 ^ 8) x.2
        else d.pcFreeze g
      else d

/-- The copy of an evacuation ends (R167). -/
def execEvacuationDone (s : State) :=
  s.lift fun d =>
    match d.tarn.evac with
    | none => d
    | some (g, box) =>
      let d : Dev := { d with tarn := { d.tarn with evac := none, evacuated := d.tarn.evacuated ++ [g] } }
      ((d.wr TARN.EVAC_STATUS.STATE 0 2).bump TARN.EVAC_STATUS.COUNT 0).stateEnd box 0 0

/-- All stack controllers switch at one edge, once the sweep has been answered. -/
def execCommitPoint (s : State) :=
  s.lift fun d =>
    match d.tarn.commit with
    | none => d
    | some r => if d.coreUp && d.sweepDone r then d.commitPoint r else d

def execRecolourDone (s : State) :=
  s.lift fun d =>
    match d.tarn.recolour with
    | none => d
    | some r => if d.coreUp then d.recolourEnd r else d

end Sys2Proof.Machine
end

