-- ==== Sys2Proof/Machine/SpurMem.lean ====
section
/-! DEFINITION. Loads, stores, exclusives of a Spur core, load responses and store buffer drains (R49 to R51, R170 to R182, R184). -/

namespace Sys2Proof.Machine

open Sys2Proof

/-! ### Addresses and what an access raises (R49, R50, R64, R170, R172) -/

/-- The effective address: base register plus the signed offset. -/
def SpurCore.effAddr (k : SpurCore) (a : Nat) (off : BitVec 14) : Nat := (k.rdG a + off.signExtend 64).toNat

/-- Aperture `n` of core `c`, as register number. -/
def aptIdx (c a : Nat) : Nat := c * 16 + (a - 0x20000000000) / 2 ^ 37
def aptOff (a : Nat) : Nat := (a - 0x20000000000) % 2 ^ 37

/-- The access of core `c` through an aperture (R172): its descriptor's own tenant and key, no host. -/
def Dev.aptAcc (d : Dev) (c a len : Nat) (op : TarnOp) : PoolAcc :=
  let i := d.rd SPUR.TARN_APT.DESC (aptIdx c a)
  { desc := i, tenant := none, key := none, host := none, device := true, addr := (d.desc i).hbase + aptOff a, len := len, op := op }

/-- What a memory access raises by its address and size alone, as code and DETAIL: alignment first (R64); then the access fault of an
exclusive outside Spur memory or too narrow (3), of a load (1) or a store (2) to a device, unmapped or invalid aperture address. -/
def Dev.memFault (d : Dev) (c a n : Nat) (excl store : Bool) : Option (Nat × Nat) :=
  if a % n ≠ 0 then some (3, 1)
  else
    let cl := addrClass a
    if excl then (if n < 4 ∨ cl ≠ .spurMem then some (2, 3) else none)
    else
      let bad := !cl.isMemory || (cl == .tarn &&
        (!d.on SPUR.TARN_APT.VALID (aptIdx c a) || (store && !d.on SPUR.TARN_APT.WRITE (aptIdx c a))))
      if bad then some (2, if store then 2 else 1) else none

/-- The exception of a memory access, at the instruction. -/
def Dev.raiseAt (d : Dev) (c : Nat) (f : Nat × Nat) (a : Nat) : Dev := d.takeSync c f.1 f.2 (d.core c).pc (BitVec.ofNat 64 a)

/-! ### Loads (R176, R181, R182) -/

/-- The lowest free tag of the response reorder buffer. -/
def SpurCore.freeTag (k : SpurCore) : Nat := ((List.range 32).find? fun t => !(k.loads.any fun l => l.tag == t)).getD 0

/-- A load enters the reorder buffer and the pc moves on. -/
def Dev.issueLoad (d : Dev) (c rd a n flat : Nat) (signed tarn : Bool) (result : Option LoadResult) : Dev :=
  d.updCore c fun k =>
    { k.advance with loads := k.loads ++ [⟨k.freeTag, k.pc, rd, a, flat, tarn, n, signed, result, false⟩] }

/-- A load through an aperture: checked by the stack controller; a refusal comes as the fault of the load (R148). One that needs snoops
waits and is issued again. -/
def Dev.tarnLoad (d : Dev) (c rd a n : Nat) (signed : Bool) : Dev :=
  let q := d.aptAcc c a n .read
  let pool := (d.desc q.desc).poolOf q.addr
  match d.poolCheck q with
  | some (cause, bad) =>
    (d.poolRefuse q cause bad 0 0).issueLoad c rd a n (tarnBase + pool) signed true (some (.fault 2 1))
  | none =>
    let r := d.deviceReady .read q.desc (linesOf pool n)
    if r.1 then (r.2.countReads pool n none).issueLoad c rd a n (tarnBase + pool) signed true none else r.2

/-- A load at its instruction, past its faults. SRAM answers at once; an uncorrectable SRAM word fails the core (R191). Buffered stores
to its word drain first (R181). -/
def Dev.loadAt (d : Dev) (c rd a n : Nat) (signed : Bool) : Dev :=
  match addrClass a with
  | .tarn => d.tarnLoad c rd a n signed
  | cl =>
    let d := d.drainN c (drainDepth (d.core c).sb a)
    let flat := flatOf c a
    if cl == .spurMem then d.issueLoad c rd a n flat signed false none
    else
      if d.poisoned flat then d.coreFail c 2
      else d.updCore c fun k => (k.wrG rd (extend signed n (d.load flat n))).advance

/-- Older loads must retire before the next load can issue: one of them brings a register it uses, the reorder buffer is full, or
something is due at the boundary. -/
def Dev.mustSettle (d : Dev) (c a : Nat) : Bool :=
  let k := d.core c
  k.loads.any (fun l => l.rd == a) || decide (32 ≤ k.loads.length) || k.asyncDue || k.bpHit.isSome ||
    addrClass k.pc.toNat != .isram || d.poisoned (flatOf c k.pc.toNat)

/-- Core `c` executes a load: outstanding loads stay outstanding unless it must wait for them or raises an exception (R176, R177). -/
def Dev.spurLoad (d : Dev) (c rd ra n : Nat) (off : BitVec 14) (signed excl : Bool) : Dev :=
  let body (d : Dev) : Dev :=
    let a := (d.core c).effAddr ra off
    match d.memFault c a n excl false with
    | some f => d.raiseAt c f a
    | none =>
      let d := if excl then d.updCore c fun k => { k with rsv := some (a / 64) } else d
      d.loadAt c rd a n signed
  if d.spurReady c then
    let a := (d.core c).effAddr ra off
    let held := addrClass a == .spurMem || addrClass a == .tarn
    if d.mustSettle c ra || !held || (d.memFault c a n excl false).isSome then d.spurInstr c body
    else (d.atBoundary c body).stepEnd c
  else d

def execLd (c : Fin 9) (sz : Size) (t a : Fin 32) (off : BitVec 14) (s : State) :=
  s.lift fun d => d.spurLoad c t a sz.bytes off false false
def execLds (c : Fin 9) (sz : Size) (t a : Fin 32) (off : BitVec 14) (s : State) :=
  s.lift fun d => d.spurLoad c t a sz.bytes off true false

/-- LDX: as LD, with a reservation on the line (R51). -/
def execLdx (c : Fin 9) (sz : Size) (t a : Fin 32) (off : BitVec 14) (s : State) :=
  s.lift fun d => d.spurLoad c t a sz.bytes off false true

/-- A response arrives, goes to the reorder buffer and what can retire does (R176). -/
def execLoadResponse (c : Fin 9) (tag : Fin 32) (s : State) :=
  s.lift fun d => if d.coreUp then (d.respond c tag).retireN c (d.core c).loads.length else d

/-! ### Stores (R172, R174, R178, R184) -/

/-- A store through an aperture: the buffer drains, the stack controller accepts or refuses it (R174). -/
def Dev.tarnStore (d : Dev) (c a n : Nat) (v : W64) : Dev :=
  let d := d.drainAll c
  let q := d.aptAcc c a n .write
  let pool := (d.desc q.desc).poolOf q.addr
  match d.poolCheck q with
  | some (cause, bad) => (d.poolRefuse q cause bad 0 0).raiseAt c (2, 2) a
  | none =>
    let r := d.deviceReady .write q.desc (linesOf pool n)
    if r.1 then
      ((r.2.dirPerform .write none q.desc (linesOf pool n)).poolWrite pool (natBytes n v.toNat) false).updCore c SpurCore.advance
    else r.2

/-- ST. -/
def execSt (c : Fin 9) (sz : Size) (t a : Fin 32) (off : BitVec 14) (s : State) :=
  s.lift fun d => d.spurInstr c fun d =>
    let k := d.core c
    let x := k.effAddr a off
    match d.memFault c x sz.bytes false true with
    | some f => d.raiseAt c f x
    | none =>
      if addrClass x == .tarn then d.tarnStore c x sz.bytes (k.rdG t)
      else
        let d := if 16 ≤ k.sb.length then d.drainOne c else d
        d.updCore c fun k => { k.advance with sb := k.sb ++ [⟨x, sz.bytes, k.rdG t⟩] }

/-- STX: the buffer drains; the store takes place only under the reservation, which ends either way (R49, R51, R184). -/
def execStx (c : Fin 9) (sz : Size) (t a : Fin 32) (off : BitVec 14) (s : State) :=
  s.lift fun d => d.spurInstr c fun d =>
    let x := (d.core c).effAddr a off
    match d.memFault c x sz.bytes true true with
    | some f => d.raiseAt c f x
    | none =>
      let d := d.drainAll c
      let held := (d.core c).rsv == some (x / 64)
      let d := if held then d.performStore c ⟨x, sz.bytes, (d.core c).rdG t⟩ else d
      d.updCore c fun k => { k.advance with rsv := none, flags := { k.flags with z := held } }

/-- One entry of a store buffer drains when its bank is free. -/
def execStoreBufferDrain (c : Fin 9) (s : State) := s.lift fun d => if d.coreUp then d.drainOne c else d

end Sys2Proof.Machine
end

