-- ==== Sys2Proof/Machine/SpurRows.lean ====
section
/-! DEFINITION. Illegal instructions, mailbox posts, doorbells, watchdogs and the handover of a role (R26, R55, R187, R191 to R195,
R381, R395, R396). -/

namespace Sys2Proof.Machine

open Sys2Proof

/-! ### Illegal instructions -/

/-- The DETAIL of the illegal-instruction exception that a word raises on a Spur core, if it raises one (R26, R62). -/
def illegalDetail (w : Nat) : Option Nat :=
  match decodeRidge w with
  | .error _ => some 0
  | .ok i => if i.notchOnly then some 1 else if i.noBanks then none else some 0

/-- The core fetches a word it may not execute; HADDR holds the word. -/
def execIllegalInstruction (c : Fin 9) (word : W32) (s : State) :=
  s.lift fun d =>
    match illegalDetail word.toNat with
    | some k => d.spurInstr c fun d => d.illegal c k word.toNat
    | none => d

/-! ### Mailbox posts (R55, R381, R384) -/

/-- The queue an opcode belongs to (R385): state, flash, or direct. -/
def stateOp (op : Nat) : Bool := op ∈ [1, 2, 3, 4, 5, 8]
def flashOp (op : Nat) : Bool := op ∈ [0x0A, 0x0B, 0x0C]

/-- A post to a free mailbox: Summit takes it into its queue. -/
def Dev.mbxPost (d : Dev) (b : Nat) (v : W64) : Dev :=
  let d := d.setMbx b { full := true, word := v, reply := none }
  let op := v.toNat % 256
  if stateOp op then { d with summit := { d.summit with stateQ := d.summit.stateQ ++ [⟨b, v, true⟩] } }
  else if flashOp op then { d with summit := { d.summit with flashQ := d.summit.flashQ ++ [⟨b, v, true⟩] } }
  else d

/-- MBX: Z tells whether the post was accepted; m above 3 is a reserved value. A core without a role has no mailbox (DESIGN CHOICE: its
posts end with Z = 0). -/
def execMbx (c : Fin 9) (g : Fin 32) (imm : BitVec 14) (s : State) :=
  s.lift fun d => d.spurInstr c fun d =>
    if 3 < imm.toNat then d.illegal c 0 (wordS 0x0A g imm.toNat)
    else
      let k := d.core c
      let b := k.role * 4 + imm.toNat
      let ok := decide (k.role < 8) && !(d.mbx b).full
      let d := if ok then d.mbxPost b (k.rdG g) else d
      d.updCore c fun k => { k.advance with flags := { k.flags with z := ok } }

/-! ### Doorbell and watchdog -/

/-- The core is out of reset and has not failed. -/
def Dev.coreLive (d : Dev) (c : Nat) : Bool :=
  d.coreUp && match (d.core c).mode with
    | .running | .halted => true
    | _ => false

def Dev.kickDog (d : Dev) (c : Nat) : Dev := if d.coreUp then d.updCore c fun k => { k with kicked := d.timeBase } else d

def execDoorbell (_m : Master) (c : Fin 9) (s : State) := s.lift fun d => d.ringDoorbell c
def execKick (_m : Master) (c : Fin 9) (s : State) := s.lift fun d => d.kickDog c

/-- No KICK for PERIOD × 1,024 tb: the core fails with cause 3. -/
def execWatchdogExpiry (c : Fin 9) (s : State) :=
  s.lift fun d =>
    let p := d.rd SPUR.WDOG.PERIOD c
    if d.coreLive c && decide (p ≠ 0) && decide ((d.core c).kicked + p * 1024 ≤ d.timeBase) then d.coreFail c 3 else d

/-! ### Handovers -/

/-- A handover of core `f` is refused (R195). -/
def Dev.handoverBad (d : Dev) (f : Nat) : Bool :=
  d.spare == 15 || f == d.spare || decide (8 < f) || (d.core f).role == 15 || (d.rd SPUR.HANDOVER.FAILED).testBit f || d.spur.moving.isSome

/-- A planned handover of core `f` starts: it is to take exception 7 (R192). -/
def Dev.startHandover (d : Dev) (f : Nat) : Dev :=
  let d := (d.wr SPUR.HANDOVER.STATE 0 1).updCore f fun k => { k with outgoing := true }
  { d with spur := { d.spur with moving := some (f, false), step := 1, noCopy := false } }

/-- REQUEST: a core's request during FW_ACTIVATE is refused too (R395). -/
def Dev.requestHandover (d : Dev) (m : Master) (f : Nat) : Dev :=
  let d := d.wr SPUR.HANDOVER.FROM 0 f
  let fromCore := match m with | .core _ => true | _ => false
  if d.handoverBad f || (fromCore && d.summit.fw.isSome) then d.wr SPUR.HANDOVER.STATE 0 3 else d.startHandover f

def execRequest (m : Master) (from_ : BitVec 4) (s : State) :=
  s.lift fun d => if d.coreUp then d.requestHandover m from_.toNat else d

/-- YIELD by the outgoing core's handler: the core and the spare stop, their stores drain, and the role moves (R192, R193). -/
def Dev.yieldRole (d : Dev) (m : Master) : Dev :=
  match d.spur.moving, m with
  | some (f, false), .core c =>
    if d.spur.step == 1 && c.val == f && !(d.core f).outgoing then
      let d := (d.settle f).drainAll f
      let d := d.updCore f fun k => { k with mode := .held }
      let d := ((d.settle d.spare).drainAll d.spare).wr SPUR.HANDOVER.STATE 0 2
      { d with spur := { d.spur with step := 2, noCopy := d.summit.fw.isSome } }
    else d
  | _, _ => d

def execYield (m : Master) (s : State) := s.lift fun d => if d.coreUp then d.yieldRole m else d

/-- No YIELD within 4,096 tb of the exception: the outgoing core fails. The record's cause is given no code for this and is free. -/
def execYieldTimeout (s : State) :=
  s.lift fun d =>
    match d.spur.moving with
    | some (f, false) =>
      if d.coreUp && d.spur.step == 1 && !(d.core f).outgoing then
        let x := d.drawNat
        x.2.coreFail f x.1
      else d
    | _ => d

/-- Both SRAMs of core `f` are copied to core `t`, uncorrectable words as poisoned (R193 step 3). -/
def Dev.copySram (d : Dev) (f t : Nat) : Dev :=
  let inC (c a : Nat) : Bool := decide (coreBase c ≤ a) && decide (a < coreBase c + 0x40000)
  let m := (d.mem.filter fun x => inC f x.1).foldl (fun m x => SMap.put Memory.unwritten m (x.1 - coreBase f + coreBase t) x.2)
    (SMap.drop (inC t) d.mem)
  let p := (d.spur.poison.filter fun x => inC f (8 * x.1)).foldl
    (fun p x => SMap.put false p ((8 * x.1 - coreBase f + coreBase t) / 8) x.2) (SMap.drop (fun k => inC t (8 * k)) d.spur.poison)
  { d with mem := m, spur := { d.spur with poison := p } }

/-- Registers of a core that pass with its role (R193 step 4): EVSEL, TARN_APT, PORT_BASE, WDOG, and IMG_AREA unless the spare holds
an image of its own. -/
def Dev.moveRegs (d : Dev) (f t : Nat) (area : Bool) : Dev :=
  let one : List Fld := [SPUR.EVSEL.TILES, SPUR.EVSEL.DUMP, SPUR.EVSEL.SLOT, SPUR.EVSEL.LINK, SPUR.EVSEL.CONTAIN,
    SPUR.PORT_BASE_LO.RID, SPUR.PORT_BASE_HI.BASE, SPUR.WDOG.PERIOD, SPUR.IMG_AREA.STATE_FMT]
    ++ (if area then [SPUR.IMG_AREA.AREA] else [])
  let d := d.forIn' one fun x d => d.wr x t (d.rd x f)
  d.each 16 fun n d => d.forIn' [SPUR.TARN_APT.DESC, SPUR.TARN_APT.VALID, SPUR.TARN_APT.WRITE] fun x d =>
    d.wr x (t * 16 + n) (d.rd x (f * 16 + n))

/-- The role and what R193 step 4 lists beside the registers move from core `f` to core `t`. -/
def Dev.moveRole (d : Dev) (f t : Nat) : Dev :=
  let k := d.core f
  let d := d.updCore t fun x =>
    { x with
      mode := .running, role := k.role, event := k.event ||| x.event, evmask := k.evmask, dl := k.dl, kicked := d.timeBase
      wait := .none }
  d.updCore f fun x => { x with role := 15, event := 0, evmask := 0, dl := [], outgoing := false }

/-- An update ends ABORTED, its RESULT the number of roles moved (R396). -/
def Dev.fwAbort (d : Dev) (f : FwAct) : Dev := { d with summit := { d.summit with fw := none } }.flashEnd 5 f.moved

/-- The end of a move (R193 steps 3 to 5, R395): a core that yielded is free; in an update it is reloaded, else it is the spare, held
at its reset entry (DEDUCED from R395 and R435). -/
def Dev.handoverEnd (d : Dev) (f : Nat) (failed : Bool) : Dev :=
  let t := d.spare
  let role := (d.core f).role
  let new := d.spur.noCopy
  let d := if new then d else d.copySram f t
  let d := (d.moveRegs f t !new).moveRole f t
  let d := if failed then d else (d.coreReset f).updCore f fun k => { k with mode := .held }
  let fw := d.summit.fw.map fun x =>
    { x with moved := x.moved + (if new then 1 else 0), reloading := if failed then x.reloading else some f }
  let d : Dev := { d with summit := { d.summit with fw := fw } }
  let d := (d.wr SPUR.HANDOVER.STATE 0 0).wr SPUR.HANDOVER.SPARE 0 d.findSpare
  let d : Dev := { d with spur := { d.spur with moving := none, step := 0, noCopy := false } }
  let d := d.cairnPush 0x07 t 4 f role
  let d := d.takeAsync t 7 0 0 (d.core t).pc (BitVec.ofNat 64 f)
  match d.summit.fw with
  | some x => if x.aborted then d.fwAbort x else d
  | none => d

def execHandoverDone (s : State) :=
  s.lift fun d =>
    match d.spur.moving with
    | some (f, failed) => if d.coreUp && d.spur.step == 2 then d.handoverEnd f failed else d
    | none => d

/-! ### Firmware update (R395 to R397) -/

/-- Step 5 of R395: the directory names the slot, the task-state format is the new image's, every doorbell rings. -/
def Dev.fwFinish (d : Dev) (f : FwAct) (im : Image) : Dev :=
  let d := ((d.setDirBit 2 f.slot).wr SUMMIT.BOOT_STATUS.FOOTHILL_SLOT 0 f.slot).setStateFmt im.stateVer
  let d := d.each 9 fun c d => d.ringDoorbell c
  ({ d with summit := { d.summit with
    fw := none, stateVer := im.stateVer, svnRun := SMap.put 0 d.summit.svnRun 3 im.svn } } : Dev).flashEnd 0 8

/-- The next role of an update: the first from `r` on that a core holds. -/
def Dev.nextRole (d : Dev) (r : Nat) : Option Nat := (List.range 8).find? fun x => decide (r ≤ x) && (d.coreOfRole x).isSome

/-- The update goes on with its next role, or has moved all. -/
def Dev.fwNext (d : Dev) (f : FwAct) (im : Image) : Dev :=
  match d.nextRole f.moved with
  | none => d.fwFinish f im
  | some r =>
    let d : Dev := { d with summit := { d.summit with fw := some { f with moved := r, reloading := none } } }
    match d.coreOfRole r with
    | some c => d.startHandover c
    | none => d

/-- The image of a Foothill slot goes to a core and the core's IMG_AREA names the area (R393, R395). -/
def Dev.fwLoad (d : Dev) (im : Image) (c area : Nat) : Dev :=
  (d.loadCore im c).wr SPUR.IMG_AREA.AREA c area

/-- A freed core is reloaded and verified from flash (R395): `ok` if the read succeeds. -/
def execSpareReloadDone (ok : Bool) (s : State) :=
  s.lift fun d =>
    match d.summit.fw with
    | none => d
    | some f =>
      match f.reloading with
      | none => d
      | some c =>
        match (if ok then d.slotImage (4 + f.slot) 3 else none) with
        | none => (d.updCore c fun k => { k with unfit := true }).fwAbort f
        | some im =>
          let d := d.fwLoad im c f.area
          let d : Dev := { d with summit := { d.summit with fw := some { f with reloading := none } } }
          let d := d.wr SPUR.HANDOVER.SPARE 0 d.findSpare
          if f.aborted then d.fwAbort f else d.fwNext f im

/-- FW_ACTIVATE: refused for an image that fails R372 or cannot read the running format, without a spare, or while a handover runs
(R395). -/
def execFwActivate (r : Fin 8) (m : Fin 4) (s : State) :=
  s.lift fun d =>
    let b := r.val * 4 + m.val
    if d.coreUp && d.posted b 0x0B && d.flashTurn b then
      let slot := mbxArg (d.mbx b).word % 2
      match d.slotImage (4 + slot) 3 with
      | none => d.flashEnd 2 0
      | some im =>
        if decide (d.summit.stateVer < im.stateMin) || d.spare == 15 || d.spur.moving.isSome then d.flashEnd 2 0
        else
          let old := match d.nextRole 0 with
            | some r => d.rd SPUR.IMG_AREA.AREA ((d.coreOfRole r).getD 0)
            | none => 0
          let f : FwAct := { box := b, slot := slot, moved := 0, area := 1 - old, aborted := false, reloading := none }
          let d : Dev := { d with summit := { d.summit with flashRun := true } }
          ((d.loadArea im f.area).fwLoad im d.spare f.area).fwNext f im
    else d

end Sys2Proof.Machine
end

