-- ==== Sys2Proof/Machine/Summit.lean ====
section
/-! DEFINITION. Summit's rows: direct commands, the state and flash queues, quiesce timers, debug grants, flash service (R141, R145,
R150, R167, R373, R380, R382 to R394, R448, R451). -/

namespace Sys2Proof.Machine

open Sys2Proof

/-- Mailbox `m` of role `r`. -/
def boxOf (r : Fin 8) (m : Fin 4) : Nat := r.val * 4 + m.val

/-- A direct command of a mailbox. -/
def Dev.direct (d : Dev) (b op : Nat) (f : W64 → Dev → Dev) : Dev :=
  if d.summitUp && d.posted b op then f (d.mbx b).word d else d

/-- A command at the front of the state queue. -/
def Dev.inStateQ (d : Dev) (b op : Nat) (f : W64 → Dev → Dev) : Dev :=
  if d.summitUp && d.posted b op && d.stateTurn b then f (d.mbx b).word d else d

/-- A command at the front of the flash queue. -/
def Dev.inFlashQ (d : Dev) (b op : Nat) (f : W64 → Dev → Dev) : Dev :=
  if d.summitUp && d.posted b op && d.flashTurn b then f (d.mbx b).word d else d

/-! ### Direct commands -/

def execPing (r : Fin 8) (m : Fin 4) (s : State) :=
  s.lift fun d => d.direct (boxOf r m) 0x00 fun _ d => d.mbxReply (boxOf r m) 0 0

/-- The opcode is listed in R385 or R426. -/
def knownOp (op : Nat) : Bool := decide (op ≤ 0x0C) || decide (0x20 ≤ op ∧ op ≤ 0x24)

/-- A post with an unassigned opcode. -/
def execUnknownOp (r : Fin 8) (m : Fin 4) (s : State) :=
  s.lift fun d =>
    let b := boxOf r m
    let op := (d.mbx b).word.toNat % 256
    if d.summitUp && d.posted b op && !knownOp op then d.mbxReply b 6 0 else d

/-- The target that ARG names (R386): tenant n at n, VF v at 512 + v. -/
def deadlineTarget (arg : Nat) : Nat := arg % 512 + bits arg 9 1 * 512

def Dev.setTimer (d : Dev) (t v : Nat) : Dev := { d with summit := { d.summit with timers := SMap.put 0 d.summit.timers t v } }

/-- A quiesce timer: the deadline in ms + 10 ms (R386). -/
def Dev.armTimer (d : Dev) (t ms : Nat) : Dev := d.setTimer t (d.timeBase + (ms + 10) * 250000)

def execDeadlineArm (r : Fin 8) (m : Fin 4) (s : State) :=
  s.lift fun d => d.direct (boxOf r m) 0x06 fun w d =>
    (d.armTimer (deadlineTarget (mbxArg w)) (bits (mbxArg w) 16 16)).mbxReply (boxOf r m) 0 0

def execDeadlineDone (r : Fin 8) (m : Fin 4) (s : State) :=
  s.lift fun d => d.direct (boxOf r m) 0x07 fun w d =>
    (d.setTimer (deadlineTarget (mbxArg w)) 0).mbxReply (boxOf r m) 0 0

/-- SHUTDOWN replies OK and then requests the power-down (R451). -/
def execShutdown (r : Fin 8) (m : Fin 4) (s : State) :=
  s.lift fun d => d.direct (boxOf r m) 0x09 fun _ d => (d.mbxReply (boxOf r m) 0 0).pdRequest

/-- The reply's halves (R382): LO latches HI, HI consumes the reply; a core that does not hold the role reads zero and consumes nothing,
and so does every other master (DEDUCED). Answers the value read. -/
def Dev.replyRead (d : Dev) (m : Master) (b : Nat) (hi : Bool) : Nat × Dev :=
  let holds := match m with
    | .core c => (d.core c).role == b / 4
    | _ => false
  match (d.mbx b).reply with
  | some v => if holds then (if hi then (v / 2 ^ 32, d.setMbx b {}) else (v % 2 ^ 32, d)) else (0, d)
  | none => (0, d)

def execMbxRplyRead (c : Master) (r : Fin 8) (m : Fin 4) (s : State) :=
  s.lift fun d =>
    if d.vauxUp then
      let x := d.replyRead c (boxOf r m) true
      x.2.emit (.access c .ok x.1)
    else d

/-! ### The state queue -/

/-- A warm reset: no reply is given (R385, R448). -/
def execWarmReset (r : Fin 8) (m : Fin 4) (s : State) :=
  s.lift fun d => d.inStateQ (boxOf r m) 0x08 fun _ d => d.warmReset 1

/-- REGION_COMMIT: words 0 to 5 from TARN.DESC_STAGE, the key block at PTR (R385, R388). -/
def execRegionCommit (r : Fin 8) (m : Fin 4) (s : State) :=
  s.lift fun d => d.inStateQ (boxOf r m) 0x02 fun w d =>
    d.commitAsk (boxOf r m) (mbxArg w % 4096) (Desc.ofWords fun i => d.rd TARN.DESC_STAGE.W i) (some (bits w.toNat 16 16 * 64))

/-- RECOLOUR: four words at PTR (R385; their packing in 32-bit words is PRESUMED). -/
def execRecolour (r : Fin 8) (m : Fin 4) (s : State) :=
  s.lift fun d => d.inStateQ (boxOf r m) 0x03 fun w d =>
    d.recolourAsk (boxOf r m) (d.param w 0) (d.param w 1) (d.param w 2 % 16) (bits (d.param w 3) 0 1 == 1)

/-- No write of TARN.PART is taken: a descriptor is valid or a tile holds Scree segments (R141). -/
def Dev.partLive (d : Dev) : Bool := (d.tarn.descs.any fun x => x.2.valid) || decide (0 < d.screeUsed)

/-- PARTITION (R141). -/
def execPartition (r : Fin 8) (m : Fin 4) (s : State) :=
  s.lift fun d => d.inStateQ (boxOf r m) 0x04 fun w d =>
    if d.summit.tarnInit then d.stateEnd (boxOf r m) 3 0
    else if d.partLive then d.stateEnd (boxOf r m) 2 0
    else
      let d := (d.wr TARN.PART.SPARE 0 (mbxArg w % 2048)).wr TARN.PART.SCREE_GIB 0 (bits (mbxArg w) 11 5)
      (d.wr TARN.REGION_TOP.GRANULES 0 (d.regionTop (d.rd TARN.EVAC_STATUS.COUNT))).stateEnd (boxOf r m) 0 0

/-- EVACUATE (R167): refused while one runs, after 8, for a pseudo-channel already evacuated, or with an owned granule in the stripes. -/
def execEvacuate (r : Fin 8) (m : Fin 4) (s : State) :=
  s.lift fun d => d.inStateQ (boxOf r m) 0x05 fun w d =>
    let g := mbxArg w % 256
    let top := d.regionTop (d.rd TARN.EVAC_STATUS.COUNT + 1)
    if d.summit.tarnInit then d.stateEnd (boxOf r m) 3 0
    else
      let d := d.wr TARN.EVAC_STATUS.PC 0 g
      if d.tarn.evac.isSome || decide (8 ≤ d.rd TARN.EVAC_STATUS.COUNT) || d.tarn.evacuated.contains g ||
          !(SMap.keys (fun k o => decide (top ≤ k) && o.owned) d.tarn.own).isEmpty then
        (d.wr TARN.EVAC_STATUS.STATE 0 3).stateEnd (boxOf r m) 2 0
      else
        let d := (d.wr TARN.REGION_TOP.GRANULES 0 top).wr TARN.EVAC_STATUS.STATE 0 1
        ({ d with tarn := { d.tarn with evac := some (g, boxOf r m) } } : Dev).stateStart

/-! ### The flash queue (R373, R394) -/

/-- FW_STAGE: TYPE, region descriptor, offset and length at PTR; the image is read with the checks of a Spur access. A refused or poisoned
read ends it with REFUSED; a line under snoop makes it wait. -/
def execFwStage (r : Fin 8) (m : Fin 4) (s : State) :=
  s.lift fun d => d.inFlashQ (boxOf r m) 0x0A fun w d =>
    let type := d.param w 0
    let i := d.param w 1 % 4096
    let len := d.param w 3
    let cap := if type = 1 then 262144 else 2097152
    if (type ≠ 1 ∧ type ≠ 3) ∨ len = 0 ∨ cap < len then d.flashEnd 1 0
    else
      let q : PoolAcc := { desc := i, tenant := none, key := none, host := none, device := true,
                           addr := (d.desc i).hbase + d.param w 2, len := len, op := .read }
      match d.poolCheck q with
      | some (cause, bad) => (d.poolRefuse q cause bad 0 0).flashEnd 2 0
      | none =>
        let pool := (d.desc i).poolOf q.addr
        let x := d.deviceReady .read i (linesOf pool len)
        if x.1 then
          let bs := x.2.poolRead pool len
          if bs.2 then x.2.flashEnd 2 0
          else
            let slot := if type = 1 then 1 - d.rd SUMMIT.BOOT_STATUS.SUMMIT_SLOT else 5 - d.dirBit 2
            { x.2 with summit := { x.2.summit with
              flash := SMap.put none x.2.summit.flash slot none, flashRun := true
              staging := some ⟨slot, Image.ofBytes bs.1, true⟩ } }
        else x.2

/-- Programming and read-back of a staged image end; `ok` if the flash took it (R394). -/
def execFwStageDone (ok : Bool) (s : State) :=
  s.lift fun d =>
    match d.summit.staging with
    | none => d
    | some x =>
      let good := ok && d.imageOk (x.slot / 2 + 1) x.image
      let d : Dev := { d with summit := { d.summit with
        staging := none, flash := SMap.put none d.summit.flash x.slot (if ok then some x.image else none) } }
      let d := if good && x.slot / 2 == 0 then d.setDirBit 3 1 else d
      if x.byMailbox then d.flashEnd (if good then 0 else 2) 0 else d

/-- SVN_COMMIT: the fuse version of TYPE rises to that of the running image (R373). -/
def execSvnCommit (r : Fin 8) (m : Fin 4) (s : State) :=
  s.lift fun d => d.inFlashQ (boxOf r m) 0x0C fun w d =>
    let type := mbxArg w % 4
    if type = 0 then d.flashEnd 1 0
    else
      let v := max (SMap.get 0 d.summit.fuseSvn type) (SMap.get 0 d.summit.svnRun type)
      ({ d with summit := { d.summit with fuseSvn := SMap.put 0 d.summit.fuseSvn type v } } : Dev).showSvn.flashEnd 0 0

/-- The board management controller writes a flash slot (R380): with I3C_FLASH or at STAGE 15; a slot that verifies is named by the
directory. -/
def execI3cFlashWrite (slot : Fin 6) (data : List Byte) (s : State) :=
  s.lift fun d =>
    let may := (d.summit.policy.any fun p => p.i3cFlash) || d.rd SUMMIT.BOOT_STATUS.STAGE == 15
    if d.vauxUp && may then
      let im := Image.ofBytes data
      let d : Dev := { d with summit := { d.summit with flash := SMap.put none d.summit.flash slot (some im) } }
      if d.imageOk (slot.val / 2 + 1) im then d.setDirBit (slot.val / 2) (slot.val % 2) else d
    else d

/-! ### Forced quiesce (R219, R220, R386) -/

/-- Contexts that a target's outstanding requests hold: those charged to a tenant; those of a VF's engine reads. -/
def Dev.targetCtxs (d : Dev) (t : Nat) : List Nat :=
  if t < 512 then
    SMap.keys (fun _ e => match e with | some c => c.tenant == t && c.user != .queue | none => false) d.trv.ctx
  else (d.targetQueues t).flatMap fun q => match (d.queue q).xfer with
    | some x => x.reads.filterMap fun r => r.ctx
    | none => []

/-- Summit forces quiesce: remaining transfers are cancelled, outstanding requests are completed toward their requesters and
quarantined, a tenant freezes with cause 4, Foothill posts event 3, and a QUIESCE still waiting has missed its deadline. -/
def Dev.forceQuiesce (d : Dev) (t : Nat) : Dev :=
  let cs := d.targetCtxs t
  let d := (d.cancelTarget t).forIn' cs fun i d => d.failCtx i
  let d := d.when (decide (t < 512)) fun d => d.tenantFreeze t 4
  let d := d.markQuiesced t
  let zs := d.trv.quiesces.filter fun z => z.target == t
  let d : Dev := { d with trv := { d.trv with quiesces := d.trv.quiesces.filter fun z => z.target != t } }
  let d := d.forIn' zs fun z d => d.mgrReply z.source 6 0
  if t < 512 then d.postEvent 3 t 0 else d.postEvent 3 (d.rd FN.VF_BIND.TENANT (t - 512)) (t - 512)

/-- A Summit timer expires: target tenant n at n, VF v at 512 + v. -/
def execForcedQuiesce (t : Fin 1024) (s : State) :=
  s.lift fun d =>
    let v := SMap.get 0 d.summit.timers t
    if d.coreUp && decide (v ≠ 0) && decide (v ≤ d.timeBase) then (d.setTimer t 0).forceQuiesce t else d

/-! ### Debug grants (R389 to R392) -/

/-- The 368 bytes of the token window. -/
def Dev.token (d : Dev) : List Byte := (List.range 92).flatMap fun i => natBytes 4 (d.rd SUMMIT.DBG_TOKEN.V i)

/-- Why a token is refused (GRANT_STATUS.REASON), if it is. -/
def Dev.tokenBad (d : Dev) (t : List Byte) : Option Nat :=
  let n := fieldAt t 24 2
  let macOk (i : Nat) : Bool := match d.lockKey (fieldAt t (32 + 36 * i) 4) with
    | some k => Config.tokenMacOk (t.take 16 ++ (t.drop (32 + 36 * i)).take 36) k
    | none => false
  let allowed := match d.summit.policy with | some p => p.debugScopes | none => 0
  let scope := fieldAt t 16 4
  let dur := fieldAt t 20 4
  if fieldAt t 0 8 ≠ Config.serial then some 1
  else if fieldAt t 8 8 ≠ d.rd SUMMIT.DBG_NONCE_LO.V + 2 ^ 32 * d.rd SUMMIT.DBG_NONCE_HI.V then some 2
  else if !Config.tokenKeyOk t then some 3
  else if !Config.tokenSigOk t then some 4
  else if 4 < n ∨ ¬(List.range n).all macOk then some 5
  else if scope &&& allowed ≠ scope then some 6
  else if dur < 1 ∨ 86400 < dur then some 7
  else none

/-- The end of a grant; after scan a cold reset follows (R392). -/
def Dev.grantEnd (d : Dev) : Dev :=
  if d.summit.grant.isSome then
    if d.summit.scanned then d.dropGrant.coldReset 5 else d.dropGrant
  else d

/-- SUBMIT: Summit accepts or refuses the token and replaces the nonce. -/
def Dev.submit (d : Dev) : Dev :=
  let t := d.token
  match d.tokenBad t with
  | some k => ((d.setOn SUMMIT.GRANT_STATUS.REFUSED 0 true).wr SUMMIT.GRANT_STATUS.REASON 0 k).newNonce
  | none =>
    -- a scanned device goes into cold reset with the end of the grant, and the new grant ends with it
    if d.summit.grant.isSome && d.summit.scanned then d.grantEnd
    else
      let d := d.dropGrant
      let dur := fieldAt t 20 4
      let g : Grant := { scope := fieldAt t 16 4, locked := (List.range (fieldAt t 24 2)).map fun i => fieldAt t (32 + 36 * i) 4,
                         ends := d.timeBase + dur * 250000000 }
      let d : Dev := { d with summit := { d.summit with grant := some g } }
      let d := (d.setOn SUMMIT.GRANT_STATUS.ACTIVE 0 true).wr SUMMIT.GRANT_STATUS.SCOPE 0 g.scope
      let d := (d.setOn SUMMIT.GRANT_STATUS.REFUSED 0 false).wr SUMMIT.GRANT_STATUS.REASON 0 0
      (d.wr SUMMIT.GRANT_STATUS.REMAIN 0 dur).newNonce

def execSubmit (_m : Master) (s : State) := s.lift fun d => if d.summitUp then d.submit else d
def execEndGrant (_m : Master) (s : State) := s.lift fun d => if d.summitUp then d.grantEnd else d

/-- DURATION runs out. -/
def execGrantExpiry (s : State) :=
  s.lift fun d =>
    match d.summit.grant with
    | some g => if g.ends ≤ d.timeBase then d.grantEnd else d
    | none => d

end Sys2Proof.Machine
end

