-- ==== Sys2Proof/Machine/Bist.lean ====
section
/-! DEFINITION. Self-test, repair and return to service (15_bist_service_repair R422 to R437). -/

namespace Sys2Proof.Machine

open Sys2Proof

/-! ### Tests (R422, R424, R425) -/

def BTest.at_ (t : BTest) (kind i : Nat) : Bool := t.kind == kind && t.index == i

/-- Targets and mask bits of a kind. -/
def bistTargets (kind : Nat) : Nat := match kind with | 0 => 16 | 1 => 4 | 2 => 9 | _ => 32
def bistParts (kind : Nat) : Nat := if kind = 0 then 16 else 4

/-- BIST power in tenths of a watt. -/
def bistPower (kind : Nat) : Nat := match kind with | 0 => 224 | 1 => 160 | 2 => 16 | _ => 10

/-- The target meets its precondition. -/
def Dev.bistReady (d : Dev) (kind i : Nat) : Bool :=
  match kind with
  | 0 => true
  | 1 => decide (2 ≤ d.rd PLANE.STATUS.STATE i)
  | 2 => (d.rd SPUR.HANDOVER.FAILED).testBit i
  | _ => (d.rd TRV.ENG_STATUS.FAULTED).testBit i

/-- The result kept of a target's last test: 1 passed, 2 passed with LOGIC and MEMORY, 3 did not pass. -/
def Dev.setTested (d : Dev) (kind i r : Nat) : Dev :=
  { d with bist := { d.bist with last := SMap.put 0 d.bist.last (kind * 256 + i) r } }

/-- Power of the tests that run, in tenths of a watt. -/
def Dev.bistDraw (d : Dev) : Nat := d.bist.running.foldl (fun n t => n + bistPower t.kind) 0

/-- A bit for each running test of a kind. -/
def Dev.bistBits (d : Dev) (kind : Nat) : Nat :=
  d.bist.running.foldl (fun n t => if t.kind = kind then n ||| 2 ^ t.index else n) 0

/-- BIST.STATUS and BIST.POWER show the tests that run and wait. -/
def Dev.bistShow (d : Dev) : Dev :=
  let d := ((d.wr BIST.STATUS.TILES 0 (d.bistBits 0)).wr BIST.STATUS.PLANES 0 (d.bistBits 1)).wr BIST.STATUS.CORES 0 (d.bistBits 2)
  let d := d.setOn BIST.STATUS.ENGINE 0 (decide (d.bistBits 3 ≠ 0))
  (d.wr BIST.POWER.RUNNING_W 0 ((d.bistDraw + 9) / 10)).wr BIST.POWER.WAITING 0 d.bist.waiting.length

/-- BIST_START (R426): BAD_ARG for its arguments, REFUSED for its precondition, BUSY behind 8 that wait; else it waits. -/
def execBistStart (r : Fin 8) (m : Fin 4) (s : State) :=
  s.lift fun d => d.direct (boxOf r m) 0x20 fun w d =>
    let b := boxOf r m
    let a := mbxArg w
    let kind := a % 16
    let i := bits a 4 8
    let mask := bits a 12 4
    if (d.bist.running ++ d.bist.waiting).any fun t => t.box == b then d
    else if decide (3 < kind) || decide (bistTargets kind ≤ i) || mask == 0 || decide (bistParts kind ≤ mask) then d.mbxReply b 1 0
    else if !d.bistReady kind i then d.mbxReply b 2 0
    else if 8 ≤ d.bist.waiting.length then d.mbxReply b 3 0
    else
      let t : BTest := ⟨kind, i, mask, b, bits w.toNat 8 8, bits w.toNat 16 16 * 64⟩
      ({ d with bist := { d.bist with waiting := d.bist.waiting ++ [t] } } : Dev).bistShow

/-- The scheduler may admit a test whose elders in the wait are `before`. -/
def Dev.bistFits (d : Dev) (before : List BTest) (t : BTest) : Bool :=
  let same (k : Nat) : Nat := (d.bist.running.filter fun x => x.kind == k).length
  decide (d.bistDraw + bistPower t.kind ≤ d.rd BIST.BUDGET.WATTS * 10) &&
    !(t.kind == 0 && decide (2 ≤ same 0)) && !(t.kind == 1 && decide (1 ≤ same 1)) &&
    !((d.bist.running ++ before).any fun x => x.at_ t.kind t.index)

/-- The oldest waiting test that can be admitted. -/
def Dev.bistNext (d : Dev) : List BTest → List BTest → Option BTest
  | _, [] => none
  | before, t :: ts => if d.bistFits before t then some t else Dev.bistNext d (before ++ [t]) ts

/-! ### Repair (R429 to R433) -/

def instClass (n : Nat) : Nat := n / 2 ^ 12 % 16
def instBlock (n : Nat) : Nat := bits n 6 6

/-- The code names a memory instance (R429). -/
def instOk (n : Nat) : Bool :=
  let lim : Nat × Nat := match instClass n with
    | 1 => (16, 32) | 2 => (16, 3) | 3 => (16, 2) | 4 => (4, 1) | 5 => (4, 16) | 6 => (1, 16) | 7 => (9, 1) | 8 => (9, 2)
    | 9 => (1, 16) | 10 => (32, 1) | _ => (0, 0)
  decide (instBlock n < lim.1) && decide (n % 64 < lim.2)

/-- Spare rows of an instance, and those still free. -/
def instSpares (n : Nat) : Nat := if instClass n = 1 then 8 else 4
def Dev.sparesLeft (d : Dev) (n : Nat) : Nat :=
  instSpares n - ((d.bist.soft ++ d.bist.fused.filter fun x => !d.bist.soft.contains x).filter fun x => x.inst == n).length

/-- The row is repaired. -/
def Dev.repaired (d : Dev) (x : MemRow) : Bool := d.bist.soft.contains x || d.bist.fused.contains x

/-- REPAIR_STATUS counts the table and the fuses. -/
def Dev.repairShow (d : Dev) : Dev :=
  (d.wr BIST.REPAIR_STATUS.SOFT 0 d.bist.soft.length).wr BIST.REPAIR_STATUS.FUSED 0 d.bist.fused.length

/-- A soft repair is made, or not for want of a spare row or of a place in the table (R430): whether a spare was free, and whether the row is
repaired. -/
def Dev.softRepairDo (d : Dev) (x : MemRow) : (Bool × Bool) × Dev :=
  if d.repaired x then ((true, true), d)
  else if d.sparesLeft x.inst = 0 then ((false, false), d)
  else if 2048 ≤ d.bist.soft.length then ((false, false), d.setOn BIST.REPAIR_STATUS.FULL 0 true)
  else ((true, true), ({ d with bist := { d.bist with soft := d.bist.soft ++ [x] } } : Dev).repairShow)

/-- The block of the instance is out of service, so its memories are idle (R433). -/
def Dev.instIdle (d : Dev) (n : Nat) : Bool :=
  match instClass n with
  | 1 | 2 | 3 => d.on CTN.TILE_STATUS.FROZEN (instBlock n) && d.tileRst (instBlock n) != 0
  | 4 => d.bistReady 1 (instBlock n)
  | 7 | 8 => d.bistReady 2 (instBlock n)
  | 10 => d.bistReady 3 (instBlock n)
  | _ => false

/-- The row is copied and remapped, and whoever waits for it is answered: REFUSED where the repair is not made (PRESUMED). -/
def Dev.softRepairCopy (d : Dev) (x : MemRow) : Dev :=
  let ws := d.bist.pend.filter fun q => q.row == x
  let y := d.softRepairDo x
  let d : Dev := { y.2 with bist := { y.2.bist with pend := y.2.bist.pend.filter fun q => q.row != x } }
  d.forIn' ws fun q d => match q.box with
    | some b => d.mbxReply b.1 (if y.1.2 then 0 else 2) 0
    | none => d

/-- Repairs that wait for a block now idle are made (R433). -/
def Dev.repairIdle (d : Dev) : Dev :=
  if d.summitUp then d.forIn' (d.bist.pend.filter fun q => d.instIdle q.row.inst) fun q d => d.softRepairCopy q.row else d

/-! ### Secrets and patterns (R423, R434) -/

/-- Summit zeroises the range and tenant tables of a tile and the IDE keys of its ports. -/
def Dev.tileZeroise (d : Dev) (t : Nat) : Dev :=
  { d with
    notch := { d.notch with range := SMap.drop (fun k => k / 4096 == t) d.notch.range
                            tenant := SMap.drop (fun k => k / 512 == t) d.notch.tenant }
    summit := { d.summit with ideKeys := SMap.drop (fun k => k / 32 == t) d.summit.ideKeys } }

/-- A free test pattern in one exact-match entry, in one program word, in one selector word. -/
def Dev.patternExact (d : Dev) (t slot : Nat) : Dev :=
  let k := d.drawNat
  let v := k.2.draw
  let f := v.2.drawNat
  f.2.setExact t slot ⟨k.1 % 2 ^ 88, v.1, f.1 % 2 == 1, false⟩
def Dev.patternWord (d : Dev) (k : Nat) : Dev :=
  let x := d.drawNat
  let y := x.2
  { y with notch := { y.notch with prog := SMap.put 0 y.notch.prog k (x.1 % 2 ^ 32) } }
def Dev.patternSel (d : Dev) (k : Nat) : Dev :=
  let x := d.drawNat
  let y := x.2
  { y with notch := { y.notch with sel := SMap.put 0 y.notch.sel k (x.1 % 2 ^ 32) } }

/-- TABLES leaves test patterns in the exact-match table and in both program banks, which are unchecked again. -/
def Dev.tablesPattern (d : Dev) (t : Nat) : Dev :=
  let d := d.each 65536 fun i d => d.patternExact t i
  let d := d.each 512 fun i d => d.patternWord (t * 512 + i)
  let d := d.each 64 fun i d => d.patternSel (t * 64 + i)
  d.each 2 fun b d => d.setBankState t b 0

/-- MEMORY leaves a core's SRAMs with values that no rule states. -/
def Dev.sramPattern (d : Dev) (c : Nat) : Dev :=
  let d := d.each 0x40000 fun i d =>
    if i < 0x10000 ∨ 0x20000 ≤ i then
      let x := d.drawNat
      x.2.setByte (coreBase c + i) (BitVec.ofNat 8 x.1)
    else d
  { d with spur := { d.spur with poison := SMap.drop (fun k => decide (coreBase c / 8 ≤ k) && decide (k < (coreBase c + 0x40000) / 8))
                                   d.spur.poison } }

/-- A test starts: the tile freezes, its reset starts and its secrets go (R434). -/
def Dev.bistBegin (d : Dev) (t : BTest) : Dev :=
  match t.kind with
  | 0 =>
    let d := (((d.tileFreeze t.index 1).tileResetStart t.index).setTileRst t.index 4).repairIdle
    let d := d.when (t.mask.testBit 0 || t.mask.testBit 2) fun d => d.tileZeroise t.index
    d.when (t.mask.testBit 2) fun d => d.tablesPattern t.index
  | 2 => d.when (t.mask.testBit 1) fun d => d.sramPattern t.index
  | _ => d

/-- A waiting test is admitted: one whose precondition no longer holds is refused, else it runs. -/
def execBistAdmit (s : State) :=
  s.lift fun d =>
    if d.summitUp && d.coreUp then
      match d.bistNext [] d.bist.waiting with
      | none => d
      | some t =>
        let d : Dev := { d with bist := { d.bist with waiting := d.bist.waiting.erase t } }
        if d.bistReady t.kind t.index then
          (({ d with bist := { d.bist with running := d.bist.running ++ [t] } } : Dev).bistShow).bistBegin t
        else d.bistShow.mbxReply t.box 2 0
    else d

/-! ### SOFT_REPAIR and FUSE_REPAIR (R426, R430 to R433) -/

/-- SOFT_REPAIR: at once where the row is repaired or the block is idle, else it waits for the idle window. ARG has 32 bits: the row is
taken from its bits above the instance (DEDUCED). -/
def execSoftRepair (r : Fin 8) (m : Fin 4) (s : State) :=
  s.lift fun d => d.direct (boxOf r m) 0x22 fun w d =>
    let b := boxOf r m
    let x : MemRow := ⟨mbxArg w % 65536, bits (mbxArg w) 16 16⟩
    if d.bist.pend.any fun q => q.box == some (b, bits w.toNat 8 8) then d
    else if !instOk x.inst then d.mbxReply b 1 0
    else if d.repaired x then d.mbxReply b 0 0
    else
      let d : Dev := { d with bist := { d.bist with pend := d.bist.pend ++ [⟨x, some (b, bits w.toNat 8 8)⟩] } }
      if d.instIdle x.inst then d.softRepairCopy x else d

/-- The idle window, or the forced one, of a repair that was asked for (`why` 0), that CE_ROW.LIMIT corrected errors started (1), or an
uncorrectable error (2). -/
def execSoftRepairCopy (inst : BitVec 16) (row : BitVec 24) (why : Fin 3) (s : State) :=
  s.lift fun d =>
    let x : MemRow := ⟨inst.toNat, row.toNat⟩
    let due := (d.bist.pend.any fun q => q.row == x) || why == 2 || (why == 1 && d.rd BIST.CE_ROW.LIMIT != 0)
    if d.summitUp && instOk x.inst && due then d.softRepairCopy x else d

/-- FUSE_REPAIR: every soft repair not fused is copied into the fuses while they have room; REFUSED if one finds none (PRESUMED). -/
def execFuseRepair (r : Fin 8) (m : Fin 4) (s : State) :=
  s.lift fun d => d.direct (boxOf r m) 0x23 fun _ d =>
    let new := d.bist.soft.filter fun x => !d.bist.fused.contains x
    let n := 2048 - d.bist.fused.length
    let more := decide (n < new.length)
    let d : Dev := { d with bist := { d.bist with fused := d.bist.fused ++ new.take n } }
    (d.repairShow.when more fun d => d.setOn BIST.REPAIR_STATUS.FULL 0 true).mbxReply (boxOf r m) (if more then 2 else 0) 0

/-! ### The end of a test (R427, R428, R431) -/

/-- A result record of 16 bytes. -/
def bistRecord (f : BistFail) (able done : Bool) (left : Nat) : List Byte :=
  natBytes 8 (f.inst.toNat + f.addr.toNat * 2 ^ 16 + f.bit.toNat * 2 ^ 40 + f.part.val * 2 ^ 50 + able.toNat * 2 ^ 54 + done.toNat * 2 ^ 55 +
    left % 256 * 2 ^ 56) ++ natBytes 8 f.time.toNat

/-- Failure `n` of a test: repaired where MEMORY or TABLES of a tile found it, and recorded among the first 16. Answers whether it is
repaired. -/
def Dev.bistFailure (d : Dev) (t : BTest) (n : Nat) (f : BistFail) : Bool × Dev :=
  let mem := f.part == 1 || (t.kind == 0 && f.part == 2)
  let x := if mem then d.softRepairDo ⟨f.inst.toNat, f.addr.toNat⟩ else ((false, false), d)
  let d := if n < 16 then x.2.spurStore (t.ptr + 16 * n) (bistRecord f x.1.1 x.1.2 (if mem then x.2.sparesLeft f.inst.toNat else 0)) else x.2
  (x.1.2, d)

/-- The failures in order: whether all are repaired. -/
def Dev.bistFailures (d : Dev) (t : BTest) : Nat → List BistFail → Bool × Dev
  | _, [] => (true, d)
  | n, f :: fs =>
    let x := d.bistFailure t n f
    let y := Dev.bistFailures x.2 t (n + 1) fs
    (x.1 && y.1, y.2)

/-- The test leaves the list of those that run. -/
def Dev.bistStop (d : Dev) (t : BTest) : Dev :=
  ({ d with bist := { d.bist with running := d.bist.running.erase t } } : Dev).bistShow

/-- A test ends: its failures are repaired and recorded, its result is kept, a tile's reset ends, and BIST_START is answered. -/
def execBistEnd (kind : Fin 4) (i : Fin 32) (failures : List BistFail) (s : State) :=
  s.lift fun d =>
    match d.bist.running.find? fun t => t.at_ kind i with
    | none => d
    | some t =>
      let fs := failures.filter fun f => t.mask.testBit f.part
      let x := d.bistFailures t 0 fs
      let lane := fs.any fun f => t.kind == 0 && f.part == 3
      let d := x.2.bistStop t
      let d := d.setTested kind i (if x.1 then (if t.mask % 4 = 3 then 2 else 1) else 3)
      let d := d.when (t.kind == 0) fun d => d.setTileRst i 3
      d.mbxReply t.box 0 (fs.length % 65536 + x.1.toNat * 2 ^ 16 + lane.toNat * 2 ^ 17)

/-- BIST_ABORT: its BIST_START replies ABORTED; a tile stays in reset; the target has not passed. A request for a target under no test is
BAD_ARG (PRESUMED). -/
def execBistAbort (r : Fin 8) (m : Fin 4) (s : State) :=
  s.lift fun d => d.direct (boxOf r m) 0x21 fun w d =>
    let kind := mbxArg w % 16
    let i := bits (mbxArg w) 4 8
    match d.bist.running.find? fun t => t.at_ kind i with
    | some t => (((d.bistStop t).setTested kind i 3).mbxReply t.box 5 0).mbxReply (boxOf r m) 0 0
    | none =>
      match d.bist.waiting.find? fun t => t.at_ kind i with
      | some t =>
        let d : Dev := { d with bist := { d.bist with waiting := d.bist.waiting.erase t } }
        (d.bistShow.mbxReply t.box 5 0).mbxReply (boxOf r m) 0 0
      | none => d.mbxReply (boxOf r m) 1 0

/-! ### Return to service (R435) -/

/-- A returned core is held at its reset entry without a role; the lowest-numbered spare is SPARE. -/
def Dev.coreReturn (d : Dev) (c : Nat) : Dev :=
  let v := d.rd SPUR.HANDOVER.FAILED
  let d := d.wr SPUR.HANDOVER.FAILED 0 (v - (v &&& 2 ^ c))
  let d := d.updCore c fun k => { ({} : SpurCore) with lateLdio := k.lateLdio }
  d.wr SPUR.HANDOVER.SPARE 0 d.findSpare

/-- RETURN: a core or an engine whose last test had LOGIC and MEMORY, ended after its last failure, and passed. -/
def execReturnUnit (r : Fin 8) (m : Fin 4) (s : State) :=
  s.lift fun d => d.direct (boxOf r m) 0x24 fun w d =>
    let b := boxOf r m
    let kind := mbxArg w % 16
    let i := bits (mbxArg w) 4 8
    if (kind ≠ 2 ∧ kind ≠ 3) ∨ bistTargets kind ≤ i then d.mbxReply b 1 0
    else if !d.bistReady kind i || SMap.get 0 d.bist.last (kind * 256 + i) != 2 ||
        ((d.bist.running ++ d.bist.waiting).any fun t => t.at_ kind i) then d.mbxReply b 2 0
    else if kind = 2 then (d.coreReturn i).mbxReply b 0 0
    else
      let v := d.rd TRV.ENG_STATUS.FAULTED
      (d.wr TRV.ENG_STATUS.FAULTED 0 (v - (v &&& 2 ^ i))).mbxReply b 0 0

end Sys2Proof.Machine
end

