-- ==== Sys2Proof/Machine/Ports.lean ====
section
/-! DEFINITION. Host and device ports (10_host_ports_pcie_cxl): configuration, link states, DLLPs, resets, INTx, ID map commands, vDSP
controls, PTM, the memory device (R283 to R320). -/

namespace Sys2Proof.Machine

open Sys2Proof

/-! ### Links (R285 to R289) -/

def Dev.linkState (d : Dev) (p : Nat) : Nat := d.rd PORT.LINK_STATUS.STATE p
def Dev.setLinkState (d : Dev) (p n : Nat) : Dev := (d.when (n != 4) fun d => d.scansEnd p).wr PORT.LINK_STATUS.STATE p n

/-- The vDSPs that present a local port see its Data Link Layer change (R308). -/
def Dev.dllChanged (d : Dev) (p : Nat) : Dev :=
  d.tellVdsps (d.rd FABRIC.ID.DEV) p fun v => { v with dllChanged := true }

/-- Enters Recovery (R403 0x017). -/
def Dev.toRecovery (d : Dev) (p : Nat) : Dev := (d.setLinkState p 5).event 0x017 (p / 8) { slot := some (p % 8) }

/-- What a link comes up with (R286, R287): `rate` both ends reach, whether the partner has flit mode, what CXL it offers (0 none, 1
68-byte flits only, 2 256-byte flits). Answers the rate, flit mode, CXL, fallback. -/
def linkResult (cxlOn : Bool) (maxRate rate : Nat) (flit : Bool) (cxl : Nat) : Nat × Bool × Bool × Bool :=
  let top := min 6 maxRate
  let r := min rate top
  let fl := flit && decide (5 ≤ r)
  let r := if fl then r else min r 4
  (r, fl, cxlOn && fl && cxl == 2, cxlOn && (!fl || cxl == 1))

/-- A port's link reaches L0: from training with new credits and sequence numbers, from Recovery or L1 as it was. -/
def Dev.linkUpAt (d : Dev) (p rate width : Nat) (flit : Bool) (cxl : Nat) (tenBit : Bool) (fc : List (Nat × Nat)) : Dev :=
  let x := linkResult (d.on PORT.CFG.CXL p) (d.rd PORT.CFG.MAXRATE p) rate flit cxl
  let w := min width (d.maxWidth p)
  let fresh := !d.on PORT.LINK_STATUS.DL_ACTIVE p
  let d := (d.wr PORT.LINK_STATUS.RATE p x.1).wr PORT.LINK_STATUS.WIDTH p w
  let d := ((d.wr PORT.LINK_STATUS.L0P_WIDTH p w).setOn PORT.LINK_STATUS.FLIT p x.2.1).setLinkState p 4
  let d := d.markTrained p
  if fresh then
    let d := (d.setOn PORT.LINK_STATUS.CXL_ACTIVE p x.2.2.1).setOn PORT.LINK_STATUS.CXL_FALLBACK p x.2.2.2
    let d := (d.setOn PORT.LINK_STATUS.DL_ACTIVE p true).setThx p {}
    let c := (List.range 3).foldl (fun c i =>
      let h := fc.getD i (0, 0)
      SMap.put 0 (SMap.put 0 c (2 * (p * 3 + i)) h.1) (2 * (p * 3 + i) + 1) h.2) d.sad.credit
    let d : Dev := { d with
      sad := { d.sad with credit := c }
      trv := { d.trv with tagBits := SMap.put 14 d.trv.tagBits p (if x.2.1 then 14 else if tenBit then 10 else 8) } }
    (d.dllChanged p).signalLink
  else d

/-- What training has brought to the lanes of a PCI Express or CXL port (R325, R335, R342). -/
def Dev.phyUp (d : Dev) (p : Nat) (x : Phy) : Dev :=
  let d := (d.lanesTrained p).setOn PORT.PHY_STATUS.REVERSED p x.reversed
  let d := d.forIn' (d.lanesOf p) fun n d =>
    d.setOn LANE.ADAPT_STATUS.RX_POL_AUTO n (x.inverted.any fun l => laneOf p l == n)
  d.forIn' (x.coeffs.filter fun c => decide (c.1.val < 2 ^ d.maxWidth p)) fun c d => d.coeffs (laneOf p c.1) c.2.1 c.2.2

/-- The Data Link Layer of a port goes down; its link state becomes `next`. -/
def Dev.dlDown (d : Dev) (p next : Nat) : Dev :=
  let was := d.on PORT.LINK_STATUS.DL_ACTIVE p
  let d := ((d.setOn PORT.LINK_STATUS.DL_ACTIVE p false).setOn PORT.LINK_STATUS.CXL_ACTIVE p false).setLinkState p next
  let d := d.setThx p {}
  let d : Dev := { d with host := { d.host with l1sub := SMap.put false d.host.l1sub p false, ltr := SMap.put 0 d.host.ltr p 0 } }
  d.when was fun d => (d.dllChanged p).signalLink

/-! ### Port resets (R303, R319, R320) -/

/-- A downstream port's link is reset: it freezes with a cause and goes to Hot Reset. -/
def Dev.downReset (d : Dev) (p cause : Nat) : Dev := ((d.portFreeze p cause).dlDown p 8)

/-- Hot reset down a link. -/
def Dev.hotReset (d : Dev) (p : Nat) : Dev := (d.emit (.hotReset p)).downReset p 11

/-- Foothill issues an FLR to each function that a domain holds, behind vDSP `k` or all. -/
def Dev.flrFunctions (d : Dev) (h : Nat) (k : Option Nat) : Dev :=
  d.forIn' (d.idEnts.filter fun e => e.domain == h && k.all (· == e.vdsp)) fun e d => d.emit (.funcFlr e.dsDev e.dsPort e.dsId)

/-- Valid vDSPs of a domain: their numbers. -/
def Dev.vdspsOfDomain (d : Dev) (h : Nat) : List Nat :=
  (List.range 32).filter fun k => decide (1 ≤ k) && d.on VSW.VDSP_MAP.VALID (h * 32 + k)

/-- The local transparent port that a vDSP presents, if it does (R303). -/
def Dev.ownPort (d : Dev) (i : Nat) : Option Nat :=
  if d.on VSW.VDSP_MAP.VALID i ∧ d.rd VSW.VDSP_MAP.DEV i = d.rd FABRIC.ID.DEV ∧
      d.on PORT.CFG.TRANSPARENT (d.rd VSW.VDSP_MAP.PORT i) ∧ d.downstream (d.rd VSW.VDSP_MAP.PORT i)
  then some (d.rd VSW.VDSP_MAP.PORT i) else none

/-- An upstream port resets (R319): `next` is the link state it goes to. Bus numbers, windows, shadows, ACS, DPC and PTM state take their
reset values; the PF and the VFs run R219; transparent ports below get hot reset, shared functions an FLR. -/
def Dev.portReset (d : Dev) (p next : Nat) : Dev :=
  let d := (d.portFreeze p 11).dlDown p next
  match d.domainOfPort p with
  | none => d
  | some h =>
    let cfg := SMap.drop (fun k => let q := k / 1048576; q == p || (decide (128 + p * 32 ≤ q) && decide (q < 128 + p * 32 + 32))) d.host.cfg
    let d : Dev := { d with host := { d.host with
      cfg := cfg
      mps := SMap.put 128 d.host.mps p 128
      hdm := SMap.drop (fun k => k / 8 == p) d.host.hdm
      vdsp := SMap.drop (fun k => k / 32 == h) d.host.vdsp } }
    let d := d.forIn' [PORT.PTM_HOST_LO.V, PORT.PTM_HOST_HI.V, PORT.PTM_LOCAL_LO.V, PORT.PTM_LOCAL_HI.V] fun f d => d.wr f p 0
    let d := d.pfFlr p
    let d := d.forIn' (d.vdspsOfDomain h) fun k d =>
      match d.ownPort (h * 32 + k) with
      | some q => d.hotReset q
      | none => d
    d.flrFunctions h none

/-- A PCI Express link goes down: an upstream port resets; a downstream port freezes with cause 2 and its slot channel turns off (R263,
R275, R319). -/
def Dev.pcieDown (d : Dev) (p next : Nat) : Dev :=
  if d.upstream p then d.portReset p next
  else
    let d := (d.portFreeze p 2).dlDown p next
    match d.slotOf p with
    | some s => d.when (d.slotActive s) fun d => d.gateOff s false
    | none => d

/-- Any port's link goes down. -/
def Dev.linkDown (d : Dev) (p : Nat) : Dev :=
  if d.on PORT.THX_CTL.THEOX p then (if d.linkUp p then (d.thxDown p 1).portFreeze p 2 else d)
  else if d.on PORT.LINK_STATUS.DL_ACTIVE p then d.pcieDown p 1 else d

/-- Training of a port may start (R285): a downstream port is enabled; an upstream port has a domain and its PERST_N is deasserted. -/
def Dev.mayTrain (d : Dev) (p : Nat) : Bool :=
  d.on PORT.CFG.ENABLE p && (d.downstream p || (d.upstream p && match d.domainOfPort p with
    | some h => !d.on SBIN.STATUS.LEVEL h
    | none => false))

/-! ### Configuration (R283, R284) -/

/-- A write of BIFUR. -/
def Dev.bifurWrite (d : Dev) (t v : Nat) : Dev :=
  let m := TILE.BIFUR.MODE.of v
  let d := d.when (v.testBit 2) fun d => d.setOn TILE.BIFUR.REFUSED t false
  if m = d.rd TILE.BIFUR.MODE t then d
  else if (List.range 8).all fun s => !d.on PORT.CFG.ENABLE (8 * t + s) && d.frozen (8 * t + s) then
    (d.wr TILE.BIFUR.MODE t m).each 8 fun s d =>
      if d.configured (8 * t + s) then d.guarOpen (8 * t + s) else d.guarClose (8 * t + s)
  else d.setOn TILE.BIFUR.REFUSED t true

/-- A write of PORT[p].CFG would break R284. -/
def Dev.portCfgBad (d : Dev) (p role slot : Nat) (slotV : Bool) : Bool :=
  let ups := ((List.range 128).filter fun q => q != p && d.rd PORT.CFG.ROLE q == 1).length
  (role == 1 && d.rd PORT.CFG.ROLE p != 1 && decide (64 ≤ ups)) ||
    (slotV && (List.range 128).any fun q => q != p && d.on PORT.CFG.SLOT_V q && d.rd PORT.CFG.SLOT q == slot)

/-- A write of PORT[p].CFG: ROLE, CXL, MAXRATE and TRANSPARENT only while ENABLE = 0. -/
def Dev.portCfgWrite (d : Dev) (p v : Nat) : Dev :=
  let was := d.on PORT.CFG.ENABLE p
  let d := d.when (v.testBit 24) fun d => d.setOn PORT.CFG.REFUSED p false
  let role := if was then d.rd PORT.CFG.ROLE p else PORT.CFG.ROLE.of v
  if d.portCfgBad p role (PORT.CFG.SLOT.of v) (v.testBit 13) then d.setOn PORT.CFG.REFUSED p true
  else
    let d := if was then d
      else d.forIn' [PORT.CFG.ROLE, PORT.CFG.CXL, PORT.CFG.MAXRATE, PORT.CFG.TRANSPARENT] fun f d => d.wr f p (f.of v)
    let d := d.forIn' [PORT.CFG.L0P_EN, PORT.CFG.SLOT, PORT.CFG.SLOT_V, PORT.CFG.ENABLE, PORT.CFG.DS_SECBUS] fun f d =>
      d.wr f p (f.of v)
    let d := if d.configured p then d.guarOpen p else d.guarClose p
    let d := d.when (!was && d.on PORT.CFG.ENABLE p) fun d => d.lanesEnabled p
    if d.on PORT.THX_CTL.THEOX p then d
    else if was && !v.testBit 14 then
      if d.on PORT.LINK_STATUS.DL_ACTIVE p then d.pcieDown p 0 else d.setLinkState p 0
    else if !was && d.downstream p && d.mayTrain p then d.setLinkState p 1
    else d

/-! ### DLLPs (R289) -/

/-- A DLLP arrives: returned credits, an acknowledgement, a negative one, power management. -/
def Dev.dllp (d : Dev) (p : Nat) : Dllp → Dev
  | .updateFc sub hdr data =>
    let k := creditKey p sub
    { d with sad := { d.sad with credit := SMap.upd 0 (SMap.upd 0 d.sad.credit k (· + hdr)) (k + 1) (· + data) } }
  | .ack seq => d.setThx p ((d.thx p).acked seq)
  | .nak seq =>
    let x := (d.thx p).acked seq
    let first := (seq.val + 1) % 4096
    let n := if x.nakSeq = first then x.naks + 1 else 1
    let d := ((d.setThx p { x with nakSeq := first, naks := n }).emit (.replay p first)).event 0x016 (p / 8) { slot := some (p % 8) }
    -- the fourth replay of one TLP rolls REPLAY_NUM over: a correctable error, and the link retrains
    if 4 ≤ n then ((d.setThx p { x with nakSeq := first, naks := 0 }).portAer p 8 true).toRecovery p else d
  | .pmL1 => if d.linkState p = 4 then d.setLinkState p 6 else d
  | .pmL2 => if d.linkState p = 4 then d.setLinkState p 7 else d

/-! ### INTx (R304, R305) -/

/-- The source of a received INTx message at a downstream port of a device: what it is, its upstream port and wire. -/
def Dev.intxSource (d : Dev) (dev p id wire : Nat) : Option IntxSrc :=
  let down := dev * 128 + p
  if dev = d.rd FABRIC.ID.DEV ∧ d.on PORT.CFG.TRANSPARENT p then
    match d.vdspsAt dev p with
    | i :: _ => (d.portOfDomain (i / 32)).map fun up =>
        ⟨up, (wire + i % 32) % 4, down, i % 32 * 65536 + 20480 + wire⟩
    | [] => none
  else
    match SMap.first (fun _ e => e.valid && e.dsDev == dev && e.dsPort == p && e.dsId == id) d.host.idmap with
    | none => none
    | some i =>
      let e := d.idEnt i
      (d.portOfDomain e.domain).map fun up => ⟨up, (wire + e.vdsp) % 4, down, e.vdsp * 65536 + i⟩

/-- The ID map entry of a source shows its wire. -/
def Dev.intxEnt (d : Dev) (x : IntxSrc) (wire : Nat) (on : Bool) : Dev :=
  let i := x.src % 65536
  if i < 4096 then d.setIdEnt i { d.idEnt i with intx := on, pin := if on then wire else (d.idEnt i).pin } else d

def Dev.intxMessage (d : Dev) (dev p id wire : Nat) (on : Bool) : Dev :=
  match d.intxSource dev p id wire with
  | none => d
  | some x => if on then (d.intxEnt x wire true).intxAssert x else (d.intxEnt x wire false).intxDeassert x

/-- The PF of an upstream port asserts INTA through vDSP 0 while MSI-X is off, Interrupt Disable is 0 and a ring holds an entry. -/
def Dev.pfIntx (d : Dev) (p : Nat) : Dev :=
  let m := d.mgrPage p
  let g := SMap.get {} d.ctn.rings p
  let holds := m.tail != m.head || g.tail != g.head
  let x : IntxSrc := ⟨p, 0, d.rd FABRIC.ID.DEV * 128 + p, 16384⟩
  if d.upstream p && holds && !(d.cfg p fnPf 0xA0).testBit 31 && !(d.cfg p fnPf 4).testBit 10 then d.intxAssert x else d.intxDeassert x

/-- Sources that come through a vDSP are removed when its VDSP_MAP entry changes (R305). -/
def Dev.vdspRemap (d : Dev) (i : Nat) : Dev :=
  match d.portOfDomain (i / 32) with
  | none => d
  | some up => d.forIn' (d.host.intx.filter fun s => s.up == up && s.src / 65536 == i % 32 && s.src % 65536 != 16384) fun x d =>
      d.intxDeassert x

/-! ### ID map commands (R301, R302) -/

/-- The staged entry. -/
def Dev.idStaged (d : Dev) : IdEnt :=
  { dsId := d.rd IDMAP.ENTRY_LO.DS_ID, dsDev := d.rd IDMAP.ENTRY_LO.DS_DEV, dsPort := d.rd IDMAP.ENTRY_LO.DS_PORT
    valid := d.on IDMAP.ENTRY_LO.VALID, domain := d.rd IDMAP.ENTRY_HI.DOMAIN, vdsp := d.rd IDMAP.ENTRY_HI.VDSP
    hfn := d.rd IDMAP.ENTRY_HI.HFN }

def Dev.idShow (d : Dev) (e : IdEnt) : Dev :=
  let d := ((d.wr IDMAP.ENTRY_LO.DS_ID 0 e.dsId).wr IDMAP.ENTRY_LO.DS_DEV 0 e.dsDev).wr IDMAP.ENTRY_LO.DS_PORT 0 e.dsPort
  let d := ((d.setOn IDMAP.ENTRY_LO.VALID 0 e.valid).wr IDMAP.ENTRY_HI.DOMAIN 0 e.domain).wr IDMAP.ENTRY_HI.VDSP 0 e.vdsp
  ((d.wr IDMAP.ENTRY_HI.HFN 0 e.hfn).setOn IDMAP.ENTRY_HI.INTX 0 e.intx).wr IDMAP.ENTRY_HI.PIN 0 e.pin

/-- Another valid entry has either key. -/
def Dev.idTwice (d : Dev) (i : Nat) (e : IdEnt) : Bool :=
  e.valid && d.host.idmap.any fun x => x.1 != i && x.2.valid &&
    ((x.2.dsDev == e.dsDev && x.2.dsPort == e.dsPort && x.2.dsId == e.dsId) ||
      (x.2.domain == e.domain && x.2.vdsp == e.vdsp && x.2.hfn == e.hfn))

/-- Sources of entry `i` are removed. -/
def Dev.idUnsource (d : Dev) (i : Nat) : Dev :=
  d.forIn' (d.host.intx.filter fun s => s.src % 65536 == i) fun x d => d.intxDeassert x

/-- An entry is replaced: INTX and PIN stay only if DS_DEV, DS_PORT and DS_ID are unchanged. -/
def Dev.idPut (d : Dev) (i : Nat) (e : IdEnt) : Dev :=
  let o := d.idEnt i
  let same := o.dsDev == e.dsDev && o.dsPort == e.dsPort && o.dsId == e.dsId
  let d := d.idUnsource i
  if same && o.intx && e.valid then
    let d := d.setIdEnt i { e with intx := true, pin := o.pin }
    match d.portOfDomain e.domain with
    | some up => d.intxAssert ⟨up, (o.pin + e.vdsp) % 4, e.dsDev * 128 + e.dsPort, e.vdsp * 65536 + i⟩
    | none => d
  else d.setIdEnt i e

/-- An ID map command's effect and status. -/
def Dev.idRun (d : Dev) (op i : Nat) : Nat × Dev :=
  match op with
  | 0 => (0, d.idShow (d.idEnt i))
  | 1 => if d.idTwice i d.idStaged then (1, d) else (0, d.idPut i d.idStaged)
  | 2 => (0, (d.idUnsource i).setIdEnt i { d.idEnt i with valid := false, intx := false })
  | _ => (3, d)

/-- A write of IDMAP.CMD: a second GO while BUSY is ignored and shows in the status. -/
def Dev.idCmd (d : Dev) (op i : Nat) (go : Bool) : Dev :=
  let d := (d.wr IDMAP.CMD.INDEX 0 i).wr IDMAP.CMD.OP 0 op
  if go then
    match d.host.idCmd with
    | some c => { d with host := { d.host with idCmd := some { c with second := true } } }
    | none =>
      let x := d.idRun op i
      ({ x.2 with host := { x.2.host with idCmd := some ⟨x.1, false⟩ } } : Dev).setOn IDMAP.CMD.BUSY 0 true
  else d

/-! ### vDSP controls (R303, R308, R309) -/

/-- Link Disable. -/
def Dev.linkDisable (d : Dev) (i : Nat) (on : Bool) : Dev :=
  let v := d.vdsp i
  match d.ownPort i with
  | some p =>
    let d := d.setVdsp i { v with linkDisable := on }
    if on then (if d.on PORT.LINK_STATUS.DL_ACTIVE p then d.pcieDown p 9 else d.setLinkState p 9)
    else if v.linkDisable ∧ d.linkState p = 9 then d.setLinkState p (if d.mayTrain p then 1 else 0) else d
  | none => d.setVdsp i { v with linkDisable := on, viewDown := on }

/-- Retrain Link. -/
def Dev.retrain (d : Dev) (i : Nat) : Dev :=
  match d.ownPort i with
  | some p => if d.linkState p = 4 then d.toRecovery p else d
  | none => d

/-- Secondary Bus Reset. -/
def Dev.busReset (d : Dev) (i : Nat) : Dev :=
  match d.ownPort i with
  | some p => d.hotReset p
  | none => d.flrFunctions (i / 32) (some (i % 32))

/-- The slot of a vDSP's port, where it has a power controller (R307). -/
def Dev.vdspSlot (d : Dev) (i : Nat) : Option (Nat × Nat) := (d.ownPort i).bind fun p => (d.slotOf p).map fun s => (p, s)

/-- Power Controller Control (R308): on, Foothill turns the channel on, which ramps once its conditions hold; off, the port freezes with
cause 9 and the channel turns off. -/
def Dev.powerControl (d : Dev) (i : Nat) (off : Bool) : Dev :=
  match d.vdspSlot i with
  | none => d
  | some (p, s) =>
    let v := d.vdsp i
    if off then
      let d := (d.portFreeze p 9).slotOff s
      d.vdspTold i { d.vdsp i with powerOff := true, cmdCompleted := true, pccAt := 0 }
    else
      let d := d.setVdsp i { v with powerOff := false, pccAt := d.timeBase + 1 }
      if d.on SLOT.PWR_CTL.ON s then d else d.slotOn s

/-- Command Completed comes in any case within 1 s of a Power Controller write (R308). -/
def Dev.pccLate (d : Dev) : Dev :=
  d.forIn' (SMap.keys (fun _ v => decide (0 < v.pccAt) && decide (250000000 ≤ d.timeBase - (v.pccAt - 1))) d.host.vdsp) fun i d =>
    d.vdspTold i { d.vdsp i with cmdCompleted := true, pccAt := 0 }

/-- Attention and power indicators. -/
def Dev.indicators (d : Dev) (i attn power : Nat) : Dev :=
  let s := if d.on VSW.VDSP_MAP.VALID i ∧ d.rd VSW.VDSP_MAP.DEV i = d.rd FABRIC.ID.DEV then (d.slotOf (d.rd VSW.VDSP_MAP.PORT i)).getD 32
    else 32
  (d.emit (.indicator s attn power)).vdspTold i { d.vdsp i with attnInd := attn, powerInd := power, cmdCompleted := true }

/-- DPC Software Trigger of a vDSP with DPC enabled. -/
def Dev.dpcSoftware (d : Dev) (i : Nat) : Dev :=
  if (d.vdsp i).dpcEnable ∧ d.on VSW.VDSP_MAP.VALID i ∧ d.rd VSW.VDSP_MAP.DEV i = d.rd FABRIC.ID.DEV then
    d.portFreeze (d.rd VSW.VDSP_MAP.PORT i) 12
  else d

/-! ### The memory device (R316 to R318) -/

def Dev.hdm (d : Dev) (p i : Nat) : Hdm := SMap.get {} d.host.hdm (p * 8 + i)
def Dev.setHdm (d : Dev) (p i : Nat) (x : Hdm) : Dev := { d with host := { d.host with hdm := SMap.put {} d.host.hdm (p * 8 + i) x } }

/-- DPA at which decoder `i` begins: behind the committed decoders before it. -/
def Dev.dpaBase (d : Dev) (p i skip : Nat) : Nat :=
  (List.range i).foldl (fun a j => let x := d.hdm p j; if x.committed then a + x.skip + x.size else a) 0 + skip

/-- Bytes of the DPA space of a port's PF (R197, R316). -/
def Dev.dpaSpace (d : Dev) (p : Nat) : Nat :=
  match d.domainOfPort p with
  | some h => let l := d.rd FN.PF_VFS.BAR2_LOG2 h; 2 ^ (if l < 21 ∨ 40 < l then 21 else l)
  | none => 0

/-- The host sets Commit (R317): `ways` is Interleave Ways less one as encoded (0 for one way), `ack` whether Foothill mirrors the decoder
within CFG_HOLD. -/
def Dev.hdmCommit (d : Dev) (p i base size skip ways : Nat) (ack : Bool) : Dev :=
  let overlap := (List.range 8).any fun j => j != i && (let y := d.hdm p j
    y.committed && decide (base < y.base + y.size) && decide (y.base < base + size))
  let bad := ways != 0 || decide (d.dpaSpace p < d.dpaBase p i skip + size) || overlap || !ack
  d.setHdm p i (if bad then { d.hdm p i with committed := false, error := true } else ⟨base, size, skip, true, false⟩)

/-- Opcodes of the mailbox that Foothill supports: Identify Memory Device, Get Health Info, Get and Clear Event Records, Get Poison
List, Get Supported Logs (PRESUMED: the numbers of the CXL standard). -/
def cxlOps : List Nat := [0x4000, 0x4200, 0x0100, 0x0101, 0x4300, 0x0400]

/-- A mailbox command ends with return code 0, or Unsupported (0x15) (R318). -/
def Dev.cxlMailbox (d : Dev) (p op : Nat) : Dev :=
  { d with host := { d.host with cxlMbx := SMap.put 0 d.host.cxlMbx p (1 + if cxlOps.contains op then 0 else 0x15) } }

/-! ### PTM (R313, R314) -/

/-- Fabric time in ns. -/
def Dev.fabricTime (d : Dev) : Nat := d.timeBase * 4 % 2 ^ 64

/-- The USP of a port holds the host's time and fabric time at the same instant, where the host enables PTM: bit 0 of PTM Control. -/
def Dev.ptmExchange (d : Dev) (p host : Nat) : Dev :=
  if d.upstream p && (d.cfg p fnUsp 0x328).testBit 0 then
    let d := (d.wr PORT.PTM_HOST_LO.V p host).wr PORT.PTM_HOST_HI.V p (host / 2 ^ 32)
    (d.wr PORT.PTM_LOCAL_LO.V p d.fabricTime).wr PORT.PTM_LOCAL_HI.V p (d.fabricTime / 2 ^ 32)
  else d

/-! ### The commands -/

/-- A command on a port that is no Theox port, while the core domain runs. -/
def Dev.onPort (d : Dev) (p : Nat) (f : Dev → Dev) : Dev := if d.coreUp && d.slotUsed p && !d.on PORT.THX_CTL.THEOX p then f d else d

def execBifurWrite (_m : Master) (t : Fin 16) (v : W32) (s : State) :=
  s.lift fun d => if d.coreUp then d.bifurWrite t v.toNat else d
def execPortCfgWrite (_m : Master) (p : Fin 128) (v : W32) (s : State) :=
  s.lift fun d => if d.coreUp then d.portCfgWrite p v.toNat else d

/-- Training starts (R285). -/
def execLinkTrainingStart (p : Fin 128) (s : State) :=
  s.lift fun d => d.onPort p fun d => if d.mayTrain p && d.linkState p == 0 then d.setLinkState p 1 else d

/-- A link in training, Recovery or L1 reaches L0. -/
def execLinkUp (p : Fin 128) (rate : Fin 7) (width : Fin 5) (flit : Bool) (cxl : Fin 3) (tenBit : Bool) (fc : List (Nat × Nat))
    (phy : Phy) (s : State) :=
  s.lift fun d => d.onPort p fun d =>
    if d.mayTrain p && d.linkState p != 0 && d.linkState p != 4 && d.linkState p != 9 then
      (d.linkUpAt p rate width flit cxl tenBit fc).when (!d.on PORT.LINK_STATUS.DL_ACTIVE p) fun d => d.phyUp p phy
    else d

def execLinkDown (p : Fin 128) (s : State) := s.lift fun d => if d.coreUp then d.linkDown p else d

/-- A replay timer expires: a correctable error, bit 12, and the unacknowledged TLPs go again (R274). -/
def execReplayTimerTimeout (p : Fin 128) (s : State) :=
  s.lift fun d => d.onPort p fun d =>
    match (d.thx p).flight with
    | [] => d
    | f :: _ => (d.emit (.replay p f.last)).portAer p 12 true

/-- A width change that the partner asks for under L0p (R288): down to x2. -/
def execL0pWidthChange (p : Fin 128) (width : Fin 5) (s : State) :=
  s.lift fun d => d.onPort p fun d =>
    if d.on PORT.CFG.L0P_EN p && d.on PORT.LINK_STATUS.FLIT p && d.on PORT.LINK_STATUS.DL_ACTIVE p && decide (1 ≤ width.val) &&
        decide (width.val ≤ d.rd PORT.LINK_STATUS.WIDTH p) then d.wr PORT.LINK_STATUS.L0P_WIDTH p width else d

/-- CLKREQ_N changes (R288): deasserted in L1 the link enters a substate of L1, asserted it leaves it. -/
def execClkreqNChange (p : Fin 128) (level : Bool) (s : State) :=
  s.lift fun d => d.onPort p fun d =>
    { d with host := { d.host with
      clkreq := SMap.put false d.host.clkreq p level
      l1sub := SMap.put false d.host.l1sub p (level && d.linkState p == 6) } }

def execDllpReceived (p : Fin 128) (x : Dllp) (s : State) :=
  s.lift fun d => d.onPort p fun d => if d.on PORT.LINK_STATUS.DL_ACTIVE p then d.dllp p x else d

/-- A reset of a downstream port (R320): a surprise removal with cause 2, else cause 11. One that comes while a reset runs is
absorbed. -/
def execDownstreamPortReset (p : Fin 128) (surprise : Bool) (s : State) :=
  s.lift fun d => d.onPort p fun d =>
    if d.downstream p && d.linkState p != 8 then d.downReset p (if surprise then 2 else 11) else d

def execIdmapRead (i : Fin 4096) (s : State) := s.lift fun d => if d.coreUp then d.idCmd 0 i true else d
def execIdmapWrite (i : Fin 4096) (s : State) := s.lift fun d => if d.coreUp then d.idCmd 1 i true else d
def execIdmapInvalidate (i : Fin 4096) (s : State) := s.lift fun d => if d.coreUp then d.idCmd 2 i true else d

def execIdmapCmdEnd (s : State) :=
  s.lift fun d =>
    match d.host.idCmd with
    | none => d
    | some c =>
      (({ d with host := { d.host with idCmd := none } } : Dev).setOn IDMAP.CMD.BUSY 0 false).wr IDMAP.CMD.STATUS 0
        (if c.second then 2 else c.status)

def vdspIdx (h : Fin 64) (k : Fin 32) : Nat := h.val * 32 + k.val

def execLinkDisable (h : Fin 64) (k : Fin 32) (on : Bool) (s : State) :=
  s.lift fun d => if d.coreUp then d.linkDisable (vdspIdx h k) on else d
def execRetrainLink (h : Fin 64) (k : Fin 32) (s : State) := s.lift fun d => if d.coreUp then d.retrain (vdspIdx h k) else d
def execSecondaryBusReset (h : Fin 64) (k : Fin 32) (s : State) := s.lift fun d => if d.coreUp then d.busReset (vdspIdx h k) else d

def execAssertIntx (dev : Fin 256) (p : Fin 128) (id : BitVec 16) (wire : Fin 4) (s : State) :=
  s.lift fun d => if d.coreUp then d.intxMessage dev p id.toNat wire true else d
def execDeassertIntx (dev : Fin 256) (p : Fin 128) (id : BitVec 16) (wire : Fin 4) (s : State) :=
  s.lift fun d => if d.coreUp then d.intxMessage dev p id.toNat wire false else d

def execPowerControllerControl (h : Fin 64) (k : Fin 32) (off : Bool) (s : State) :=
  s.lift fun d => if d.coreUp then d.powerControl (vdspIdx h k) off else d
def execIndicatorControl (h : Fin 64) (k : Fin 32) (attn power : Fin 4) (s : State) :=
  s.lift fun d => if d.coreUp then d.indicators (vdspIdx h k) attn power else d
def execDpcSoftwareTrigger (h : Fin 64) (k : Fin 32) (s : State) :=
  s.lift fun d => if d.coreUp then d.dpcSoftware (vdspIdx h k) else d

/-- A PTM request at a downstream port is answered with fabric time (R313). -/
def execPtmRequest (p : Fin 128) (s : State) :=
  s.lift fun d => d.onPort p fun d =>
    if d.downstream p && d.on PORT.LINK_STATUS.DL_ACTIVE p then d.emit (.ptm p d.fabricTime) else d

def execPtmExchange (p : Fin 128) (host : W64) (s : State) := s.lift fun d => d.onPort p fun d => d.ptmExchange p host.toNat

def execHdmCommit (p : Fin 128) (i : Fin 8) (base size skip : W64) (ways : Fin 16) (ack : Bool) (s : State) :=
  s.lift fun d => d.onPort p fun d =>
    if d.upstream p && d.on PORT.LINK_STATUS.CXL_ACTIVE p then
      d.hdmCommit p i base.toNat size.toNat skip.toNat ways ack
    else d

def execCxlMailboxCommand (p : Fin 128) (op : BitVec 16) (s : State) :=
  s.lift fun d => d.onPort p fun d =>
    if d.upstream p && d.on PORT.LINK_STATUS.CXL_ACTIVE p then d.cxlMailbox p op.toNat else d

end Sys2Proof.Machine
end

