-- ==== Sys2Proof/Machine/Lanes.lean ====
section
/-! DEFINITION. The commands of serial lanes (11_serdes_lanes R324 to R346): taps, adaptation, margin checks, eye scans, margining, loops,
patterns. -/

namespace Sys2Proof.Machine

open Sys2Proof

/-! ### What a lane's link does -/

/-- The rate code of a lane's link: its port's, 64 or 128 GT/s on a Theox port; 16 GT/s on a Col lane. -/
def Dev.laneRate (d : Dev) (n : Nat) : Nat :=
  if 256 ≤ n then 3
  else
    let p := d.laneHome n
    if d.on PORT.THX_CTL.THEOX p then (if d.on PORT.THX_STATUS.RATE p then 6 else 5) else d.rd PORT.LINK_STATUS.RATE p

/-- The lane runs PAM4. -/
def Dev.lanePam4 (d : Dev) (n : Nat) : Bool := decide (5 ≤ d.laneRate n)

/-- Its link is in L0 or T.ACTIVE, or the Col link is up. -/
def Dev.laneUp (d : Dev) (n : Nat) : Bool :=
  if 256 ≤ n then d.rd COL.LINK_STATUS.STATE (n - 256) == 2
  else
    let p := d.laneHome n
    if d.on PORT.THX_CTL.THEOX p then d.thxState p == 5 else d.linkState p == 4

/-- The standby spare of a Theox port in spared mode (R235): lane 15, on a reversed port lane 0 (R342). -/
def Dev.laneSpare (d : Dev) (n : Nat) : Bool :=
  decide (n < 256) && (let p := d.laneHome n
    d.on PORT.THX_CTL.THEOX p && (d.thx p).spared && !d.on PORT.THX_STATUS.SPARE_USED p &&
      n == laneOf p (if d.on PORT.PHY_STATUS.REVERSED p then 0 else 15))

/-- Host margining runs on the lane: a step of timing or voltage is in force (R334). -/
def LaneSt.margins (x : LaneSt) : Bool := x.marginType == 3 || x.marginType == 4

/-! ### Taps and loops (R324, R340, R343 to R345) -/

/-- A write of TX_TAPS0 is staged. -/
def Dev.taps0Write (d : Dev) (n v : Nat) : Dev := d.setLane n { d.lane n with staged := v % 2 ^ 32 }

/-- A write of TX_TAPS1 applies both words while TX_OVERRIDE = 1, or is refused. -/
def Dev.taps1Write (d : Dev) (n v : Nat) : Dev :=
  let t := Taps.ofWords (d.lane n).staged v
  if !t.ok then d.laneRefused n
  else if d.on LANE.CFG.TX_OVERRIDE n then d.setTaps n t
  else d

def Dev.bitslip (d : Dev) (n count : Nat) : Dev :=
  if d.laneFree n then d.setLane n { d.lane n with slip := (d.lane n).slip + count } else d.laneRefused n

/-- The write changes a field. -/
def Dev.changes (d : Dev) (f : Fld) (n v : Nat) : Bool := f.of v != d.rd f n

/-- A Col lane offers loops 1 and 2, and those only while JOIN = 0. -/
def Dev.loopBad (d : Dev) (n loop : Nat) : Bool := decide (256 ≤ n) && (loop == 3 || (loop != 0 && d.on COL.CTL.JOIN))

/-- A write of LANE.CFG. -/
def Dev.laneCfgWrite (d : Dev) (n v : Nat) : Dev :=
  let loop := d.changes LANE.CFG.LOOP n v
  if (loop || d.changes LANE.CFG.TX_OVERRIDE n v) && !d.laneFree n then d.laneRefused n
  else if loop && d.loopBad n (LANE.CFG.LOOP.of v) then d.laneRefused n
  else
    -- a scan that runs ends when LOOP is written (R333)
    let d := d.when (d.on LANE.EYE_CTL.BUSY n) fun d => (d.setOn LANE.EYE_CTL.BUSY n false).wr LANE.EYE_CTL.STATUS n 2
    d.writeFields false .LANE_CFG n v

/-- A pattern code the lane does not have at its rate. -/
def Dev.patBad (d : Dev) (n pat : Nat) : Bool := (pat == 4 && !d.lanePam4 n) || decide (6 ≤ pat)

/-- The 48-bit counts (R346). -/
def Dev.prbsBits (d : Dev) (n : Nat) : Nat := d.rd LANE.PRBS_BITS_LO.V n + d.rd LANE.PRBS_BITS_HI.V n * 2 ^ 32
def Dev.prbsErr (d : Dev) (n : Nat) : Nat := d.rd LANE.PRBS_ERR_LO.V n + d.rd LANE.PRBS_ERR_HI.V n * 2 ^ 32

/-- Bits compared and bits in error are counted, up to 2^48 − 1. -/
def Dev.prbsCount (d : Dev) (n bits_ errors : Nat) : Dev :=
  let b := min (d.prbsBits n + bits_) (2 ^ 48 - 1)
  let e := min (d.prbsErr n + errors) (2 ^ 48 - 1)
  let d := (d.wr LANE.PRBS_BITS_LO.V n b).wr LANE.PRBS_BITS_HI.V n (b / 2 ^ 32)
  (d.wr LANE.PRBS_ERR_LO.V n e).wr LANE.PRBS_ERR_HI.V n (e / 2 ^ 32)

def Dev.prbsClear (d : Dev) (n : Nat) : Dev :=
  d.forIn' [LANE.PRBS_BITS_LO.V, LANE.PRBS_BITS_HI.V, LANE.PRBS_ERR_LO.V, LANE.PRBS_ERR_HI.V] fun f d => d.wr f n 0

/-- One bit of the generator output is inverted; a locked checker of the same lane sees it through a near-end loop. -/
def Dev.prbsInject (d : Dev) (n : Nat) : Dev :=
  if d.on LANE.PRBS_CTL.GEN_EN n then
    let loop := d.rd LANE.CFG.LOOP n
    (d.emit (.inject n)).when (d.on LANE.PRBS_CTL.LOCK n && (loop == 1 || loop == 2)) fun d => d.prbsCount n 0 1
  else d

/-- A write of LANE.PRBS_CTL. A checker that is turned off or changes its pattern is unlocked. -/
def Dev.prbsWrite (d : Dev) (n v : Nat) : Dev :=
  let gen := d.changes LANE.PRBS_CTL.GEN_PAT n v || d.changes LANE.PRBS_CTL.GEN_EN n v
  if gen && (!d.laneFree n || d.laneSpare n) then d.laneRefused n
  else if d.patBad n (LANE.PRBS_CTL.GEN_PAT.of v) || d.patBad n (LANE.PRBS_CTL.CHK_PAT.of v) then d.laneRefused n
  else
    let chk := d.changes LANE.PRBS_CTL.CHK_PAT n v || !v.testBit 7
    let d := d.writeFields false .LANE_PRBS_CTL n v
    let d := d.when chk fun d => d.setOn LANE.PRBS_CTL.LOCK n false
    let d := d.when (v.testBit 9) fun d => d.prbsClear n
    d.when (v.testBit 10) fun d => d.prbsInject n

/-! ### Adaptation (R328, R329) -/

/-- One step of a two's complement tap of 8 bits. -/
def stepTap (v k : Nat) : Nat :=
  let x : Int := if 128 ≤ v then (v : Int) - 256 else v
  let y := min 127 (max (-128) (x + (k : Int) - 1))
  ((y + 256) % 256).toNat

/-- A step of an unsigned setting. -/
def stepSet (v k top : Nat) : Nat := min top (v + k - 1)

/-- The receiver may adapt. -/
def Dev.adapts (d : Dev) (n : Nat) : Bool :=
  (d.laneUp n || d.laneSpare n) && !d.on LANE.CFG.ADAPT_HOLD n && !d.on LANE.ADAPT_STATUS.FROZEN n

/-- An update: CTLE, gain, H1 to H12, each down (0), kept (1) or up (2). -/
def Dev.adapt (d : Dev) (n : Nat) (k : Nat → Nat) : Dev :=
  let d := (d.wr LANE.RX_EQ.CTLE n (stepSet (d.rd LANE.RX_EQ.CTLE n) (k 0) 15)).wr LANE.RX_EQ.GAIN n
    (stepSet (d.rd LANE.RX_EQ.GAIN n) (k 1) 63)
  let d := d.wr LANE.RX_EQ.H1 n (stepTap (d.rd LANE.RX_EQ.H1 n) (k 2))
  d.each 11 fun i d =>
    let j := 4 * n + i / 4
    let w := d.rd LANE.DFE_TAPS.H j
    d.wr LANE.DFE_TAPS.H j (setBits w (8 * (i % 4)) 8 (stepTap (bits w (8 * (i % 4)) 8) (k (3 + i))))

/-- A 4,096-UI window ends. -/
def Dev.densityWindow (d : Dev) (n transitions : Nat) (idle : Bool) : Dev :=
  let was := d.on LANE.ADAPT_STATUS.FROZEN n
  let frozen := idle || decide (transitions < 256)
  let d := ((d.wr LANE.ADAPT_STATUS.DENSITY n (min transitions 4095)).setOn LANE.ADAPT_STATUS.EI n idle).setOn LANE.ADAPT_STATUS.FROZEN n
    frozen
  if was && !frozen then d.setLane n { d.lane n with resumeDue := true } else d

/-! ### Margin checks (R330 to R332) -/

/-- A lane whose check has failed asks for recovery with equalisation re-run, at most once per port in 100 ms (R331). -/
def Dev.rerun (d : Dev) (n : Nat) : Dev :=
  let key := if 256 ≤ n then 128 + (n - 256) else d.laneHome n
  let last := SMap.get 0 d.phy.reran key
  if last ≠ 0 ∧ d.timeBase < last - 1 + 25000000 then d
  else
    let d : Dev := { d with phy := { d.phy with reran := SMap.put 0 d.phy.reran key (d.timeBase + 1) } }
    let d := d.bump LANE.ADAPT_STATUS.RERUNS n
    if 256 ≤ n then
      let k := n - 256
      if d.rd COL.LINK_STATUS.STATE k = 2 then
        let d := d.wr COL.LINK_STATUS.STATE k 1
        (d.when (d.timeFrom k 0) fun d => d.timeLoss).signalLink
      else d
    else if d.on PORT.THX_CTL.THEOX key then d.thxRecover key
    else if d.linkState key = 4 then d.toRecovery key
    else d

/-- A check ends with the smallest eye height and width; the resume check goes before the periodic one. -/
def Dev.checkEnd (d : Dev) (n height width : Nat) : Dev :=
  let x := d.lane n
  if !x.resuming && !x.periodic then d
  else
    let pass := decide ((if d.lanePam4 n then d.rd LANE.MARGIN_CTL.EYE_MIN_PAM4 n else d.rd LANE.MARGIN_CTL.EYE_MIN_NRZ n) ≤ height)
    let d := d.setLane n { x with
      resuming := false, periodic := x.periodic && x.resuming, checkedAt := d.timeBase + 1 }
    let d := (d.wr LANE.MARGIN_RESULT.HEIGHT n height).wr LANE.MARGIN_RESULT.WIDTH n width
    let d := (d.setOn LANE.MARGIN_RESULT.PASS n pass).setOn LANE.MARGIN_RESULT.RESUME n x.resuming
    if pass then d
    else
      let d := (d.setOn LANE.ADAPT_STATUS.MARGIN_FAIL n true).signalLink
      let p := d.laneHome n
      if n < 256 ∧ d.on PORT.THX_CTL.THEOX p ∧ (d.thx p).spared ∧ ¬d.on PORT.THX_STATUS.SPARE_USED p then d.spareLane p (n % 16)
      else if d.on LANE.MARGIN_CTL.RERUN_EN n then d.rerun n
      else d

/-- AGE of the last check (R330), in µs. -/
def Dev.marginAge (d : Dev) (n : Nat) : Nat :=
  match (d.lane n).checkedAt with
  | 0 => 0
  | t + 1 => min 65535 ((d.timeBase - t) / 250)

/-! ### Eye scan and margining (R333, R334) -/

/-- A write of EYE_CTL. A GO while host margining runs is refused; a GO while a scan runs is ignored. -/
def Dev.eyeWrite (d : Dev) (n v : Nat) : Dev :=
  let d := d.writeFields false .LANE_EYE_CTL n v
  if !v.testBit 22 ∨ d.on LANE.EYE_CTL.BUSY n then d
  else if (d.lane n).margins then d.wr LANE.EYE_CTL.STATUS n 1
  else ((d.setOn LANE.EYE_CTL.BUSY n true).wr LANE.EYE_CTL.STATUS n 0).wr LANE.EYE_COUNT.COUNT n 0

/-- What the capability of R334 reports: voltage and independent timing and voltage, by rate, an independent sampler; 127 voltage steps, 32
timing steps, 50 % of a UI (PRESUMED: the payload codes of the standard). -/
def marginReport (arg : Nat) : Option Nat :=
  match arg with
  | 0x88 => some 0x1F
  | 0x89 => some 127
  | 0x8A => some 32
  | 0x8B => some 50
  | _ => none

/-- A Lane Margining command on a lane of a port: type 1 reads the capability, 2 returns to normal, 3 and 4 step timing and voltage, 7 is no
command. Steps answer what the sampler measures. -/
def Dev.margining (d : Dev) (p l type arg : Nat) : Dev :=
  let n := laneOf p l
  let x := d.lane n
  match type with
  | 1 =>
    match marginReport arg with
    | some v => d.emit (.margining p l 1 v)
    | none =>
      let r := d.drawNat
      r.2.emit (.margining p l 1 (r.1 % 256))
  | 2 => (d.setLane n (if arg = 0x0F then { x with marginType := 7, marginArg := 0 } else x)).emit (.margining p l 2 arg)
  | 3 | 4 =>
    let r := (d.setLane n { x with marginType := type, marginArg := arg }).drawNat
    r.2.emit (.margining p l type (r.1 % 256))
  | _ => d.setLane n { x with marginType := 7, marginArg := 0 }

/-- Ports that support margining: an upstream port, a transparent downstream port, from 8 GT/s upward, in L0. -/
def Dev.mayMargin (d : Dev) (p l : Nat) : Bool :=
  !d.on PORT.THX_CTL.THEOX p && (d.upstream p || (d.downstream p && d.on PORT.CFG.TRANSPARENT p)) &&
    decide (2 ≤ d.rd PORT.LINK_STATUS.RATE p) && d.linkState p == 4 && decide (l < 2 ^ d.maxWidth p)

/-! ### The commands -/

def Dev.laneRun (d : Dev) (f : Dev → Dev) : Dev := if d.coreUp then f d else d

def execTxTapsWrite (n : Fin 258) (v : W32) (s : State) := s.lift fun d => d.laneRun fun d => d.taps1Write n v.toNat
def execAdaptationUpdate (n : Fin 258) (steps : Vector (Fin 3) 14) (s : State) :=
  s.lift fun d => d.laneRun fun d => if d.adapts n then d.adapt n fun i => ((steps.toList.getD i 1).val) else d
def execDensityWindow (n : Fin 258) (transitions : Fin 4097) (idle : Bool) (s : State) :=
  s.lift fun d => d.laneRun fun d => d.densityWindow n transitions idle

/-- A resume check begins after data has resumed (R330). -/
def execResumeCheck (n : Fin 258) (s : State) :=
  s.lift fun d => d.laneRun fun d =>
    if (d.lane n).resumeDue then d.setLane n { d.lane n with resumeDue := false, resuming := true } else d

/-- A periodic check begins every PERIOD ms; it is deferred while margining runs (R330, R332). -/
def execPeriodicCheck (n : Fin 258) (s : State) :=
  s.lift fun d => d.laneRun fun d =>
    if d.laneUp n && d.rd LANE.MARGIN_CTL.PERIOD n != 0 && !(d.lane n).margins then d.setLane n { d.lane n with periodic := true } else d

def execMarginCheckEnd (n : Fin 258) (height : Fin 256) (width : Fin 64) (s : State) :=
  s.lift fun d => d.laneRun fun d => d.checkEnd n height width

def execEyeScan (n : Fin 258) (v : W32) (s : State) := s.lift fun d => d.laneRun fun d => d.eyeWrite n v.toNat

/-- A scan ends after its dwell. -/
def execEyeScanEnd (n : Fin 258) (count : Nat) (s : State) :=
  s.lift fun d => d.laneRun fun d =>
    if d.on LANE.EYE_CTL.BUSY n then
      ((d.setOn LANE.EYE_CTL.BUSY n false).wr LANE.EYE_CTL.STATUS n 0).wr LANE.EYE_COUNT.COUNT n (min count (2 ^ 32 - 1))
    else d

def execLaneMargining (p : Fin 128) (l : Fin 16) (type : Fin 8) (payload : Byte) (s : State) :=
  s.lift fun d => d.laneRun fun d => if d.mayMargin p l then d.margining p l type payload.toNat else d

/-- A CDR loses lock: counted, and a Cairn record of its port (R338); a Col lane's record names port 0. -/
def execCdrLossOfLock (n : Fin 258) (s : State) :=
  s.lift fun d => d.laneRun fun d =>
    (d.bump LANE.ADAPT_STATUS.CDR_LOL n).cairnPush 0x02 (if n.val < 256 then d.laneHome n else 0) 1 n 0

def execBitslip (n : Fin 258) (count : Fin 64) (s : State) := s.lift fun d => d.laneRun fun d => d.bitslip n count

/-- A write of LANE.CFG, or with `prbs` of LANE.PRBS_CTL. -/
def execLaneCfgWrite (n : Fin 258) (prbs : Bool) (v : W32) (s : State) :=
  s.lift fun d => d.laneRun fun d => if prbs then d.prbsWrite n v.toNat else d.laneCfgWrite n v.toNat

def execClear (n : Fin 258) (s : State) := s.lift fun d => d.laneRun fun d => d.prbsClear n
def execInject (n : Fin 258) (s : State) := s.lift fun d => d.laneRun fun d => d.prbsInject n

/-- The checker locks after 64 bits without error (R346). -/
def execPrbsCheckerLock (n : Fin 258) (s : State) :=
  s.lift fun d => d.laneRun fun d => if d.on LANE.PRBS_CTL.CHK_EN n then d.setOn LANE.PRBS_CTL.LOCK n true else d

/-- The checker sees 32 of 64 bits in error and drops lock; `errors` were counted since it locked (R346). -/
def execPrbsCheckerLockLoss (n : Fin 258) (errors : Nat) (s : State) :=
  s.lift fun d => d.laneRun fun d =>
    if d.on LANE.PRBS_CTL.LOCK n then
      ((d.prbsCount n 0 errors).setOn LANE.PRBS_CTL.LOCK n false).bump LANE.PRBS_CTL.LOSS n
    else d

/-- Bits that a locked checker compares in one tb of 4 ns, by rate code: 2.5 GT/s is 10 bits (R346). -/
def bitsPerTb (rate : Nat) : Nat :=
  match rate with
  | 0 => 10 | 1 => 20 | 2 => 32 | 3 => 64 | 4 => 128 | 5 => 256 | _ => 512

/-- A tb passes on the lanes: locked checkers compare. -/
def Dev.prbsTick (d : Dev) : Dev :=
  d.forIn' ((SMap.keys (fun k b => k % 1024 == LANE.PRBS_CTL.LOCK.num && b == 1) d.regs).map (· / 1024)) fun n d =>
    d.prbsCount n (bitsPerTb (d.laneRate n)) 0

end Sys2Proof.Machine
end

