-- ==== Sys2Proof/Machine/Sideband.lean ====
section
/-! DEFINITION. The filtered sideband inputs (12_slot_power_sideband R364 to R367) and what their edges do (R319, R358, R361, R446, R450). -/

namespace Sys2Proof.Machine

open Sys2Proof

/-- SYS_RST_N and PWR_OK: fixed, never masked, their CFG and CTL ignore writes. -/
def sbinFixed (i : Nat) : Bool := i == 129 || i == 130

/-- PERST_N of host domain `h` takes a level: its assertion resets the domain's upstream port, whose link stays in electrical idle
(R319). -/
def Dev.perstEdge (d : Dev) (h : Nat) (asserted : Bool) : Dev :=
  if d.coreUp && asserted then
    match d.portOfDomain h with
    | some p => if d.upstream p then d.portReset p 0 else d
    | none => d
  else d

/-- SLOT_PRSNT_N of slot `s` takes a level (R358): the count of stable presence restarts; presence lost turns the channel off. -/
def Dev.presenceEdge (d : Dev) (s : Nat) (present : Bool) : Dev :=
  if d.coreUp then
    let d := d.setOn SLOT.PWR_STATUS.PRSNT_STABLE s false
    let d := if present then d else d.presenceLost s
    d.slotEvent s (1 + present.toNat * 2)
  else d

/-- PWR_WARN_N takes a level (R361, R450 to R452): asserted, channels shed, the Cairn takes its trigger and the power-down begins;
deasserted, the powered-down state ends, or will end as soon as it is reached. -/
def Dev.warnEdge (d : Dev) (asserted : Bool) : Dev :=
  if asserted then
    let d := d.when d.coreUp fun d => d.shed
    let d := if d.on CAIRN.TRIG.PWRWARN then
        let x := d.drawNat
        x.2.cairnFreeze 6 0x0A 128 (x.1 % 256) 1 0
      else d
    let d : Dev := { d with summit := { d.summit with pdEnd := false } }
    d.pdRequest
  else if d.power = .down ∧ d.pwrOk then d.warmReset 4
  else if d.summit.pdRun then { d with summit := { d.summit with pdEnd := true } }
  else d

/-- What a filtered edge of input `i` does to its consumer. -/
def Dev.sbinActs (d : Dev) (i : Nat) (level : Bool) : Dev :=
  if i < 64 then d.perstEdge i level
  else if i < 96 then d.presenceEdge (i - 64) level
  else if i < 128 then (if d.coreUp && level then d.slotEvent (i - 96) 4 else d)
  else if i = 128 then d.warnEdge level
  else if i = 129 then (if level then d.coldReset 1 else d)
  else
    let d := d.setOn SUP.STATUS.PWR_OK 0 level
    if level then d else d.coldReset 2

/-- A filtered edge: LEVEL, EDGE, EVENT.SLOT, and the consumer. -/
def Dev.sbinEdge (d : Dev) (i : Nat) (level : Bool) : Dev :=
  let d := (d.setOn SBIN.STATUS.LEVEL i level).setOn SBIN.STATUS.EDGE i true
  let d := d.when d.coreUp fun d => d.signalSlot
  d.sbinActs i level

/-- Input `i` is masked (R365, R366): a sideband event and a Cairn record of the filtered level and the raw edges. -/
def Dev.sbinMask (d : Dev) (i ev : Nat) (f : Fld) : Dev :=
  let d := (d.setOn SBIN.STATUS.MASKED i true).setOn f i true
  let d := d.when d.coreUp fun d => d.signalSlot
  d.cairnPush 0x0A i ev (d.rd SBIN.STATUS.LEVEL i) (d.rd SBIN.STATUS.EDGES i)

/-- REARM (R367): the debounce settles on the synchronised level, and an edge follows if it differs from the held value. -/
def Dev.sbinRearm (d : Dev) (i : Nat) : Dev :=
  if sbinFixed i then d
  else
    let was := d.on SBIN.STATUS.MASKED i
    let d := (d.setOn SBIN.STATUS.MASKED i false).wr SBIN.STATUS.EDGES i 0
    let raw := d.on SBIN.STATUS.RAW i
    if was && raw != d.on SBIN.STATUS.LEVEL i then d.sbinEdge i raw else d

/-! ### The commands -/

/-- The filtered value of input `i` has changed to `level` (true: asserted), unless the input is masked. -/
def execSidebandEdge (i : Fin 131) (level : Bool) (s : State) :=
  s.lift fun d =>
    if d.vauxUp then
      let d := d.setOn SBIN.STATUS.RAW i level
      if d.on SBIN.STATUS.MASKED i || d.on SBIN.STATUS.LEVEL i == level then d else d.sbinEdge i level
    else d

/-- The filtered value has stayed asserted for STUCK + 1 s. -/
def execStuck (i : Fin 131) (s : State) :=
  s.lift fun d =>
    if d.vauxUp && !sbinFixed i && d.on SBIN.CFG.STUCK_EN i && d.on SBIN.STATUS.LEVEL i && !d.on SBIN.STATUS.MASKED i then
      d.sbinMask i 1 SBIN.STATUS.STUCK
    else d

/-- A chatter window ends with `edges` raw edges; `raw` is the level they leave. -/
def execChatter (i : Fin 131) (edges : Nat) (raw : Bool) (s : State) :=
  s.lift fun d =>
    if d.vauxUp && !sbinFixed i then
      let d := (d.wr SBIN.STATUS.EDGES i (min edges 255)).setOn SBIN.STATUS.RAW i raw
      if d.on SBIN.CFG.CHAT_EN i && decide (max 1 (d.rd SBIN.CFG.CHAT_EDGES i) < edges) && !d.on SBIN.STATUS.MASKED i then
        d.sbinMask i 2 SBIN.STATUS.CHATTER
      else d
    else d

def execRearm (_m : Master) (i : Fin 131) (s : State) := s.lift fun d => if d.vauxUp then d.sbinRearm i else d

end Sys2Proof.Machine
end

