-- ==== Sys2Proof/Machine/Counters.lean ====
section
/-! DEFINITION. Performance counters, snapshots, dumps, bandwidth windows, and the Cairn's commands (14_counters_cairn R398 to R419). -/

namespace Sys2Proof.Machine

open Sys2Proof

/-! ### Selection and values (R398 to R402) -/

/-- The assigned event codes of R403. -/
def eventCodes : List Nat :=
  (List.range 10).map (· + 1) ++ (List.range 11).map (· + 0x10) ++ [0x100, 0x101, 0x102] ++ (List.range 7).map (· + 0x110) ++
    [0x120, 0x121, 0x130, 0x131, 0x140, 0x141, 0x142, 0x150, 0x160]

/-- The counter that a master has selected, if it selects one. -/
def Dev.cntIdx (d : Dev) (m : Master) : Option Nat :=
  let k := d.rd CNT.IDX.K m.code
  if k < 1280 then some k else none

/-- A write of CNT.SEL: OVF clears, the rest is taken or refused (R401). -/
def Dev.selWrite (d : Dev) (k v : Nat) : Dev :=
  let e := CNT.SEL.EVENT.of v
  if !eventCodes.contains e || (decide (k < 1024) && decide (0x100 ≤ e)) then d.setOn CNT.SNAP_STATUS.SEL_REFUSED 0 true
  else
    let d := d.writeFields false .CNT_SEL k v
    -- what the event was in the cc before is that of the new event: none yet
    { d with cnt := { d.cnt with prev := SMap.put 0 d.cnt.prev k 0 } }

/-- A write of VAL_LO is staged for its master. -/
def Dev.valStage (d : Dev) (m : Master) (v : Nat) : Dev :=
  { d with cnt := { d.cnt with staged := SMap.put 0 d.cnt.staged m.code (v % 2 ^ 32 + 1) } }

/-- A write of VAL_HI applies both halves; a half never staged keeps its bits (R402). -/
def Dev.valWrite (d : Dev) (m : Master) (k v : Nat) : Dev :=
  let lo := match SMap.get 0 d.cnt.staged m.code with
    | 0 => d.count k % 2 ^ 32
    | n + 1 => n
  let d := d.setCount k (lo + v % 65536 * 2 ^ 32)
  { d with cnt := { d.cnt with staged := SMap.put 0 d.cnt.staged m.code 0 } }

/-! ### Snapshots (R404 to R406) -/

/-- A snapshot is requested by software. -/
def Dev.snapAsk (d : Dev) : Dev :=
  ({ d with cnt := { d.cnt with sw := true } } : Dev).setOn CNT.SNAP_STATUS.PENDING 0 true

/-- A write of RUN: it applies at the strobe it requests. -/
def Dev.runWrite (d : Dev) (on : Bool) : Dev :=
  let d := d.setOn CNT.SNAP_CTL.RUN 0 on
  ({ d with cnt := { d.cnt with runNext := some on } } : Dev).snapAsk

/-- Entries of the dump ring in use. -/
def dumpN (size : Nat) : Nat := 2 ^ max 1 size

/-- The dump settings in use: period, enable, target, size. -/
def Dev.dumpUse (d : Dev) : Nat × Bool × Bool × Nat := d.cnt.dumpUse.getD (1000, false, false, 4)

/-- The ring holds N − 1 unread entries. -/
def Dev.dumpFull (d : Dev) : Bool :=
  let n := dumpN d.dumpUse.2.2.2
  (d.rd CNT.DUMP_RING.TAIL + 1) % n == d.rd CNT.DUMP_RING.HEAD % n

/-- Every counter is copied into bank `b`. -/
def Dev.snapInto (d : Dev) (b : Nat) : Dev :=
  { d with cnt := { d.cnt with
    snap := (List.range 1280).foldl (fun m k => SMap.put 0 m (b * 2048 + k) (d.count k)) d.cnt.snap } }

/-- A strobe falls. -/
def Dev.strobe (d : Dev) : Dev :=
  let next := 1 - d.cnt.bank
  let d := d.setOn CNT.SNAP_STATUS.PENDING 0 false
  let run := d.cnt.runNext.getD d.cnt.running
  let d :=
    if d.cnt.dumping = some next then
      ({ d with cnt := { d.cnt with skipped := d.cnt.skipped + 1, sw := false } } : Dev).setOn CNT.SNAP_STATUS.SKIPPED 0 true
    else
      let d := d.snapInto next
      let seq := d.cnt.seq + 1
      let d : Dev := { d with cnt := { d.cnt with bank := next, seq := seq, strobe := d.timeBase } }
      let d := (d.wr CNT.SNAP_STATUS.SEQ 0 seq).wr CNT.SNAP_TIME_LO.TIME 0 d.timeBase
      let d := d.wr CNT.SNAP_TIME_HI.TIME 0 (d.timeBase / 2 ^ 32)
      if !d.dumpUse.2.1 then { d with cnt := { d.cnt with sw := false } }
      else if d.dumpFull then
        ({ d with cnt := { d.cnt with sw := false } } : Dev).setOn CNT.SNAP_STATUS.OVERFLOW 0 true
      else if d.cnt.dumping.isSome then d
      else { d with cnt := { d.cnt with dumping := some next } }
  { d with cnt := { d.cnt with running := run, runNext := none } }

/-! ### Dumps (R407 to R409) -/

/-- A ring of these settings lies in Spur memory. -/
def dumpFits (base size : Nat) : Bool := decide ((base + dumpN size) * 32768 ≤ 0x400000)

/-- A write of DUMP_CTL: refused as a whole if it enables a ring that does not fit. -/
def Dev.dumpCtlWrite (d : Dev) (v : Nat) : Dev :=
  if v.testBit 20 && !v.testBit 21 && !dumpFits (d.rd CNT.DUMP_BASE.BASE) (CNT.DUMP_CTL.SIZE.of v) then
    d.setOn CNT.SNAP_STATUS.DUMP_REFUSED 0 true
  else d.writeFields false .CNT_DUMP_CTL 0 v

/-- A period boundary: DUMP_CTL as written comes into use, and with EN a strobe is due. -/
def Dev.dumpPeriod (d : Dev) : Dev :=
  let us := min 1000000 (max 10 (d.rd CNT.DUMP_CTL.PERIOD_US))
  let en := d.on CNT.DUMP_CTL.EN
  let d : Dev := { d with cnt := { d.cnt with
    dumpUse := some (us, en, d.on CNT.DUMP_CTL.TARGET, d.rd CNT.DUMP_CTL.SIZE) } }
  d.when en fun d => d.setOn CNT.SNAP_STATUS.PENDING 0 true

/-- The value of a bandwidth window: 0 while its port's EN is 0 (R411). -/
def Dev.bwValue (d : Dev) (w : Nat) : Nat := if d.on PORT.BW_CTL.EN (w / 16) then SMap.get 0 d.cnt.bwVal w else 0

/-- A counter as an entry shows it. -/
def Dev.dumpCounter (d : Dev) (b k : Nat) : Nat :=
  SMap.get 0 d.cnt.snap (b * 2048 + k) + d.rd CNT.SEL.OVF k * 2 ^ 48 + d.rd CNT.SEL.EN k * 2 ^ 49 + d.rd CNT.SEL.EVENT k * 2 ^ 50 +
    d.rd CNT.SEL.MODE k * 2 ^ 60

/-- The 18,496 bytes of an entry, VALID set (R408). -/
def Dev.dumpBytes (d : Dev) (b : Nat) : List Byte :=
  natBytes 8 d.cnt.seq ++ natBytes 8 d.cnt.strobe ++ natBytes 2 1280 ++ natBytes 2 2048 ++
    natBytes 1 (d.cnt.sw.toNat + d.cnt.running.toNat * 2) ++ natBytes 3 0 ++ natBytes 4 (min d.cnt.skipped (2 ^ 32 - 1)) ++ natBytes 28 0 ++
    natBytes 4 (d.rd FABRIC.ID.DEV + d.rd FABRIC.ID.FABRIC * 256) ++ natBytes 4 1 ++
    ((List.range 1280).flatMap fun k => natBytes 8 (d.dumpCounter b k)) ++ ((List.range 2048).flatMap fun w => natBytes 4 (d.bwValue w))

/-- The entry has been written: TAIL moves on and EVENT.DUMP is set. -/
def Dev.dumpValid (d : Dev) : Dev :=
  let d := d.wr CNT.DUMP_RING.TAIL 0 ((d.rd CNT.DUMP_RING.TAIL + 1) % dumpN d.dumpUse.2.2.2)
  ({ d with cnt := { d.cnt with dumping := none, sw := false, skipped := 0 } } : Dev).signalDump

/-- The entry in Tarn: checked as a Spur access (R147); a refusal ends the dumps. One that needs snoops waits. -/
def Dev.dumpTarn (d : Dev) (off : Nat) (data : List Byte) : Dev :=
  let i := d.rd CNT.DUMP_BASE.DESC
  let q : PoolAcc := { desc := i, tenant := none, key := none, host := none, device := true, addr := (d.desc i).hbase + off,
                       len := data.length, op := .write }
  let pool := (d.desc i).poolOf q.addr
  match d.poolCheck q with
  | some (cause, bad) =>
    let d := (d.poolRefuse q cause bad 0 0).setOn CNT.DUMP_CTL.EN 0 false
    let u := d.dumpUse
    ({ d with cnt := { d.cnt with dumping := none, sw := false, dumpUse := some (u.1, false, u.2.2) } } : Dev).setOn
      CNT.SNAP_STATUS.DUMP_FAULT 0 true
  | none =>
    let r := d.deviceReady .write i (linesOf pool data.length)
    if r.1 then ((r.2.dirPerform .write none i (linesOf pool data.length)).poolWrite pool data false).dumpValid else r.2

def Dev.dumpEntry (d : Dev) : Dev :=
  match d.cnt.dumping with
  | none => d
  | some b =>
    let off := (d.rd CNT.DUMP_BASE.BASE + d.rd CNT.DUMP_RING.TAIL % dumpN d.dumpUse.2.2.2) * 32768
    if d.dumpUse.2.2.1 then d.dumpTarn off (d.dumpBytes b) else (d.spurStore off (d.dumpBytes b)).dumpValid

/-! ### Bandwidth windows (R410, R411) -/

/-- A boundary of a port's windows. -/
def Dev.bwBoundary (d : Dev) (p : Nat) : Dev :=
  d.each 16 fun i d =>
    let w := 16 * p + i
    let v := SMap.get 0 d.cnt.bwBytes w / 64 % 2 ^ 32
    { d with cnt := { d.cnt with
      bwBytes := SMap.put 0 d.cnt.bwBytes w 0
      bwVal := SMap.put 0 d.cnt.bwVal w v
      bwPeak := SMap.put 0 d.cnt.bwPeak w (max v (SMap.get 0 d.cnt.bwPeak w)) } }

/-! ### Level events (R399, R403) -/

/-- Contexts in use by a tenant, or all; in quarantine. -/
def Dev.ctxCount (d : Dev) (ten : Option Nat) (quarantined : Bool) : Nat :=
  (d.trv.ctx.filter fun e => match e.2 with
    | some c => (!quarantined || c.quarantined) && ten.all (· == c.tenant)
    | none => false).length

/-- The value of a level event at an instance, with the qualifiers of counter `k`. -/
def Dev.levelAt (d : Dev) (k code inst : Nat) : Nat :=
  let ten := if d.on CNT.QUAL.TEN_EN k then some (d.rd CNT.QUAL.TENANT k) else none
  match code with
  | 0x010 => match ten with
    | some n => d.rd TILE.VOQ_TEN_USE.USED (inst * 512 + n)
    | none => d.rd TILE.VOQ_STATUS.USED inst
  | 0x013 => ((List.range 8).filter fun s => (d.rd CNT.QUAL.SLOT_MASK k).testBit s &&
      d.sad.pkts.any fun x => x.port == 8 * inst + s && x.phase == .landed).length
  | 0x015 => if 16 ≤ (d.sad.pkts.filter fun x => x.port / 8 == inst && x.phase == .waiting).length then 1 else 0
  | 0x114 => (d.tarn.trackers.filter fun t => stackOfLine t.line == inst).length
  | 0x130 => d.ctxCount ten false
  | 0x131 => d.ctxCount none true
  | 0x142 => if (d.core inst).wait == .none then 0 else 1
  | _ => 0

/-- Instances of a level event. -/
def levelInsts (code : Nat) : Option Nat :=
  match code with
  | 0x010 | 0x013 | 0x015 => some 16
  | 0x114 => some 4
  | 0x130 | 0x131 => some 1
  | 0x142 => some 9
  | _ => none

/-- Its value for counter `k`: of one instance, or summed over all (R400). -/
def Dev.levelFor (d : Dev) (k code n : Nat) : Nat :=
  if 1024 ≤ k ∧ d.on CNT.SEL.INST_ALL k then (List.range n).foldl (fun v i => v + d.levelAt k code i) 0
  else
    let i := if k < 1024 then k / 64 else d.rd CNT.SEL.INST k
    if n = 1 then d.levelAt k code 0 else if i < n then d.levelAt k code i else 0

/-- A tb of 6 cc passes on the counters of level events. -/
def Dev.levelTick (d : Dev) : Dev :=
  if d.cnt.running then
    d.forIn' d.enabledCounters fun k d =>
      let code := d.rd CNT.SEL.EVENT k
      match levelInsts code with
      | none => d
      | some n =>
        let v := d.levelFor k code n
        let d := d.each 6 fun _ d =>
          let d := d.countOne k v
          { d with cnt := { d.cnt with prev := SMap.put 0 d.cnt.prev k v } }
        d
  else d

/-! ### The commands -/

def Dev.cntRun (d : Dev) (f : Dev → Dev) : Dev := if d.coreUp then f d else d

/-- The write goes to the counter its master has selected. -/
def Dev.onCounter (d : Dev) (m : Master) (f : Nat → Dev → Dev) : Dev :=
  match d.cntIdx m with
  | some k => f k d
  | none => d

def execCntSelWrite (m : Master) (v : W32) (s : State) :=
  s.lift fun d => d.cntRun fun d => d.onCounter m fun k d => d.selWrite k v.toNat
def execCntValWrite (m : Master) (v : W32) (s : State) :=
  s.lift fun d => d.cntRun fun d => d.onCounter m fun k d => d.valWrite m k v.toNat
def execGo (_m : Master) (s : State) := s.lift fun d => d.cntRun fun d => d.snapAsk
def execRun (_m : Master) (on : Bool) (s : State) := s.lift fun d => d.cntRun fun d => d.runWrite on

/-- A tb edge on which a requested strobe falls. -/
def execSnapshotStrobe (s : State) :=
  s.lift fun d => d.cntRun fun d => if d.on CNT.SNAP_STATUS.PENDING then d.strobe else d
def execDumpPeriod (s : State) := s.lift fun d => d.cntRun fun d => d.dumpPeriod
def execDumpEntryComplete (s : State) := s.lift fun d => d.cntRun fun d => d.dumpEntry
def execDumpCtlWrite (_m : Master) (v : W32) (s : State) := s.lift fun d => d.cntRun fun d => d.dumpCtlWrite v.toNat
def execBwWindowBoundary (p : Fin 128) (s : State) := s.lift fun d => d.cntRun fun d => d.bwBoundary p

/-! ### The Cairn's commands (R414, R416, R418, R419) -/

/-- The oldest waiting record of a source is written: which source it is, is the round-robin's choice. -/
def execCairnRecord (src inst : Fin 256) (s : State) :=
  s.lift fun d =>
    if d.vauxUp && !d.on CAIRN.STATUS.FROZEN then
      let k := cairnKey src inst
      let q := SMap.get {} d.cairn.srcs k
      match q.queue with
      | [] => d
      | r :: rs => ({ d with cairn := { d.cairn with srcs := SMap.put {} d.cairn.srcs k { q with queue := rs } } } : Dev).cairnWrite r
    else d

/-- A software freeze, cause 4. -/
def Dev.cairnSoft (d : Dev) (m : Master) : Dev := d.cairnFreeze 4 0x0D 0 1 m.code 0

/-- A non-Summit write that would change an RWL field of the register at `off` is counted and recorded (R4, R482). -/
def Dev.refuseRwl (d : Dev) (m : Master) (off v : Nat) : Dev :=
  ({ d with rwlRefused := d.rwlRefused + 1 } : Dev).cairnPush 0x0E 0 1 off (v % 2 ^ 32 + m.code * 2 ^ 56)

/-- Summit re-arms a frozen Cairn; it goes on at WR_IDX (R418). -/
def Dev.cairnArm (d : Dev) : Dev :=
  if d.on CAIRN.STATUS.FROZEN then (d.setOn CAIRN.STATUS.FROZEN 0 false).cairnPush 0x08 0 4 (d.rd CAIRN.STATUS.WR_IDX) 0 else d

/-- A write of RD_IDX latches the record for its master (R419). -/
def Dev.rdIdxWrite (d : Dev) (m : Master) (i : Nat) : Dev :=
  let r := SMap.get .zero d.cairn.ring (i % 8192)
  ({ d with cairn := { d.cairn with latch := SMap.put .zero d.cairn.latch m.code r } } : Dev).wr CAIRN.RD_IDX.INDEX m.code i

def execFreeze (m : Master) (s : State) := s.lift fun d => if d.vauxUp then d.cairnSoft m else d
def execArm (m : Master) (s : State) :=
  s.lift fun d => if d.vauxUp then (if m = .summit then d.cairnArm else d.refuseRwl m 0x40000 2) else d
def execRdIdxWrite (m : Master) (i : Fin 8192) (s : State) := s.lift fun d => if d.vauxUp then d.rdIdxWrite m i else d

end Sys2Proof.Machine
end

