-- ==== Sys2Proof/Machine/Manager.lean ====
section
/-! DEFINITION. Manager commands (R214 to R220), the registers they write (R116, R198, R294), and BAR0 of a PF (R214, R281). -/

namespace Sys2Proof.Machine

open Sys2Proof

/-! ### Register writes with a refusal of their own -/

/-- A write of FN.PF_VFS[i] (R198): refused while VF Enable of the PF is 1 or if the TOTALVFS would sum to more than 512. Answers
whether it was taken. -/
def Dev.pfVfsWrite (d : Dev) (i v : Nat) : Bool × Dev :=
  let others := (List.range 64).foldl (fun n j => if j = i then n else n + d.rd FN.PF_VFS.TOTALVFS j) 0
  if (d.fn (d.rd FN.PF_VFS.PORT i)).vfEnable && d.on FN.PF_VFS.VALID i || decide (512 < others + FN.PF_VFS.TOTALVFS.of v) then
    (false, d.bump FN.REFUSED.COUNT 0)
  else (true, d.writeFields false .FN_PF_VFS i v)

def execPfVfsWrite (_m : Master) (i : Fin 64) (v : W32) (s : State) :=
  s.lift fun d => if d.coreUp then (d.pfVfsWrite i v.toNat).2 else d

/-- A new minimum of a tenant on a tile would not fit (R116). -/
def Dev.tenMinBad (d : Dev) (t n v : Nat) : Bool :=
  decide (65536 - d.tileLanding t - d.rd TILE.VOQ_SHARE.MIN t < d.sumMin t - d.tenMin t n + v)

def Dev.tenMinWrite (d : Dev) (t n v : Nat) : Dev :=
  if d.tenMinBad t n v then d.setOn TILE.VOQ_STATUS.MIN_REFUSED t true else d.wr TILE.VOQ_TEN_MIN.MIN (t * 512 + n) v

/-- A write of VOQ_TEN_MIN: the tenant is the one VOQ_TEN_IDX selects, one selector for all masters (R477). -/
def execVoqTenMinWrite (_m : Master) (t : Fin 16) (v : W32) (s : State) :=
  s.lift fun d =>
    if d.coreUp then
      d.tenMinWrite t (d.rd TILE.VOQ_TEN_IDX.TENANT t) (TILE.VOQ_TEN_MIN.MIN.of v.toNat)
    else d

/-! ### Commands -/

/-- Foothill takes a command of a source: the page of a manager port holds it, or the board management controller (with I3C_MGR) or a
task of Foothill's own brings it (R214, R380). -/
def Dev.mgrRun (d : Dev) (src seq op : Nat) (f : Dev → Dev) : Dev :=
  let m := d.mgrPage src
  if !d.coreUp || d.rd SUMMIT.BOOT_STATUS.STAGE != 4 then d
  else if src < 128 then
    if d.mgrPort src && m.busy && !m.taken && m.cmd.headD 0 % 256 == op && bits (m.cmd.headD 0) 16 16 == seq then
      f (d.setMgrPage src { m with taken := true })
    else d
  else if !m.busy && (src == 129 || d.summit.policy.any fun p => p.i3cMgr) then
    f (d.setMgrPage src { m with busy := true, taken := true, cmd := [op + seq % 2 ^ 16 * 2 ^ 16] })
  else d

def Dev.putTenant (d : Dev) (n : Nat) (t : Tenant) : Dev :=
  { d with trv := { d.trv with tenants := SMap.put {} d.trv.tenants n t } }

/-- TENANT_CREATE: NOT_FOUND for a host domain that does not exist, BAD_ARG for a tenant that does. -/
def execTenantCreate (src : Fin 130) (seq : BitVec 16) (n : Fin 512) (h : Fin 64) (s : State) :=
  s.lift fun d => d.mgrRun src seq.toNat 0x01 fun d =>
    if (d.tenant n).exists_ then d.mgrReply src 1 0
    else if !d.on FN.PF_VFS.VALID h then d.mgrReply src 2 0
    else (d.putTenant n { exists_ := true, domain := h, st := 0 }).mgrReply src 0 0

/-- TENANT_DESTROY: refused unless QUIESCED with no VF bound and no valid descriptor (R214, R220). -/
def execTenantDestroy (src : Fin 130) (seq : BitVec 16) (n : Fin 512) (s : State) :=
  s.lift fun d => d.mgrRun src seq.toNat 0x02 fun d =>
    let t := d.tenant n
    if !t.exists_ then d.mgrReply src 2 0
    else if t.st ≠ 2 ∨ d.vfsOf n ≠ [] ∨ (d.tarn.descs.any fun x => x.2.valid && x.2.tenant == n.val) then d.mgrReply src 5 0
    else (d.putTenant n {}).mgrReply src 0 0

/-- VF_ALLOT: TOTALVFS and BAR2_LOG2 of a PF (R198). -/
def execVfAllot (src : Fin 130) (seq : BitVec 16) (h : Fin 64) (total : Fin 1024) (log2 : Fin 64) (s : State) :=
  s.lift fun d => d.mgrRun src seq.toNat 0x03 fun d =>
    let w := total.val + log2.val * 2 ^ 10 + d.rd FN.PF_VFS.PORT h * 2 ^ 16 + d.rd FN.PF_VFS.VALID h * 2 ^ 23
    let x := d.pfVfsWrite h w
    x.2.mgrReply src (if x.1 then 0 else 1) 0

/-- VF_BIND: BAD_ARG for a VF already bound or one of another host domain (R196). -/
def execVfBind (src : Fin 130) (seq : BitVec 16) (v n : Fin 512) (s : State) :=
  s.lift fun d => d.mgrRun src seq.toNat 0x04 fun d =>
    if !(d.tenant n).exists_ then d.mgrReply src 2 0
    else if d.on FN.VF_BIND.BOUND v || d.domainOfVf v != some (d.tenant n).domain then d.mgrReply src 1 0
    else ((d.wr FN.VF_BIND.TENANT v n).setOn FN.VF_BIND.BOUND v true).mgrReply src 0 0

/-- VF_UNBIND: NOT_QUIESCED unless the VF is quiesced. -/
def execVfUnbind (src : Fin 130) (seq : BitVec 16) (v : Fin 512) (s : State) :=
  s.lift fun d => d.mgrRun src seq.toNat 0x0F fun d =>
    if !d.on FN.VF_BIND.BOUND v then d.mgrReply src 2 0
    else if d.rd FN.VF_BIND.STATE v ≠ 2 then d.mgrReply src 5 0
    else (d.setOn FN.VF_BIND.BOUND v false).mgrReply src 0 0

/-- SHARE_SET: minimum and cap on every tile of a mask, or on none (R116, R117). -/
def execShareSet (src : Fin 130) (seq : BitVec 16) (n : Fin 512) (tiles : BitVec 16) (min cap : Fin 131072) (s : State) :=
  s.lift fun d => d.mgrRun src seq.toNat 0x05 fun d =>
    let ts := (List.range 16).filter fun t => tiles.getLsbD t
    if !(d.tenant n).exists_ then d.mgrReply src 2 0
    else if ts.any fun t => d.tenMinBad t n min then d.mgrReply src 1 0
    else
      (d.forIn' ts fun t d => (d.wr TILE.VOQ_TEN_MIN.MIN (t * 512 + n) min).wr TILE.VOQ_TEN_CAP.CAP (t * 512 + n) cap).mgrReply src 0 0

/-- WEIGHT_SET: Saddle weight and Traverse weight of a tenant (R111, R206). -/
def execWeightSet (src : Fin 130) (seq : BitVec 16) (n : Fin 512) (saddle trv : Fin 256) (s : State) :=
  s.lift fun d => d.mgrRun src seq.toNat 0x06 fun d =>
    if !(d.tenant n).exists_ then d.mgrReply src 2 0
    else ((d.wr SADDLE.TEN_WT.WEIGHT n saddle).wr TRV.TEN_CFG.WEIGHT n trv).mgrReply src 0 0

/-- CTX_CAP_SET: the tenant's cap on contexts (R203). -/
def execCtxCapSet (src : Fin 130) (seq : BitVec 16) (n : Fin 512) (cap : Fin 32768) (s : State) :=
  s.lift fun d => d.mgrRun src seq.toNat 0x07 fun d =>
    if !(d.tenant n).exists_ then d.mgrReply src 2 0 else (d.wr CTX.TEN_CAP.CAP n cap).mgrReply src 0 0

/-- Nothing stands or runs in the state queue, so that Summit takes a command that Foothill passes on (R384). -/
def Dev.stateIdle (d : Dev) : Bool := !d.summit.stateRun && d.summit.stateQ.isEmpty

/-- REGION_SET: passed to Summit, which checks and commits as for REGION_COMMIT; no key block comes with it. -/
def execRegionSet (src : Fin 130) (seq : BitVec 16) (i : Fin 4096) (w : Vector W32 6) (s : State) :=
  s.lift fun d =>
    if d.stateIdle then
      d.mgrRun src seq.toNat 0x08 fun d =>
        d.commitAsk (1000 + src) i (Desc.ofWords fun k => (w.toList.getD k 0).toNat) none
    else d

/-- RECOLOUR: passed to Summit. -/
def execMgrRecolour (src : Fin 130) (seq : BitVec 16) (first count : Fin 131072) (colour : Fin 16) (zero : Bool) (s : State) :=
  s.lift fun d =>
    if d.stateIdle then d.mgrRun src seq.toNat 0x09 fun d => d.recolourAsk (1000 + src) first count colour zero else d

/-- A VDSP_MAP entry may take port `p` of device `dev` (R294): the entry is free or names it already, a transparent port of this device
is named by no other, a shared one by no other of the same domain. -/
def Dev.vdspMapOk (d : Dev) (h k dev p : Nat) : Bool :=
  let i := h * 32 + k
  let others := (d.vdspsAt dev p).filter (· != i)
  let here := dev == d.rd FABRIC.ID.DEV
  let free := !d.on VSW.VDSP_MAP.VALID i || (d.rd VSW.VDSP_MAP.PORT i == p && d.rd VSW.VDSP_MAP.DEV i == dev)
  decide (1 ≤ k) && free && (!here || d.downstream p) &&
    (if here && d.on PORT.CFG.TRANSPARENT p then others.isEmpty else others.all fun j => j / 32 != h)

/-- FUNC_ASSIGN: the functions behind a downstream port go to a host domain, seen through vDSP `k` (R294). `lo` to `hi` are
their requester IDs; which exact-match entries Foothill writes for them is its programs' affair. -/
def execFuncAssign (src : Fin 130) (seq : BitVec 16) (h : Fin 64) (k : Fin 32) (dev : Fin 256) (p : Fin 128) (lo hi : BitVec 16)
    (s : State) :=
  s.lift fun d => d.mgrRun src seq.toNat 0x0A fun d =>
    if !d.on FN.PF_VFS.VALID h then d.mgrReply src 2 0
    else if !d.vdspMapOk h k dev p || decide (hi.toNat < lo.toNat) then d.mgrReply src 1 0
    else
      let i := h.val * 32 + k.val
      let d := d.vdspRemap i
      (((d.wr VSW.VDSP_MAP.PORT i p).wr VSW.VDSP_MAP.DEV i dev).setOn VSW.VDSP_MAP.VALID i true).mgrReply src 0 0

/-- TRVQ_SET: peer windows and allowed descriptors of a queue (R207, R210). -/
def execTrvqSet (src : Fin 130) (seq : BitVec 16) (q : Fin 4096) (wins : List (W64 × W64 × Bool × Fin 128)) (descs : List (Fin 4096))
    (s : State) :=
  s.lift fun d => d.mgrRun src seq.toNat 0x0B fun d =>
    if 4 < wins.length ∨ 4 < descs.length then d.mgrReply src 1 0
    else
      (d.setQueue q { d.queue q with
        wins := wins.map fun w => ⟨w.1.toNat, w.2.1.toNat, w.2.2.1, w.2.2.2⟩, descs := descs.map (·.val) }).mgrReply src 0 0

/-! ### Quiesce (R216) -/

/-- A QUIESCE ends OK once its target is quiesced; source 999 waits for nothing any more. -/
def Dev.quiesceEnd (d : Dev) (z : Quiesce) : Dev :=
  let d := d.markQuiesced z.target
  let d : Dev := { d with trv := { d.trv with quiesces := d.trv.quiesces.filter fun y => y != z } }
  if z.source = 999 then d else d.mgrReply z.source 0 0

/-- Every QUIESCE whose target has come to rest ends. -/
def Dev.quiesceCheck (d : Dev) : Dev :=
  d.forIn' d.trv.quiesces fun z d => if d.quiesced z then d.quiesceEnd z else d

/-- The target exists. -/
def Dev.targetThere (d : Dev) (t : Nat) : Bool := if t < 512 then (d.tenant t).exists_ else d.on FN.VF_BIND.BOUND (t - 512)

/-- Step 1 of R216: the queues of the target refuse new work. -/
def Dev.holdTarget (d : Dev) (t : Nat) (hold : Bool) : Dev :=
  d.forIn' (d.targetVfs t) fun v d => d.each 8 fun i d => d.setQueue (8 * v + i) { d.queue (8 * v + i) with holdNew := hold }

/-- QUIESCE of tenant n (n) or VF v (512 + v); Summit gets a copy of a command from a page or over I3C (R386). -/
def execQuiesce (src : Fin 130) (seq : BitVec 16) (t : Fin 1024) (cancel : Bool) (ms : BitVec 16) (s : State) :=
  s.lift fun d => d.mgrRun src seq.toNat 0x0C fun d =>
    if !d.targetThere t then d.mgrReply src 2 0
    else
      let d := d.holdTarget t true
      let d := if t.val < 512 then d.putTenant t { d.tenant t with st := 1 } else d
      let d := if cancel then d.cancelTarget t else d
      let d := if src.val < 129 then d.armTimer t ms.toNat else d
      let z : Quiesce := { target := t, cancel := cancel, source := src, seq := seq.toNat, deadline := d.timeBase + ms.toNat * 250000 }
      ({ d with trv := { d.trv with quiesces := d.trv.quiesces ++ [z] } } : Dev).quiesceCheck

/-- At the deadline an unfinished QUIESCE returns DEADLINE_MISSED and Foothill cancels (R216 step 4). -/
def execQuiesceDeadline (t : Fin 1024) (s : State) :=
  s.lift fun d =>
    match d.trv.quiesces.find? fun z => z.target == t.val && z.source != 999 && decide (z.deadline ≤ d.timeBase) with
    | none => d
    | some z =>
      if d.coreUp then
        if d.quiesced z then d.quiesceEnd z
        else
          let d : Dev := { d with trv := { d.trv with
            quiesces := d.trv.quiesces.map fun y => if y = z then { z with cancel := true, source := 999 } else y } }
          ((d.mgrReply z.source 6 0).cancelTarget t).quiesceCheck
      else d

/-- RELEASE returns a tenant or a VF to normal: its queues take work again once RESUME is written. -/
def execRelease (src : Fin 130) (seq : BitVec 16) (t : Fin 1024) (s : State) :=
  s.lift fun d => d.mgrRun src seq.toNat 0x0D fun d =>
    if !d.targetThere t then d.mgrReply src 2 0
    else
      let d := (d.holdTarget t false).when (decide (t.val < 512) && d.tenFrozen t) fun d => d.tenantRelease t
      let d := if t.val < 512 then d.putTenant t { d.tenant t with st := 0 } else d
      let d := d.forIn' (d.targetVfs t) fun v d =>
        if d.rd FN.VF_BIND.STATE v = 2 then d.wr FN.VF_BIND.STATE v (if (d.fn (128 + v)).bme then 0 else 3) else d
      let d : Dev := { d with trv := { d.trv with quiesces := d.trv.quiesces.filter fun z => z.target != t.val || z.source != 999 } }
      d.mgrReply src 0 0

/-- QUERY: the tenant's state and counts; how they are packed in the result R214 does not say, so the result word is free. -/
def execQuery (src : Fin 130) (seq : BitVec 16) (n : Fin 512) (s : State) :=
  s.lift fun d => d.mgrRun src seq.toNat 0x0E fun d =>
    if !(d.tenant n).exists_ then d.mgrReply src 2 0
    else
      let vfs := d.vfsOf n
      let descs := (SMap.keys (fun _ x => x.valid && x.tenant == n.val) d.tarn.descs).length
      let qs := (vfs.flatMap fun v => d.queuesOf v).length
      let x := d.draw
      let d := x.2.setMgrPage src { x.2.mgrPage src with
        query := [(d.tenant n).st, vfs.length, descs, qs, d.rd CTX.TEN_USE.USED n] }
      d.mgrReply src 0 x.1.toNat

/-! ### BAR0 of a PF (R214, R281) -/

/-- A word of the manager page; zero on a port that is no manager port. -/
def Dev.mgrPageRead (d : Dev) (p off : Nat) : Nat :=
  let m := d.mgrPage p
  if !d.mgrPort p then 0
  else if off < 0x40 then bits (m.cmd.getD (off / 8) 0) (off % 8 * 8) 32
  else match off / 4 with
    | 0x20 => m.resp0 % 2 ^ 32
    | 0x21 => m.resp0 / 2 ^ 32 % 2 ^ 32
    | 0x22 => m.resp1 % 2 ^ 32
    | 0x23 => m.resp1 / 2 ^ 32 % 2 ^ 32
    | 0x24 => m.busy.toNat
    | 0x28 => m.evBase % 2 ^ 32
    | 0x29 => m.evBase / 2 ^ 32
    | 0x2A => m.evSize + m.overflow.toNat * 16
    | 0x2B => m.tail
    | 0x2C => m.head
    | _ => 0

/-- A word of a list of 64-bit words takes a 32-bit half. -/
def putHalf (ws : List Nat) (off v : Nat) : List Nat :=
  let ws := ws ++ List.replicate (8 - ws.length) 0
  ws.set (off / 8) (setBits (ws.getD (off / 8) 0) (off % 8 * 8) 32 v)

/-- A write of a word of the manager page (R214): ignored and counted off a manager port; the command cannot be changed while it runs. An
opcode that R214 does not list is answered BAD_ARG. -/
def Dev.mgrPageWrite (d : Dev) (p off v : Nat) : Dev :=
  let m := d.mgrPage p
  if !d.mgrPort p then d.setMgrPage p { m with ignored := m.ignored + 1 }
  else if off < 0x40 then (if m.busy then d else d.setMgrPage p { m with cmd := putHalf m.cmd (off / 4 * 4) v })
  else match off / 4 with
    | 0x10 =>
      if v % 2 = 1 ∧ !m.busy then
        let d := d.setMgrPage p { m with busy := true, taken := false }
        let op := m.cmd.headD 0 % 256
        if op = 0 ∨ 0x0F < op then d.mgrReply p 1 0 else d
      else d
    | 0x28 => d.setMgrPage p { m with evBase := setBits m.evBase 0 32 v, head := 0, tail := 0 }
    | 0x29 => d.setMgrPage p { m with evBase := setBits m.evBase 32 32 v, head := 0, tail := 0 }
    | 0x2A =>
      let m := { m with overflow := m.overflow && !v.testBit 4 }
      d.setMgrPage p (if m.evSize = v % 16 then m else { m with evSize := v % 16, head := 0, tail := 0 })
    | 0x2C => d.setMgrPage p { m with head := v % 65536 }
    | _ => d

def Dev.errRing (d : Dev) (p : Nat) : ErrRing := SMap.get {} d.ctn.rings p
def Dev.setErrRing (d : Dev) (p : Nat) (g : ErrRing) : Dev := { d with ctn := { d.ctn with rings := SMap.put {} d.ctn.rings p g } }

/-- A word of PF BAR0: the manager page, and the error ring at 0x1000. -/
def Dev.bar0Read (d : Dev) (p off : Nat) : Nat :=
  let g := d.errRing p
  match off / 4 with
  | 0x400 => g.base % 2 ^ 32
  | 0x401 => g.base / 2 ^ 32
  | 0x402 => g.size + g.enable.toNat * 16 + g.overflow.toNat * 32
  | 0x403 => g.tail
  | 0x404 => g.head
  | _ => if off < 0x1000 then d.mgrPageRead p off else 0

def Dev.bar0Write (d : Dev) (p off v : Nat) : Dev :=
  let g := d.errRing p
  match off / 4 with
  | 0x400 => d.setErrRing p { g with base := setBits g.base 0 32 (v / 32 * 32) }
  | 0x401 => d.setErrRing p { g with base := setBits g.base 32 32 v }
  | 0x402 => d.setErrRing p { g with size := v % 16, enable := v.testBit 4, overflow := g.overflow && !v.testBit 5 }
  | 0x404 => d.setErrRing p { g with head := v % 4096 }
  | _ => if off < 0x1000 then d.mgrPageWrite p off v else d

end Sys2Proof.Machine
end

