-- ==== Sys2Proof/Machine/HostCfg.lean ====
section
/-! DEFINITION. The configuration responder of an upstream port and the configuration space it holds (10_host_ports_pcie_cxl R293 to
R303, R307 to R309, R480; R197). Fields inside a standard header or capability lie where the PCI Express standard has them (PRESUMED). -/

namespace Sys2Proof.Machine

open Sys2Proof

/-- The functions of an upstream port (R293); a VF by its global index. -/
inductive FnKind where
  | usp
  | vdsp (k : Nat)
  | pf
  | vf (v : Nat)
  deriving DecidableEq, Repr

/-- Its number in `Cfg`. -/
def FnKind.num : FnKind → Nat
  | .usp => fnUsp
  | .vdsp k => fnVdsp k
  | .pf => fnPf
  | .vf v => fnVf v

def FnKind.bridge : FnKind → Bool
  | .usp | .vdsp _ => true
  | _ => false

/-- domain × 32 + k of a vDSP. -/
def Dev.vdspAt (d : Dev) (p k : Nat) : Nat := ((d.domainOfPort p).getD 0) * 32 + k

/-! ### Capabilities (R295, R480) -/

/-- Capabilities in the first 256 bytes: offset and ID of the standard. -/
def FnKind.caps : FnKind → List (Nat × Nat)
  | .usp => [(0x40, 0x10), (0x80, 0x01)]
  | .vdsp _ => [(0x40, 0x10), (0x80, 0x01), (0x90, 0x05)]
  | .pf => [(0x40, 0x10), (0x80, 0x01), (0xA0, 0x11)]
  | .vf _ => [(0x40, 0x10), (0xA0, 0x11)]

/-- The link capabilities. -/
def linkCaps : List (Nat × Nat) :=
  [(0x200, 0x25), (0x210, 0x26), (0x240, 0x2A), (0x270, 0x31), (0x290, 0x27), (0x2E0, 0x32), (0x300, 0x1E), (0x310, 0x18)]

/-- Extended capabilities: `link` where the function carries those of its physical port, `cxl` where it carries the DVSECs. -/
def FnKind.extCaps (t : FnKind) (link cxl : Bool) : List (Nat × Nat) :=
  let dv : List (Nat × Nat) := if cxl then [(0x600, 0x23)] else []
  match t with
  | .usp => [(0x100, 0x01), (0x1F0, 0x03)] ++ linkCaps ++ [(0x320, 0x1F), (0x330, 0x2E), (0x380, 0x30)] ++ dv
  | .vdsp _ =>
    [(0x100, 0x01), (0x148, 0x0D), (0x1A0, 0x1D)] ++ (if link then linkCaps else []) ++ [(0x320, 0x1F)] ++
      (if link then [(0x330, 0x2E), (0x380, 0x30)] else []) ++ dv
  | .pf => [(0x100, 0x01), (0x150, 0x0E), (0x160, 0x10), (0x1F0, 0x03)] ++ dv
  | .vf _ => [(0x150, 0x0E)]

/-- The next present capability behind `off`; 0 ends the chain. -/
def nextCap (l : List (Nat × Nat)) (off : Nat) : Nat :=
  match l.find? fun c => decide (off < c.1) with
  | some c => c.1
  | none => 0

/-- The local port whose registers stand behind the link registers of a function. -/
def Dev.fnPort (d : Dev) (p : Nat) : FnKind → Option Nat
  | .usp => some p
  | .vdsp k =>
    let i := d.vdspAt p k
    if 1 ≤ k ∧ d.on VSW.VDSP_MAP.VALID i ∧ d.rd VSW.VDSP_MAP.DEV i = d.rd FABRIC.ID.DEV then some (d.rd VSW.VDSP_MAP.PORT i) else none
  | _ => none

/-- The function carries the link capabilities of its port. -/
def Dev.fnLink (d : Dev) (p : Nat) : FnKind → Bool
  | .usp => true
  | .vdsp k => decide (1 ≤ k) && (d.ownPort (d.vdspAt p k)).isSome
  | _ => false

/-- The function carries CXL DVSECs: USP and PF of a CXL port, vDSP 0, CXL transparent ports. -/
def Dev.fnCxl (d : Dev) (p : Nat) : FnKind → Bool
  | .vdsp 0 => d.on PORT.LINK_STATUS.CXL_ACTIVE p
  | .vdsp k => (d.ownPort (d.vdspAt p k)).any fun q => d.on PORT.LINK_STATUS.CXL_ACTIVE q
  | .vf _ => false
  | _ => d.on PORT.LINK_STATUS.CXL_ACTIVE p

/-! ### Reads -/

/-- Link Control as written and Link Status: speed, width, training, Data Link Layer active. -/
def Dev.linkWord (d : Dev) (p : Nat) (t : FnKind) : Nat :=
  let ctl := d.cfg p t.num 0x50 % 65536
  let view := match t with
    | .vdsp k => !(d.vdsp (d.vdspAt p k)).viewDown
    | _ => true
  let own := match t with
    | .vdsp k => (d.ownPort (d.vdspAt p k)).isSome
    | _ => true
  match d.fnPort p t with
  | some q =>
    let w := (2 ^ d.rd PORT.LINK_STATUS.L0P_WIDTH q) % 64
    let training := own && (d.linkState q == 1 || d.linkState q == 2 || d.linkState q == 3 || d.linkState q == 5)
    ctl + d.rd PORT.LINK_STATUS.RATE q % 16 * 2 ^ 16 + w * 2 ^ 20 + training.toNat * 2 ^ 27 +
      (d.on PORT.LINK_STATUS.DL_ACTIVE q && view).toNat * 2 ^ 29
  | none =>
    match t with
    | .vdsp k =>
      let i := d.vdspAt p k
      if 1 ≤ k ∧ d.on VSW.VDSP_MAP.VALID i then
        let c := Config.linkCopy (d.rd VSW.VDSP_MAP.DEV i) (d.rd VSW.VDSP_MAP.PORT i) d.timeBase % 65536
        ctl + (c - bits c 11 1 * 2 ^ 11 - (if view then 0 else bits c 13 1 * 2 ^ 13)) * 2 ^ 16
      else ctl
    | _ => ctl

/-- Slot Capabilities (R307): attention button, power controller, attention and power indicators, hot-plug, the power limit, the slot
number. -/
def Dev.slotCaps (d : Dev) (p k : Nat) : Nat :=
  let i := d.vdspAt p k
  let pwr := (d.vdspSlot i).isSome
  let slot := (d.fnPort p (.vdsp k)).bind d.slotOf
  0x59 + pwr.toNat * 2 +
    (match slot with
      | some s => Config.slotPower s (d.rd SLOT.PWR_LIMIT.ILIM s) % 2 ^ 10 * 2 ^ 7 + (1 + s) % 8192 * 2 ^ 19
      | none => 0)

/-- Slot Control and Slot Status (R308). -/
def Dev.slotWord (d : Dev) (p k : Nat) : Nat :=
  let v := d.vdsp (d.vdspAt p k)
  let kept := d.cfg p (fnVdsp k) 0x58
  bits kept 0 6 + v.attnInd % 4 * 2 ^ 6 + v.powerInd % 4 * 2 ^ 8 + v.powerOff.toNat * 2 ^ 10 + bits kept 12 1 * 2 ^ 12 +
    v.attention.toNat * 2 ^ 16 + v.powerFault.toNat * 2 ^ 17 + v.pdChanged.toNat * 2 ^ 19 + v.cmdCompleted.toNat * 2 ^ 20 +
    v.pdState.toNat * 2 ^ 22 + v.dllChanged.toNat * 2 ^ 24

/-- DPC Status (R309). -/
def Dev.dpcWord (d : Dev) (p k : Nat) : Nat :=
  let v := d.vdsp (d.vdspAt p k)
  v.dpcTrig.toNat + v.dpcReason % 4 * 2 + v.dpcExt % 4 * 2 ^ 5

/-- Header of the class of a function (R293). -/
def Dev.fnClass (d : Dev) (p : Nat) (t : FnKind) : Nat :=
  if t.bridge then 0x060400 else if d.on PORT.LINK_STATUS.CXL_ACTIVE p then 0x050210 else 0x058000

/-- Writable bits of the words that the device keeps as the host writes them. -/
def FnKind.mask (t : FnKind) (off : Nat) : Nat :=
  match t with
  | .usp =>
    match off with
    | 0x04 => 0x0547 | 0x18 => 0x00FFFFFF | 0x1C => 0xF0F0 | 0x20 | 0x24 => 0xFFF0FFF0 | 0x28 | 0x2C => 0xFFFFFFFF
    | 0x3C => 0x005300FF | 0x48 => 0x78FF | 0x50 => 0x01C3 | 0x68 => 0xFFFF | 0x70 => 0xFFFF | 0x84 => 0x0103
    | 0x108 | 0x10C | 0x114 => 0xFFFFFFFF | 0x328 => 0xFF03 | _ => 0
  | .vdsp _ =>
    match off with
    | 0x04 => 0x0547 | 0x18 => 0x00FFFFFF | 0x1C => 0xF0F0 | 0x20 | 0x24 => 0xFFF0FFF0 | 0x28 | 0x2C => 0xFFFFFFFF
    | 0x3C => 0x005300FF | 0x48 => 0x78FF | 0x50 => 0x0FD3 | 0x58 => 0x103F | 0x68 => 0xFFFF | 0x70 => 0xFFFF | 0x84 => 0x0103
    | 0x90 => 0x00010000 | 0x94 => 0xFFFFFFFC | 0x98 => 0xFFFFFFFF | 0x9C => 0xFFFF
    | 0x108 | 0x10C | 0x114 => 0xFFFFFFFF | 0x14C => 0x007F0000 | 0x1A4 => 0x003F0000 | 0x328 => 0xFF03 | _ => 0
  | .pf =>
    match off with
    | 0x04 => 0x0546 | 0x10 => 0xFFFF0000 | 0x14 | 0x18 | 0x1C => 0xFFFFFFFF | 0x20 => 0xF0000000 | 0x24 => 0xFFFFFFFF
    | 0x3C => 0xFF | 0x48 => 0x78FF | 0x68 => 0xFFFF | 0x84 => 0x0103 | 0xA0 => 0xC0000000
    | 0x108 | 0x10C | 0x114 => 0xFFFFFFFF | 0x168 => 0x19 | 0x170 => 0xFFFF | 0x180 => 0xFFFFFFFF
    | 0x184 => 0xFFFF0000 | 0x188 | 0x18C | 0x190 => 0xFFFFFFFF | _ => 0
  | .vf _ =>
    match off with
    | 0x04 => 0x0004 | 0xA0 => 0xC0000000 | _ => 0

/-- Bits of a BAR register below the size of a 64-bit BAR of 2^`log` bytes; `hi` for its upper half. -/
def barCut (log v : Nat) (hi : Bool) : Nat := if hi then v / 2 ^ (log - 32) * 2 ^ (log - 32) else v / 2 ^ (min log 32) * 2 ^ (min log 32)

/-- log2 of BAR2 of a port's PF and its VFs (R197). -/
def Dev.bar2Log (d : Dev) (p : Nat) : Nat := Nat.log2 (d.dpaSpace p)

/-- The word that a function answers a configuration read of offset `off`, a multiple of 4, with. -/
def Dev.cfgRead (d : Dev) (p : Nat) (t : FnKind) (off : Nat) : Nat :=
  let st := d.cfg p t.num off
  let h := (d.domainOfPort p).getD 0
  let ext := t.extCaps (d.fnLink p t) (d.fnCxl p t)
  match t.caps.find? fun c => c.1 == off with
  | some c =>
    let top := match c.2, t with
      | 0x10, .usp => 0x0052
      | 0x10, .vdsp _ => 0x0162
      | 0x10, _ => 0x0002
      | 0x01, _ => 0x0003
      | 0x05, _ => 0x0080
      | 0x11, .pf => 15
      | _, _ => 7
    c.2 + nextCap t.caps off * 2 ^ 8 + top * 2 ^ 16 + (if c.2 = 0x05 then bits st 16 1 * 2 ^ 16 else 0) +
      (if c.2 = 0x11 then bits st 30 2 * 2 ^ 30 else 0)
  | none =>
  match ext.find? fun c => c.1 == off with
  | some c => c.2 + (if c.2 = 1 then 2 else 1) * 2 ^ 16 + nextCap ext off * 2 ^ 20
  | none =>
  match off with
  | 0x00 => match t with
    | .usp => 0x25661F4D
    | .vdsp _ => 0x25671F4D
    | .pf => 0x25641F4D
    | .vf _ => 0xFFFFFFFF
  | 0x04 => st % 65536 + 0x00100000
  | 0x08 => d.fnClass p t * 256 + 0xB0
  | 0x0C => if t.bridge then 0x00010000 else 0
  | 0x10 => if t = .pf then barCut 16 st false + 4 else 0
  | 0x18 => if t = .pf then barCut (d.bar2Log p) st false + 0xC else st
  | 0x1C => if t = .pf then barCut (d.bar2Log p) st true else st
  | 0x20 => match t with
    | .pf => if (d.rd MGR.PORTS.PORTS (p / 32)).testBit (p % 32) then barCut 28 st false + 4 else 0
    | _ => st
  | 0x24 => match t with
    | .pf => if (d.rd MGR.PORTS.PORTS (p / 32)).testBit (p % 32) then st else 0
    | .usp | .vdsp _ => st + 0x00010001
    | .vf _ => 0
  | 0x34 => 0x40
  | 0x3C => st + (if t = .pf then 0x100 else 0)
  | 0x44 => if t.bridge then 0x00008002 else 0x10008002
  | 0x4C => match d.fnPort p t with
    | some q => 6 + 2 ^ d.maxWidth q * 2 ^ 4 + 2 * 2 ^ 10 + 4 * 2 ^ 15 + (if t = .usp then 0 else 2 ^ 20) + q % 256 * 2 ^ 24
    | none => if t.bridge then 6 + 2 * 2 ^ 10 + 4 * 2 ^ 15 else 0
  | 0x50 => if t.bridge then d.linkWord p t else 0
  | 0x54 => match t with
    | .vdsp k => if 1 ≤ k then d.slotCaps p k else 0
    | _ => 0
  | 0x58 => match t with
    | .vdsp k => d.slotWord p k
    | _ => 0
  | 0x64 => match t with
    | .vdsp _ => 0x00000820
    | .usp => 0x00000800
    | _ => 0
  | 0x14C => match t with
    | .vdsp _ => st + 0x7F
    | _ => 0
  | 0x154 => 0
  | 0x16C => if t = .pf then d.rd FN.PF_VFS.TOTALVFS h * 65537 else 0
  | 0x174 => if t = .pf then 0x00010001 else 0
  | 0x178 => if t = .pf then 0x25650000 else 0
  | 0x17C => if t = .pf then 0x00000013 else 0
  | 0x184 => if t = .pf then barCut 16 st false + 4 else 0
  | 0x18C => if t = .pf then barCut (d.bar2Log p) st false + 0xC else 0
  | 0x190 => if t = .pf then barCut (d.bar2Log p) st true else 0
  | 0x1A8 => match t with
    | .vdsp k => d.dpcWord p k
    | _ => 0
  | 0x1F4 => if t = .usp ∨ t = .pf then Config.serial % 2 ^ 32 else 0
  | 0x1F8 => if t = .usp ∨ t = .pf then Config.serial / 2 ^ 32 % 2 ^ 32 else 0
  | 0x324 => match t with
    | .usp => 0x0401
    | .vdsp _ => 0x0406
    | _ => 0
  | _ => st

/-! ### Writes -/

/-- The bits that byte enables `be` let through. -/
def beMask (be : Nat) : Nat := (List.range 4).foldl (fun m i => if be.testBit i then m + 255 * 2 ^ (8 * i) else m) 0

/-- `old` with the bits of `m` from `v`. -/
def mergeBits (old m v : Nat) : Nat := old - (old &&& m) + (v &&& m)

/-- Bus Master Enable of a PF takes effect: it is set, and the PF is in D0 (R218, R295). -/
def Dev.pfBme (d : Dev) (p : Nat) : Dev :=
  let on := (d.cfg p fnPf 0x04).testBit 2 && d.cfg p fnPf 0x84 % 4 != 3
  if on == (d.fn p).bme then d
  else if on then
    let d := d.setFn p { d.fn p with bme := true }
    match d.domainOfPort p with
    | none => d
    | some h => d.forIn' (d.vfsOfPf h) fun v d =>
        if (d.cfg p (fnVf v) 0x04).testBit 2 && !(d.fn (128 + v)).flr then
          let d := d.setFn (128 + v) { d.fn (128 + v) with bme := true }
          if d.rd FN.VF_BIND.STATE v = 3 then d.wr FN.VF_BIND.STATE v 0 else d
        else d
  else d.pfBmeClear p

/-- Bus Master Enable of a VF. -/
def Dev.vfBme (d : Dev) (p v : Nat) : Dev :=
  if (d.cfg p (fnVf v) 0x04).testBit 2 then
    if (d.fn (128 + v)).flr || !(d.fn p).bme then d
    else
      let d := d.setFn (128 + v) { d.fn (128 + v) with bme := true }
      if d.rd FN.VF_BIND.STATE v = 3 then d.wr FN.VF_BIND.STATE v 0 else d
  else d.vfBmeClear v

/-- The words of a function take their reset values. -/
def Dev.cfgClear (d : Dev) (p fn : Nat) : Dev :=
  { d with host := { d.host with cfg := SMap.drop (fun k => k / 1024 == p * 1024 + fn) d.host.cfg } }

/-- NumVFs and VF Enable (R197): NumVFs above TotalVFs acts as TotalVFs; it changes while VF Enable is 0. -/
def Dev.sriovWrite (d : Dev) (p : Nat) : Dev :=
  let f := d.fn p
  let en := (d.cfg p fnPf 0x168).testBit 0
  let n := d.cfg p fnPf 0x170 % 65536
  let tot := match d.domainOfPort p with | some h => d.rd FN.PF_VFS.TOTALVFS h | none => 0
  let d' := d.setFn p { f with vfEnable := en, numVfs := if f.vfEnable then f.numVfs else min n tot }
  if f.vfEnable && !en then
    match d'.domainOfPort p with
    | some h => d'.forIn' (d'.vfsOfPf h) fun v d => d.vfBmeClear v
    | none => d'
  else d'

/-- Slot Control and Slot Status of a vDSP: bits of status written 1 clear. -/
def Dev.slotCtlWrite (d : Dev) (p k v bm : Nat) : Dev :=
  let i := d.vdspAt p k
  let x := d.vdsp i
  let clr (b : Nat) : Bool := (v &&& bm).testBit b
  let d := d.setVdsp i { x with
    attention := x.attention && !clr 16, powerFault := x.powerFault && !clr 17, pdChanged := x.pdChanged && !clr 19,
    cmdCompleted := x.cmdCompleted && !clr 20, dllChanged := x.dllChanged && !clr 24 }
  if bm % 65536 = 0 then d
  else
    let attn := if bm.testBit 6 then bits v 6 2 else x.attnInd
    let pwr := if bm.testBit 8 then bits v 8 2 else x.powerInd
    let pcc := if bm.testBit 10 then v.testBit 10 else x.powerOff
    let d := if attn = x.attnInd ∧ pwr = x.powerInd ∧ pcc ≠ x.powerOff then d else d.indicators i attn pwr
    if pcc == x.powerOff then d else d.powerControl i pcc

/-- Max_Payload_Size from Device Control, in bytes; 512 at most (R290). -/
def Dev.mpsWrite (d : Dev) (p q v : Nat) : Dev :=
  let _ := p
  { d with host := { d.host with mps := SMap.put 128 d.host.mps q (min 512 (128 * 2 ^ bits v 5 3)) } }

/-- A configuration write of word `off` with byte enables, to a function the device holds. -/
def Dev.cfgWrite (d : Dev) (p : Nat) (t : FnKind) (off v be : Nat) : Dev :=
  let bm := beMask be
  let old := d.cfg p t.num off
  let d := d.setCfg p t.num off (mergeBits old (t.mask off &&& bm) v)
  match off, t with
  | 0x104, .vf _ => d
  | 0x110, .vf _ => d
  | 0x104, _ => d.setCfg p t.num off (old - (old &&& v &&& bm))
  | 0x110, _ => d.setCfg p t.num off (old - (old &&& v &&& bm))
  | 0x48, .usp => if bm.testBit 5 then d.mpsWrite p p v else d
  | 0x48, .vdsp k =>
    match d.ownPort (d.vdspAt p k) with
    | some q => if bm.testBit 5 && decide (1 ≤ k) then d.mpsWrite p q v else d
    | none => d
  | 0x3C, .vdsp k => if (v &&& bm).testBit 22 && !old.testBit 22 && decide (1 ≤ k) then d.busReset (d.vdspAt p k) else d
  | 0x50, .vdsp k =>
    if k = 0 ∨ bm.testBit 0 = false then d
    else
      let i := d.vdspAt p k
      let d := if v.testBit 4 == (d.vdsp i).linkDisable then d else d.linkDisable i (v.testBit 4)
      if v.testBit 5 then d.retrain i else d
  | 0x58, .vdsp k => if k = 0 then d else d.slotCtlWrite p k v bm
  | 0x1A4, .vdsp k =>
    if k = 0 ∨ bm.testBit 16 = false then d
    else
      let i := d.vdspAt p k
      let d := d.setVdsp i { d.vdsp i with dpcEnable := bits v 16 2 == 1 || bits v 16 2 == 2 }
      if v.testBit 22 then d.dpcSoftware i else d
  | 0x1A8, .vdsp k =>
    let i := d.vdspAt p k
    if (v &&& bm).testBit 0 then d.setVdsp i { d.vdsp i with dpcTrig := false } else d
  | 0x04, .pf => d.pfBme p
  | 0x84, .pf => d.pfBme p
  | 0x48, .pf => if (v &&& bm).testBit 15 then (d.cfgClear p fnPf).pfFlr p else d
  | 0x168, .pf => d.sriovWrite p
  | 0x170, .pf => d.sriovWrite p
  | 0x04, .vf x => d.vfBme p x
  | 0x48, .vf x => if (v &&& bm).testBit 15 then d.vfFlr x else d
  | _, _ => d

/-- A write that changes routing and is reported to Foothill (R298). -/
def routingWrite (t : FnKind) (off be : Nat) : Bool :=
  t.bridge && (off ∈ [0x18, 0x20, 0x24, 0x28, 0x2C] || (off == 0x04 && be % 4 != 0) || (off == 0x3C && decide (4 ≤ be)) ||
    (match t with | .vdsp _ => off == 0x14C && decide (4 ≤ be) | _ => false))

/-! ### Shadows of a shared function (R300) -/

/-- Where the shadow words of a function presented by vDSP `k` are kept. -/
def shadowPort (p k : Nat) : Nat := 128 + p * 32 + k

/-- BARs, the Expansion ROM BAR and Command. -/
def shadowed (off : Nat) : Bool := (decide (0x10 ≤ off) && decide (off < 0x28)) || off == 0x30 || off == 0x04

def Dev.shadowRead (d : Dev) (p k : Nat) (e : IdEnt) (off : Nat) : Nat :=
  let st := d.cfg (shadowPort p k) e.hfn off
  if off = 0x04 then mergeBits (Config.commandRest e.dsDev e.dsPort e.dsId d.timeBase % 2 ^ 32) 6 st
  else
    let m := Config.barMask e.dsDev e.dsPort e.dsId off % 2 ^ 32
    mergeBits (Config.barFixed e.dsDev e.dsPort e.dsId off % 2 ^ 32) m st

def Dev.shadowWrite (d : Dev) (p k : Nat) (e : IdEnt) (off v be : Nat) : Dev :=
  let m := if off = 0x04 then 6 else 0xFFFFFFFF
  d.setCfg (shadowPort p k) e.hfn off (mergeBits (d.cfg (shadowPort p k) e.hfn off) (m &&& beMask be) v)

/-! ### Who answers (R296, R297, R299, R303, R309) -/

inductive CfgAt where
  | fn (t : FnKind)
  /-- a presented function of a shared port -/
  | shared (k : Nat) (e : IdEnt)
  /-- below a transparent port -/
  | below (k : Nat)
  /-- Unsupported Request, Configuration Request Retry Status -/
  | ur
  | crs
  deriving DecidableEq, Repr

/-- A function behind vDSP 0 by its routing ID. -/
def Dev.pfTarget (d : Dev) (p h rid : Nat) : CfgAt :=
  let i := rid - d.pfRid p
  if rid = d.pfRid p then (if (d.fn p).flr then .crs else .fn .pf)
  else if i ≤ d.rd FN.PF_VFS.TOTALVFS h ∧ d.pfRid p < rid ∧ d.vfEnabled (d.vfBase h + i - 1) then
    (if (d.fn (128 + (d.vfBase h + i - 1))).flr then .crs else .fn (.vf (d.vfBase h + i - 1)))
  else if (d.fn p).flr then .crs
  else .ur

/-- The vDSP whose secondary-to-subordinate range holds a bus. -/
def Dev.vdspByRange (d : Dev) (p bus : Nat) : Option Nat :=
  (List.range 32).find? fun k =>
    d.secBus p (fnVdsp k) != 0 && decide (d.secBus p (fnVdsp k) ≤ bus) && decide (bus ≤ d.subBus p (fnVdsp k))

/-- Who answers a configuration request that an upstream port received: Type 0 goes to the USP itself. -/
def Dev.cfgTarget (d : Dev) (p : Nat) (f : Frame) : CfgAt :=
  let id := f.h4.toNat % 65536
  let bus := id / 256
  if f.typeCode % 2 = 0 then (if id % 256 = 0 then .fn .usp else .ur)
  else if bus = d.secBus p fnUsp then (if id % 8 = 0 then .fn (.vdsp (bits id 3 5)) else .ur)
  else match d.domainOfPort p, d.vdspByRange p bus with
    | some h, some 0 => d.pfTarget p h id
    | some h, some k =>
      let i := h * 32 + k
      if !d.on VSW.VDSP_MAP.VALID i || (d.vdsp i).dpcTrig || (d.vdsp i).viewDown then .ur
      else if d.idShared (d.rd VSW.VDSP_MAP.DEV i) (d.rd VSW.VDSP_MAP.PORT i) then
        match if bus = d.secBus p (fnVdsp k) then d.idByHost h k (id % 256) else none with
        | some e => .shared k e
        | none => .ur
      else .below k
    | _, _ => .ur

/-- The request goes toward the mapped port on the queued path, with a transfer context. -/
def Dev.cfgForward (d : Dev) (x : Pkt) (k : Nat) : Dev :=
  let i := d.vdspAt x.port k
  let dev := d.rd VSW.VDSP_MAP.DEV i
  let port := d.rd VSW.VDSP_MAP.PORT i
  let o1 := (match x.act with | some a => a.o1.toNat % 8 + bits a.o1.toNat 16 9 * 2 ^ 16 | none => 0) + 16
  let a : Act := ⟨if dev = d.rd FABRIC.ID.DEV then 0 else 4,
    BitVec.ofNat 64 (if dev = d.rd FABRIC.ID.DEV then port else dev + port * 256), BitVec.ofNat 64 o1, x.frame.h5, 0⟩
  d.actPort { x with act := some a } a

/-- Completes a request and takes it out of the device. -/
def Dev.cfgDone (d : Dev) (x : Pkt) (status : Nat) (data : List Byte) : Dev := (d.completeReq x.port x.frame status data).removePkt x

/-- A write completes; one that changes routing waits until Foothill acknowledges it (R298). -/
def Dev.cfgWritten (d : Dev) (x : Pkt) (routing ack : Bool) : Dev :=
  if routing && !ack then d.setPkt { x with phase := .cfgHold } else d.cfgDone x 0 []

/-- The responder acts on a configuration request (R296). -/
def Dev.configRequest (d : Dev) (x : Pkt) (ack : Bool) : Dev :=
  let p := x.port
  let f := x.frame
  let off := f.h5.toNat % 4096 / 4 * 4
  let be := bits f.h2.toNat 24 4
  let v := bytesNat (f.data.take 4)
  match d.cfgTarget p f with
  | .ur => d.cfgDone x 1 []
  | .crs => d.cfgDone x 2 []
  | .below k => d.cfgForward x k
  | .fn t =>
    if f.isWrite then (d.cfgWrite p t off v be).cfgWritten x (routingWrite t off be) ack
    else d.cfgDone x 0 (natBytes 4 (d.cfgRead p t off))
  | .shared k e =>
    if !shadowed off then d.cfgForward x k
    else if f.isWrite then (d.shadowWrite p k e off v be).cfgWritten x true ack
    else d.cfgDone x 0 (natBytes 4 (d.shadowRead p k e off))

/-- The hold of a configuration write expires: it completes, and the Cairn records it (R298). -/
def execCfgHoldExpiry (k : Nat) (s : State) :=
  s.lift fun d =>
    match d.pkt? k with
    | none => d
    | some x => if x.phase = .cfgHold then (d.cfgDone x 0 []).cairnPush 0x02 x.port 2 (x.frame.h4.toNat % 65536) x.frame.h5.toNat else d

end Sys2Proof.Machine
end

