-- ==== Sys2Proof/Machine/Mgmt.lean ====
section
/-! DEFINITION. The management space (18_register_map R470 to R479): where an offset lies, what a read and a write of a register do,
how an access ends for each master (R2 to R7), and the rows that reach it: register writes, half-latch reads, RWL_WRITE. -/

namespace Sys2Proof.Machine

open Sys2Proof

/-! ### The register index (R471, R476, R479) -/

/-- What an offset names: a register with its number, a program or selector word, nothing (reads zero), or a reserved offset. -/
inductive Place where
  | reg (r : Reg) (i : Nat)
  | prog (t b p i : Nat)
  | sel (t b w : Nat)
  | blank
  | reserved
  deriving DecidableEq, Repr

/-- The register at an offset of a list. -/
def regAt (l : List (Nat × Reg)) (i o : Nat) : Option Place := (l.find? fun x => x.1 == o).map fun x => .reg x.2 i

/-- The place of `o` in an array of `n` at `base`, if it has one. -/
def arrAt (o base stride n : Nat) : Option Nat :=
  if base ≤ o ∧ (o - base) % stride = 0 ∧ (o - base) / stride < n then some ((o - base) / stride) else none

/-- An array of registers numbered from `from_`. -/
def arrReg (o base stride n : Nat) (r : Reg) (from_ : Nat := 0) : Option Place := (arrAt o base stride n).map fun j => .reg r (from_ + j)

def devAt (o : Nat) : Option Place :=
  regAt [(0x00, .DEV_CLK_STATUS), (0x04, .DEV_RST_CTL), (0x08, .DEV_RST_STATUS), (0x0C, .DEV_TEMP)] 0 o

def supAt (o : Nat) : Option Place := regAt [(0x00, .SUP_STATUS), (0x04, .SUP_FAULT)] 0 o <|> arrReg o 0x40 4 9 .SUP_MEAS

def summitAt (o : Nat) : Option Place :=
  regAt [(0x00, .SUMMIT_BOOT_STATUS), (0x04, .SUMMIT_GRANT_STATUS), (0x08, .SUMMIT_DBG_CTL), (0x10, .SUMMIT_DBG_NONCE_LO),
    (0x14, .SUMMIT_DBG_NONCE_HI)] 0 o <|>
  arrReg o 0x100 8 32 .SUMMIT_MBX_RPLY_LO <|> arrReg o 0x104 8 32 .SUMMIT_MBX_RPLY_HI <|> arrReg o 0x200 4 92 .SUMMIT_DBG_TOKEN

def cairnRegAt (code o : Nat) : Option Place :=
  regAt [(0x00, .CAIRN_CTL), (0x04, .CAIRN_TRIG), (0x08, .CAIRN_STATUS), (0x0C, .CAIRN_COUNT)] 0 o <|>
  regAt [(0x10, .CAIRN_RD_IDX)] code o <|> arrReg o 0x20 4 8 .CAIRN_RD_DATA

def sbinAt (o : Nat) : Option Place :=
  if o / 16 < 131 then regAt [(0x0, .SBIN_CFG), (0x4, .SBIN_CTL), (0x8, .SBIN_STATUS)] (o / 16) (o % 16) else none

def bistAt (o : Nat) : Option Place :=
  regAt [(0x00, .BIST_BUDGET), (0x04, .BIST_STATUS), (0x08, .BIST_POWER), (0x0C, .BIST_CE_ROW), (0x10, .BIST_REPAIR_STATUS)] 0 o

/-- The lane window on lane `n`. -/
def laneAt (n o : Nat) : Option Place :=
  regAt [(0x00, .LANE_CFG), (0x04, .LANE_TX_TAPS0), (0x08, .LANE_TX_TAPS1), (0x0C, .LANE_RX_EQ), (0x1C, .LANE_ADAPT_STATUS),
    (0x20, .LANE_MARGIN_CTL), (0x24, .LANE_MARGIN_RESULT), (0x28, .LANE_BITSLIP), (0x2C, .LANE_PRBS_CTL), (0x30, .LANE_PRBS_ERR_LO),
    (0x34, .LANE_PRBS_ERR_HI), (0x38, .LANE_PRBS_BITS_LO), (0x3C, .LANE_PRBS_BITS_HI), (0x40, .LANE_PRBS_USER_LO),
    (0x44, .LANE_PRBS_USER_HI), (0x48, .LANE_EYE_CTL), (0x4C, .LANE_EYE_COUNT)] n o <|>
  arrReg o 0x10 4 3 .LANE_DFE_TAPS (4 * n)

/-- A register or array word of tile `t`; `ten` is the tenant selected, `lane` the master's lane. -/
def tileAt (t code ten lane o : Nat) : Option Place :=
  if o < 0x1000 then
    regAt [(0x000, .TILE_BIFUR), (0x004, .TILE_REF_CTL), (0x010, .TILE_NOTCH_TBL_CMD), (0x030, .TILE_NOTCH_BANK),
      (0x034, .TILE_NOTCH_TRAP_RING), (0x038, .TILE_NOTCH_TRAP_CTL), (0x054, .TILE_NOTCH_RSLV_CMD), (0x060, .TILE_VOQ_SHARE),
      (0x064, .TILE_VOQ_TEN_IDX), (0x074, .TILE_VOQ_STATUS), (0x080, .TILE_SCREE_CTL), (0x084, .TILE_SCREE_SHARE),
      (0x088, .TILE_SCREE_STATUS)] t o <|>
    regAt [(0x040, .TILE_NOTCH_RSLV_O0), (0x044, .TILE_NOTCH_RSLV_O1), (0x048, .TILE_NOTCH_RSLV_O2_LO),
      (0x04C, .TILE_NOTCH_RSLV_O2_HI), (0x050, .TILE_NOTCH_RSLV_O3), (0x0FC, .TILE_LANE_SEL)] (t * 256 + code) o <|>
    regAt [(0x068, .TILE_VOQ_TEN_MIN), (0x06C, .TILE_VOQ_TEN_CAP), (0x070, .TILE_VOQ_TEN_USE)] (t * 512 + ten) o <|>
    arrReg o 0x014 4 5 .TILE_NOTCH_TBL_KEY (t * 8) <|> arrReg o 0x028 4 2 .TILE_NOTCH_TBL_DATA (t * 2)
  else if o < 0x2000 then laneAt (16 * t + lane) (o - 0x1000)
  else if o < 0x2100 then (if o % 4 = 0 then some (.sel t (bits o 7 1) (bits o 2 5)) else none)
  else if 0x4000 ≤ o ∧ o < 0x4800 ∧ o % 4 = 0 ∧ bits o 2 5 < 24 then some (.prog t (bits o 10 1) (bits o 7 3) (bits o 2 5))
  else none

def portAt (p o : Nat) : Option Place :=
  regAt [(0x00, .PORT_CFG), (0x04, .PORT_LINK_STATUS), (0x08, .PORT_PHY_STATUS), (0x0C, .PORT_CFG_HOLD), (0x10, .PORT_THX_CTL),
    (0x14, .PORT_THX_STATUS), (0x18, .PORT_NOTCH_WORD_LO), (0x1C, .PORT_NOTCH_WORD_HI), (0x20, .PORT_EGR_CTL),
    (0x24, .PORT_EGR_WT_LO), (0x28, .PORT_EGR_WT_HI), (0x30, .PORT_CTN_CTL), (0x34, .PORT_CTN_STATUS), (0x38, .PORT_CTN_COUNT),
    (0x3C, .PORT_CPL_TO), (0x40, .PORT_REMAP_RID), (0x44, .PORT_TRV_RID), (0x48, .PORT_INTX_STATUS), (0x4C, .PORT_BW_CTL),
    (0x50, .PORT_PTM_HOST_LO), (0x54, .PORT_PTM_HOST_HI), (0x58, .PORT_PTM_LOCAL_LO), (0x5C, .PORT_PTM_LOCAL_HI)] p o

/-- PLANE and SADDLE share a range; `ten` is the tenant selected. -/
def planeAt (ten o : Nat) : Option Place :=
  if o < 0x400 then regAt [(0x0, .PLANE_CTL), (0x4, .PLANE_STATUS)] (o / 0x100) (o % 0x100)
  else
    regAt [(0x1000, .SADDLE_TEN_WT_IDX), (0x1020, .SADDLE_MCG_ATTR), (0x1024, .SADDLE_MCG_DROP), (0x1028, .SADDLE_MCG_CMD)] 0 o <|>
    regAt [(0x1004, .SADDLE_TEN_WT)] ten o <|> arrReg o 0x1010 4 4 .SADDLE_MCG_MAP

/-- `remote` is the master's entry of REMOTE_HOST. -/
def tarnAt (code remote o : Nat) : Option Place :=
  regAt [(0x000, .TARN_PART), (0x004, .TARN_REGION_TOP), (0x008, .TARN_BI_CTL), (0x00C, .TARN_RA_CTL), (0x010, .TARN_ECC_CTL),
    (0x014, .TARN_EVAC_STATUS), (0x018, .TARN_FLT_INFO), (0x01C, .TARN_FLT_COUNT), (0x020, .TARN_FLT_ADDR_LO),
    (0x024, .TARN_FLT_ADDR_HI), (0x040, .TARN_DESC_IDX)] 0 o <|>
  regAt [(0x044, .TARN_REMOTE_IDX)] code o <|> regAt [(0x048, .TARN_REMOTE_HOST)] remote o <|>
  arrReg o 0x060 4 6 .TARN_DESC_STAGE <|> arrReg o 0x080 4 8 .TARN_DESC_READ <|>
  arrReg o 0x100 8 4 .TARN_PC_FROZEN_LO <|> arrReg o 0x104 8 4 .TARN_PC_FROZEN_HI <|> arrReg o 0x200 4 128 .TARN_PORT_HOST

def spurAt_ (o : Nat) : Option Place :=
  if o < 0x9000 then
    regAt [(0x00, .SPUR_PORT_BASE_LO), (0x04, .SPUR_PORT_BASE_HI), (0x08, .SPUR_EVSEL), (0x0C, .SPUR_DOORBELL), (0x10, .SPUR_WDOG),
      (0x14, .SPUR_IMG_AREA)] (o / 0x1000) (o % 0x1000) <|>
    arrReg (o % 0x1000) 0x40 4 16 .SPUR_TARN_APT (o / 0x1000 * 16)
  else regAt [(0xF000, .SPUR_HANDOVER), (0xF004, .SPUR_HANDOVER_PC_LO), (0xF008, .SPUR_HANDOVER_PC_HI), (0xF00C, .SPUR_PWRDN)] 0 o

def fnAt (o : Nat) : Option Place :=
  regAt [(0x000, .FN_REFUSED)] 0 o <|> arrReg o 0x100 4 64 .FN_PF_VFS <|> arrReg o 0x1000 4 512 .FN_VF_BIND

def ctxAt (ten o : Nat) : Option Place :=
  regAt [(0x000, .CTX_STATUS), (0x004, .CTX_TEN_IDX)] 0 o <|> regAt [(0x008, .CTX_TEN_CAP), (0x00C, .CTX_TEN_USE)] ten o <|>
  arrReg o 0x200 4 128 .CTX_PORT_USE

def trvAt (ten o : Nat) : Option Place :=
  regAt [(0x00, .TRV_TEN_IDX), (0x10, .TRV_ENG_STATUS)] 0 o <|>
  regAt [(0x04, .TRV_TEN_CFG), (0x08, .TRV_TEN_UNRECALLED), (0x0C, .TRV_TEN_DISCARD_LATE)] ten o

def fabricAt (o : Nat) : Option Place :=
  regAt [(0x000, .FABRIC_ID), (0x004, .FABRIC_ROUTE_CTL), (0x008, .FABRIC_DROP), (0x00C, .FABRIC_PD_COUNT), (0x010, .FABRIC_TIME_CTL),
    (0x014, .FABRIC_TIME_STATUS)] 0 o <|>
  arrReg o 0x080 4 32 .FABRIC_SLOT_ROUTE <|> arrReg o 0x400 4 256 .FABRIC_ROUTE

def colAt (code lane o : Nat) : Option Place :=
  if o < 0x1000 then
    regAt [(0x00, .COL_CTL), (0x04, .COL_TX_CTL), (0x08, .COL_TX_STATUS), (0x0C, .COL_RX_CTL), (0x10, .COL_RX_STATUS)] 0 o <|>
    regAt [(0xFC, .COL_LANE_SEL)] code o <|> arrReg o 0x20 8 2 .COL_LINK_CTL <|> arrReg o 0x24 8 2 .COL_LINK_STATUS
  else laneAt (256 + lane) (o - 0x1000)

def ctnAt (ten o : Nat) : Option Place :=
  regAt [(0x00, .CTN_RELEASE), (0x04, .CTN_TEN_IDX), (0x10, .CTN_LOG_CTL), (0x14, .CTN_LOG_STATUS)] 0 o <|>
  regAt [(0x08, .CTN_TEN_CTL), (0x0C, .CTN_TEN_STATUS)] ten o <|> arrReg o 0x40 4 16 .CTN_TILE_STATUS

/-- VSW and IDMAP share a range; the window is empty while the master's VDSP is 0. -/
def vswAt (code h k o : Nat) : Option Place :=
  regAt [(0x00, .VSW_IDX)] code o <|> (if k = 0 then none else regAt [(0x04, .VSW_VDSP_MAP)] (h * 32 + k) o) <|>
  regAt [(0x1000, .IDMAP_ENTRY_LO), (0x1004, .IDMAP_ENTRY_HI), (0x1008, .IDMAP_CMD)] 0 o

/-- `k` is the counter that the master selects, if it selects one; `w` its window. -/
def cntAt (code : Nat) (k : Option Nat) (w o : Nat) : Option Place :=
  regAt [(0x00, .CNT_IDX), (0x40, .CNT_BW_IDX)] code o <|>
  (k.bind fun k => regAt [(0x04, .CNT_SEL), (0x08, .CNT_QUAL), (0x0C, .CNT_THR), (0x10, .CNT_VAL_LO), (0x14, .CNT_VAL_HI),
    (0x18, .CNT_SNAP_LO), (0x1C, .CNT_SNAP_HI)] k o) <|>
  regAt [(0x20, .CNT_SNAP_CTL), (0x24, .CNT_SNAP_STATUS), (0x28, .CNT_SNAP_TIME_LO), (0x2C, .CNT_SNAP_TIME_HI), (0x30, .CNT_DUMP_CTL),
    (0x34, .CNT_DUMP_BASE), (0x38, .CNT_DUMP_RING)] 0 o <|>
  regAt [(0x44, .CNT_BW_VAL), (0x48, .CNT_BW_PEAK)] w o

def slotAt (o : Nat) : Option Place :=
  if o < 0x800 then
    regAt [(0x00, .SLOT_PWR_LIMIT), (0x04, .SLOT_PWR_FOLD), (0x08, .SLOT_PWR_TIMER), (0x0C, .SLOT_PWR_CTL), (0x10, .SLOT_PWR_STATUS),
      (0x14, .SLOT_PWR_MEAS0), (0x18, .SLOT_PWR_MEAS1)] (o / 0x40) (o % 0x40)
  else regAt [(0x800, .SLOT_WARN_SHED)] 0 o

/-- The island block at base `n` × 64 KiB. -/
def islandAt (code n o : Nat) : Option (Option Place) :=
  match n with
  | 0 => some (devAt o)
  | 1 => some (supAt o)
  | 2 => some (summitAt o)
  | 3 => some (arrReg o 0 4 4 .MGR_PORTS)
  | 4 => some (cairnRegAt code o)
  | 5 => some (sbinAt o)
  | 7 => some (bistAt o)
  | _ => none

/-- The core block at base `n` MiB: none where no block's range lies. -/
def Dev.coreAt (d : Dev) (m : Master) (n o : Nat) : Option (Option Place) :=
  let c := m.code
  if 16 ≤ n ∧ n < 32 then
    some (tileAt (n - 16) c (d.rd TILE.VOQ_TEN_IDX.TENANT (n - 16)) (d.rd TILE.LANE_SEL.LANE ((n - 16) * 256 + c)) o)
  else match n with
    | 0x20 => some (if o / 0x1000 < 128 then portAt (o / 0x1000) (o % 0x1000) else none)
    | 0x21 => some (planeAt (d.rd SADDLE.TEN_WT_IDX.TENANT) o)
    | 0x22 => some (tarnAt c (d.rd TARN.REMOTE_IDX.INDEX c) o)
    | 0x23 => some (spurAt_ o)
    | 0x24 => some (fnAt o)
    | 0x25 => some (ctxAt (d.rd CTX.TEN_IDX.TENANT) o)
    | 0x26 => some (trvAt (d.rd TRV.TEN_IDX.TENANT) o)
    | 0x27 => some (fabricAt o)
    | 0x28 => some (colAt c (d.rd COL.LANE_SEL.LANE c) o)
    | 0x29 => some (ctnAt (d.rd CTN.TEN_IDX.TENANT) o)
    | 0x2A => some (vswAt c (d.rd VSW.IDX.DOMAIN c) (d.rd VSW.IDX.VDSP c) o)
    | 0x2B => some (cntAt c (d.cntIdx m) (d.rd CNT.BW_IDX.W c) o)
    | 0x2C => some (slotAt o)
    | _ => none

/-- What an offset names for a master (R471 to R473): a core block answers only while the core domain runs. -/
def Dev.place (d : Dev) (m : Master) (off : Nat) : Place :=
  let at_ := if off < 0x100000 then (if d.vauxUp then islandAt m.code (off / 0x10000) (off % 0x10000) else none)
    else if d.coreUp then d.coreAt m (off / 0x100000) (off % 0x100000) else none
  match at_ with
  | some (some p) => p
  | some none => .blank
  | none => .reserved

/-! ### Reads (R2, R476 to R478) -/

/-- Key of a half latch: one per register pair, instance of its block, and master (R478). -/
def latchKey (f : Fld) (inst code : Nat) : Nat := (f.num + 1024 * inst) * 256 + code

def Dev.latched (d : Dev) (f : Fld) (inst code : Nat) (live : Nat) : Nat :=
  match SMap.get 0 d.latch (latchKey f inst code) with
  | 0 => live
  | n + 1 => n

def Dev.latchHalf (d : Dev) (f : Fld) (inst code v : Nat) : Dev :=
  { d with latch := SMap.put 0 d.latch (latchKey f inst code) (v % 2 ^ 32 + 1) }

/-- Fields that show a condition take its present value. -/
def Dev.refresh (d : Dev) (r : Reg) (i : Nat) : Dev :=
  match r with
  | .PORT_CTN_STATUS => d.setOn PORT.CTN_STATUS.READY i (d.frozen i && d.portReady i)
  | .TARN_PART => d.setOn TARN.PART.LIVE 0 d.partLive
  | .LANE_MARGIN_RESULT => d.wr LANE.MARGIN_RESULT.AGE i (d.marginAge i)
  | .SUMMIT_GRANT_STATUS =>
    match d.summit.grant with
    -- whole seconds still begun (DESIGN CHOICE: the rounding is not stated)
    | some g => d.wr SUMMIT.GRANT_STATUS.REMAIN 0 ((g.ends - d.timeBase + 249999999) / 250000000)
    | none => d
  | _ => d

/-- The 64-bit quantity of a counter register and the field of its HI half. -/
def Dev.cnt64 (d : Dev) (r : Reg) (k : Nat) : Option (Nat × Fld × Bool) :=
  match r with
  | .CNT_VAL_LO => some (d.count k, CNT.VAL_HI.COUNT, false)
  | .CNT_VAL_HI => some (d.count k, CNT.VAL_HI.COUNT, true)
  | .CNT_SNAP_LO => some (SMap.get 0 d.cnt.snap (d.cnt.bank * 2048 + k), CNT.SNAP_HI.COUNT, false)
  | .CNT_SNAP_HI => some (SMap.get 0 d.cnt.snap (d.cnt.bank * 2048 + k), CNT.SNAP_HI.COUNT, true)
  | _ => none

/-- LO registers that latch their HI halves: the halves' registers and fields. -/
def latches : Reg → List (Reg × Fld)
  | .LANE_PRBS_ERR_LO => [(.LANE_PRBS_ERR_HI, LANE.PRBS_ERR_HI.V)]
  | .LANE_PRBS_BITS_LO => [(.LANE_PRBS_BITS_HI, LANE.PRBS_BITS_HI.V)]
  | .CNT_SNAP_TIME_LO => [(.CNT_SNAP_TIME_HI, CNT.SNAP_TIME_HI.TIME)]
  | .PORT_PTM_HOST_LO => [(.PORT_PTM_HOST_HI, PORT.PTM_HOST_HI.V), (.PORT_PTM_LOCAL_LO, PORT.PTM_LOCAL_LO.V),
      (.PORT_PTM_LOCAL_HI, PORT.PTM_LOCAL_HI.V)]
  | .SUMMIT_DBG_NONCE_LO => [(.SUMMIT_DBG_NONCE_HI, SUMMIT.DBG_NONCE_HI.V)]
  | .SPUR_HANDOVER_PC_LO => [(.SPUR_HANDOVER_PC_HI, SPUR.HANDOVER_PC_HI.PC)]
  | .TARN_FLT_ADDR_LO => [(.TARN_FLT_ADDR_HI, TARN.FLT_ADDR_HI.ADDR)]
  | _ => []

/-- The latch that a HI register reads through. -/
def latchOf : Reg → Option Fld
  | .LANE_PRBS_ERR_HI => some LANE.PRBS_ERR_HI.V
  | .LANE_PRBS_BITS_HI => some LANE.PRBS_BITS_HI.V
  | .CNT_SNAP_TIME_HI => some CNT.SNAP_TIME_HI.TIME
  | .PORT_PTM_HOST_HI => some PORT.PTM_HOST_HI.V
  | .PORT_PTM_LOCAL_LO => some PORT.PTM_LOCAL_LO.V
  | .PORT_PTM_LOCAL_HI => some PORT.PTM_LOCAL_HI.V
  | .SUMMIT_DBG_NONCE_HI => some SUMMIT.DBG_NONCE_HI.V
  | .SPUR_HANDOVER_PC_HI => some SPUR.HANDOVER_PC_HI.PC
  | .TARN_FLT_ADDR_HI => some TARN.FLT_ADDR_HI.ADDR
  | _ => none

/-- The instance that a latch belongs to: a window has one latch, whichever of its instances is shown. -/
def latchInst (r : Reg) (i : Nat) : Nat := match r.blk with | .LANE => i / 16 | .CNT => 0 | _ => i

/-- Reads a register: its value, and the latches it takes and what it consumes. -/
def Dev.regRead (d : Dev) (m : Master) (r : Reg) (i : Nat) : Nat × Dev :=
  match d.cnt64 r i with
  | some (v, f, hi) =>
    if hi then (d.latched f 0 m.code (v / 2 ^ 32), d) else (v % 2 ^ 32, d.latchHalf f 0 m.code (v / 2 ^ 32))
  | none =>
    match r with
    | .CAIRN_RD_DATA => (fieldAt (SMap.get .zero d.cairn.latch m.code).bytes (4 * i) 4, d)
    | .TARN_DESC_READ => ((d.desc (d.rd TARN.DESC_IDX.INDEX)).word i, d)
    | .CNT_BW_VAL => (d.bwValue i, d)
    | .CNT_BW_PEAK => (SMap.get 0 d.cnt.bwPeak i, d)
    | .SUMMIT_MBX_RPLY_LO => d.replyRead m i false
    | .SUMMIT_MBX_RPLY_HI => d.replyRead m i true
    | r =>
      let w := (d.refresh r i).word r i
      match latchOf r with
      | some f => (d.latched f (latchInst r i) m.code w, d)
      | none => (w, d.forIn' (latches r) fun x d => d.latchHalf x.2 (latchInst r i) m.code (d.word x.1 i))

/-- Reads a place. -/
def Dev.placeRead (d : Dev) (m : Master) : Place → Nat × Dev
  | .reg r i => d.regRead m r i
  | .prog t b p i => (d.progWord t b p i, d)
  | .sel t b w => (d.selWord t b w, d)
  | .blank => (0, d)
  | .reserved => (0, d)

/-! ### Writes (R2 to R5, R476, R477) -/

/-- TARN.PART as Summit writes it: nothing changes while a write is refused (R141). -/
def Dev.partWrite (d : Dev) (v : Nat) : Dev :=
  if d.partLive then d
  else
    let d := d.writeFields true .TARN_PART 0 v
    d.wr TARN.REGION_TOP.GRANULES 0 (d.regionTop (d.rd TARN.EVAC_STATUS.COUNT))

/-- A write of a register of a tile or a port with an action or a refusal of its own; none for a plain register. -/
def Dev.tileWrite (d : Dev) (m : Master) (r : Reg) (i v : Nat) : Option Dev :=
  match r with
  | .TILE_BIFUR => some (d.bifurWrite i v)
  | .TILE_NOTCH_TBL_CMD => some (d.tblCmdWrite i (TILE.NOTCH_TBL_CMD.TABLE.of v) (TILE.NOTCH_TBL_CMD.OP.of v)
      (TILE.NOTCH_TBL_CMD.INDEX.of v) (v.testBit 16))
  | .TILE_NOTCH_BANK =>
    -- SWITCH before COMMIT where one write sets both (DESIGN CHOICE)
    let d := d.writeFields false r i v
    let d := d.when (v.testBit 1) fun d => d.bankSwitch i
    some (d.when (v.testBit 2) fun d => d.bankCommit i)
  | .TILE_NOTCH_RSLV_CMD => some (d.trapResolve i m (TILE.NOTCH_RSLV_CMD.SEQ.of v) (TILE.NOTCH_RSLV_CMD.ACTION.of v))
  | .TILE_VOQ_TEN_MIN => some (d.tenMinWrite (i / 512) (i % 512) (TILE.VOQ_TEN_MIN.MIN.of v))
  | .PORT_CFG => some (d.portCfgWrite i v)
  | .PORT_THX_CTL => some (d.thxCtlWrite i v)
  | .PORT_NOTCH_WORD_HI => some (d.applyPortWord i v)
  | .PORT_CTN_CTL => some ((d.writeFields false r i v).when (v.testBit 0) fun d => d.portFreeze i 9)
  | .LANE_CFG => some (d.laneCfgWrite i v)
  | .LANE_TX_TAPS0 => some (d.taps0Write i v)
  | .LANE_TX_TAPS1 => some (d.taps1Write i v)
  | .LANE_BITSLIP => some (d.bitslip i (LANE.BITSLIP.COUNT.of v))
  | .LANE_PRBS_CTL => some (d.prbsWrite i v)
  | .LANE_PRBS_USER_LO => some (d.setLane i { d.lane i with user := v % 2 ^ 32 })
  | .LANE_PRBS_USER_HI => some ((d.wr LANE.PRBS_USER_LO.V i (d.lane i).user).wr LANE.PRBS_USER_HI.V i v)
  | .LANE_EYE_CTL => some (d.eyeWrite i v)
  | _ => none

/-- The same for the crossbar, the pool, the cores, the functions, the fabric and containment. -/
def Dev.coreWrite (d : Dev) (m : Master) (r : Reg) (i v : Nat) : Option Dev :=
  match r with
  | .PLANE_CTL => some (if v.testBit 0 then d.planeIsolate i else d.planeReturn i)
  | .SADDLE_MCG_CMD => some (d.groupCmd (SADDLE.MCG_CMD.OP.of v) (SADDLE.MCG_CMD.GROUP.of v) (v.testBit 14) false)
  | .TARN_PART => if m = .summit then some (d.partWrite v) else none
  | .SPUR_DOORBELL => some (d.ringDoorbell i)
  | .SPUR_WDOG => some ((d.writeFields false r i v).when (v.testBit 16) fun d => d.kickDog i)
  | .SPUR_HANDOVER =>
    let d := d.wr SPUR.HANDOVER.FROM 0 (SPUR.HANDOVER.FROM.of v)
    let d := d.when (v.testBit 4) fun d => d.requestHandover m (SPUR.HANDOVER.FROM.of v)
    some (d.when (v.testBit 5) fun d => d.yieldRole m)
  | .SPUR_PWRDN => some ((d.writeFields false r i v).when (v.testBit 16) fun d => d.graceEnd)
  | .FN_PF_VFS => some (d.pfVfsWrite i v).2
  | .FABRIC_ID => some (d.fabricIdWrite (m == .summit) v)
  | .FABRIC_ROUTE => some (d.routeWrite (m == .summit) i v)
  | .FABRIC_TIME_CTL => some (d.timeCtlWrite (m == .summit) v)
  | .COL_CTL => some (d.colJoin (v.testBit 0))
  | .COL_TX_CTL => some (d.colTxWrite (m == .summit) v)
  | .CTN_RELEASE => some (d.releaseWrite v)
  | .CTN_TEN_CTL => some ((d.writeFields false r i v).when (v.testBit 0) fun d => d.tenantFreeze i 5)
  | .VSW_VDSP_MAP => some ((d.vdspRemap i).writeFields false r i v)
  | .IDMAP_CMD => some (d.idCmd (IDMAP.CMD.OP.of v) (IDMAP.CMD.INDEX.of v) (v.testBit 14))
  | _ => none

/-- The same for the counters, the slot channels and the island. -/
def Dev.islandWrite (d : Dev) (m : Master) (r : Reg) (i v : Nat) : Option Dev :=
  match r with
  | .CNT_SEL => some (d.selWrite i v)
  | .CNT_VAL_LO => some (d.valStage m v)
  | .CNT_VAL_HI => some (d.valWrite m i v)
  | .CNT_SNAP_CTL =>
    let d := d.when (v.testBit 0) fun d => d.snapAsk
    some (if v.testBit 1 = d.on CNT.SNAP_CTL.RUN then d else d.runWrite (v.testBit 1))
  | .CNT_DUMP_CTL => some (d.dumpCtlWrite v)
  | .CNT_BW_PEAK => some { d with cnt := { d.cnt with bwPeak := SMap.put 0 d.cnt.bwPeak i (v % 2 ^ 32) } }
  | .SLOT_PWR_LIMIT => some (d.pwrLimitWrite i false v)
  | .SLOT_PWR_FOLD => some (d.pwrLimitWrite i true v)
  | .SLOT_PWR_CTL => some (d.pwrCtlWrite i v)
  | .DEV_RST_CTL => some (d.rstCtlWrite m v)
  | .SUMMIT_DBG_CTL =>
    if d.summitUp then
      let d := d.when (v.testBit 1) fun d => d.grantEnd
      some (d.when (v.testBit 0) fun d => d.submit)
    else some d
  | .SUMMIT_DBG_TOKEN => some (d.wr SUMMIT.DBG_TOKEN.V i v)
  | .CAIRN_CTL =>
    let d := d.when (v.testBit 0) fun d => d.cairnSoft m
    some (d.when (m == .summit && v.testBit 1) fun d => d.cairnArm)
  | .CAIRN_RD_IDX => some (d.rdIdxWrite m (CAIRN.RD_IDX.INDEX.of v))
  | .SBIN_CFG => if sbinFixed i then some d else none
  | .SBIN_CTL =>
    if sbinFixed i then some d else some ((d.writeFields false r i v).when (v.testBit 10) fun d => d.sbinRearm i)
  | _ => none

/-- A write of a register: its own action, else its fields by their access codes. -/
def Dev.regWrite (d : Dev) (m : Master) (r : Reg) (i v : Nat) : Dev :=
  match d.tileWrite m r i v with
  | some d => d
  | none => match d.coreWrite m r i v with
    | some d => d
    | none => match d.islandWrite m r i v with
      | some d => d
      | none => d.writeFields (m == .summit) r i v

/-- The write would change an RWL field (R4). -/
def Dev.rwlTouched (d : Dev) (r : Reg) (i v : Nat) : Bool := r.flds.any fun f => f.acc == .rwl && f.of v != d.rd f i

/-- Writes a place. -/
def Dev.placeWrite (d : Dev) (m : Master) (off v : Nat) : Place → Dev
  | .reg r i =>
    let d := d.when (m != .summit && d.rwlTouched r i v) fun d => d.refuseRwl m off v
    d.regWrite m r i v
  | .prog t b p i => d.bankWrite t b (some p) i v
  | .sel t b w => d.bankWrite t b none w v
  | .blank => d
  | .reserved => d

/-! ### Accesses (R7, R389, R472 to R474) -/

/-- The status of an access of the wrong width or alignment, and of one to a reserved offset. -/
def widthStatus : Master → AccStatus
  | .mgmt _ => .ur
  | .core _ => .devErr 0
  | .debug => .denied
  | .summit => .accErr
def reservedStatus : Master → AccStatus
  | .mgmt _ => .ur
  | .core _ => .devErr 2
  | .debug => .denied
  | .summit => .accErr

/-- A debug request is denied: counted, and recorded with its address. -/
def Dev.debugDenied (d : Dev) (addr : Nat) : Dev :=
  ({ d with summit := { d.summit with denied := d.summit.denied + 1 } } : Dev).cairnPush 0x08 0 1 addr 0

/-- The scope of the active grant has bit `b`. -/
def Dev.scoped (d : Dev) (b : Nat) : Bool := d.summit.grant.any fun g => g.scope.testBit b

/-- Offsets that the debug port reaches without a grant. -/
def debugOpen (off : Nat) : Bool :=
  off ∈ [0x20000, 0x20004, 0x20008, 0x20010, 0x20014] || (decide (0x20200 ≤ off) && decide (off < 0x20200 + 4 * 92))

/-- The master reaches the space: the management function exists on manager ports only. -/
def Dev.reaches (d : Dev) : Master → Bool
  | .mgmt p => d.mgrPort p
  | _ => true

/-- An access of `size` bytes at an offset; `w` is the value of a write. -/
def Dev.mgmt (d : Dev) (m : Master) (off size : Nat) (w : Option Nat) : AccStatus × Nat × Dev :=
  if !d.reaches m then (.ur, 0, d)
  else if size ≠ 4 ∨ off % 4 ≠ 0 then (widthStatus m, 0, d.when (m == .debug) fun d => d.debugDenied off)
  else if m == .debug && !debugOpen off && !d.scoped 0 then (.denied, 0, d.debugDenied off)
  else
    match d.place m off with
    | .reserved => (reservedStatus m, 0, d)
    | p => match w with
      | some v => (.ok, 0, d.placeWrite m off (v % 2 ^ 32) p)
      | none =>
        let x := d.placeRead m p
        (.ok, x.1, x.2)

/-- The access and its end at the master. -/
def Dev.mgmtEnd (d : Dev) (m : Master) (off size : Nat) (w : Option Nat) : Dev :=
  let x := d.mgmt m off size w
  x.2.2.emit (.access m x.1 x.2.1)

/-! ### The rows -/

/-- A write of a register. -/
def execRegisterWrite (m : Master) (off : Fin 268435456) (sz : Size) (v : W64) (s : State) :=
  s.lift fun d => if d.vauxUp then d.mgmtEnd m off sz.bytes (some v.toNat) else d

/-- A read; of a LO half it latches the other (R478). -/
def execHalfLatchRead (m : Master) (off : Fin 268435456) (sz : Size) (s : State) :=
  s.lift fun d => if d.vauxUp then d.mgmtEnd m off sz.bytes none else d

/-- The addresses and values of an RWL_WRITE. -/
def Dev.rwlPairs (d : Dev) (w : W64) : List (Nat × Nat) :=
  (List.range (d.param w 0)).map fun i => (d.param w (2 * i + 1), d.param w (2 * i + 2))

/-- Summit may write the address: it lies in the allow-list and is not TARN.PART. -/
def Dev.rwlAllowed (d : Dev) (a : Nat) : Bool :=
  a != 0x2200000 && (d.summit.policy.any fun p => p.allow.any fun r => decide (r.1 ≤ a) && decide (a ≤ r.2))

/-- RWL_WRITE (R385). -/
def execRwlWrite (r : Fin 8) (m : Fin 4) (s : State) :=
  s.lift fun d => d.inStateQ (boxOf r m) 0x01 fun w d =>
    if d.param w 0 = 0 ∨ 16 < d.param w 0 then d.stateEnd (boxOf r m) 1 0
    else if (d.rwlPairs w).all fun x => d.rwlAllowed x.1 then
      (d.forIn' (d.rwlPairs w) fun x d => (d.mgmt .summit x.1 4 (some x.2)).2.2).stateEnd (boxOf r m) 0 0
    else d.stateEnd (boxOf r m) 2 0

/-! ### Requests of the debug port (R389, R392) -/

/-- A debug access to Tarn: REFUSED under R147 is DENIED and logged in the fault log and the device log only; one whose line is under snoop
waits. -/
def Dev.debugTarn (d : Dev) (i off : Nat) (w : Option (List Byte)) (len : Nat) : Dev :=
  let op := if w.isSome then TarnOp.write else .read
  let q : PoolAcc := { desc := i, tenant := none, key := none, host := none, device := true, addr := (d.desc i).hbase + off, len := len,
                       op := op }
  match d.poolCheck q with
  | some (cause, bad) => (d.poolRefuse q cause bad 0 0).emit (.access .debug .denied 0)
  | none =>
    let pool := (d.desc i).poolOf q.addr
    let x := d.deviceReady op i (linesOf pool len)
    if x.1 then
      let d := x.2.dirPerform op none i (linesOf pool len)
      match w with
      | some bs => (d.poolWrite pool bs false).emit (.access .debug .ok 0)
      | none =>
        let r := d.poolRead pool len
        -- an uncorrectable line returns no data that a rule states
        if r.2 then
          let y := d.draw
          y.2.emit (.access .debug .ok y.1.toNat)
        else d.emit (.access .debug .ok (bytesNat r.1))
    else x.2

/-- A core's own SRAM address. -/
def sramAddr (a n : Nat) : Bool :=
  a % n == 0 && (addrClass a == .isram || addrClass a == .dsram)

/-- Scan is enabled: the key store, the engines' keys and the Notch key tables are zeroised first (R387). -/
def Dev.scanShift (d : Dev) : Dev :=
  { d with
    notch := { d.notch with range := [], tenant := [] }
    summit := { d.summit with lockKeys := [], ideKeys := [], scanned := true } }

/-- A request to a core needs the SPUR scope. -/
def Dev.debugCore (d : Dev) (f : Dev → Dev) : Dev :=
  if d.coreUp && d.scoped 1 then f d else (d.debugDenied 0).emit (.access .debug .denied 0)

/-- A request passes the policy filter, or is denied. -/
def Dev.debugAccess (d : Dev) : DebugReq → Dev
  | .reg off sz w => d.mgmtEnd .debug off sz.bytes (w.map fun v => v.toNat)
  | .halt c => d.debugCore fun d =>
      if (d.core c).mode = .running then
        { d.updCore c fun k => { k with mode := .halted } with
          summit := { d.summit with halted := c.val :: d.summit.halted.filter (· != c.val), stepping := d.summit.stepping.erase c.val } }
      else d
  | .step c => d.debugCore fun d =>
      if (d.core c).mode = .halted then
        { d.updCore c fun k => { k with mode := .running } with
          summit := { d.summit with stepping := c.val :: d.summit.stepping.filter (· != c.val) } }
      else d
  | .resume c => d.debugCore fun d =>
      { d.updCore c fun k => { k with mode := if k.mode == .halted then .running else k.mode } with
        summit := { d.summit with halted := d.summit.halted.filter (· != c.val), stepping := d.summit.stepping.erase c.val } }
  | .sram c a sz w => d.debugCore fun d =>
      let flat := flatOf c a.toNat
      if !sramAddr a.toNat sz.bytes then d.debugDenied a.toNat |>.emit (.access .debug .denied 0)
      else match w with
        | some v => (d.store flat sz.bytes v.toNat).setPoison flat false |>.emit (.access .debug .ok 0)
        | none => d.emit (.access .debug .ok (d.load flat sz.bytes))
  | .tarn i off w len =>
    let x := d.desc i
    let may := if x.locked then d.scoped 3 && (d.summit.grant.any fun g => g.locked.contains i.val) else d.scoped 2
    if d.coreUp && may && decide (0 < len) then d.debugTarn i off w (match w with | some bs => bs.length | none => len)
    else (d.debugDenied off).emit (.access .debug .denied 0)
  | .scan => if d.scoped 4 then d.scanShift.emit (.access .debug .ok 0) else (d.debugDenied 0).emit (.access .debug .denied 0)

/-- DEBUG_ACCESS (R389). -/
def execDebugAccess (x : DebugReq) (s : State) := s.lift fun d => if d.summitUp then d.debugAccess x else d

end Sys2Proof.Machine
end

