-- ==== Sys2Proof/Machine/HostReq.lean ====
section
/-! DEFINITION. The requests of a host that the device answers itself: configuration requests (R296) and accesses to PF BAR0 and BAR4
(R7, R197, R214, R281). -/

namespace Sys2Proof.Machine

open Sys2Proof

/-- A 32-bit access to a word of BAR0 or to a register behind BAR4: its status, data and what it does. -/
def Dev.barAccess (d : Dev) (p : Fin 128) (bar off size : Nat) (w : Option Nat) : Bool × Nat × Dev :=
  if bar = 4 then
    let x := d.mgmt (.mgmt p) off size w
    (x.1 == .ok, x.2.1, x.2.2)
  else if size ≠ 4 ∨ off % 4 ≠ 0 then (false, 0, d)
  else match w with
    | some v => (true, 0, d.bar0Write p off v)
    | none => (true, d.bar0Read p off, d)

/-- A memory request to a BAR of the PF: a read completes, a write that is refused is an Unsupported Request, reported (R280). -/
def Dev.barRequest (d : Dev) (x : Pkt) (p : Fin 128) (bar off : Nat) : Dev :=
  let f := x.frame
  let size := f.h6.toNat
  if f.ftype = 1 then
    let r := d.barAccess p bar off size (some (bytesNat (f.data.take 4)))
    let d := r.2.2.removePkt x
    if r.1 then d else (d.aerHeader p f.h5.toNat).aerError p fnPf 20 (d.pfRid p)
  else
    let r := d.barAccess p bar off size none
    if r.1 then r.2.2.cfgDone x 0 (natBytes 4 r.2.1) else r.2.2.cfgDone x 1 []

/-- A request that the device answers: a configuration request, or one to a BAR of the PF. `ack` tells that Foothill has acknowledged a
routing change by the time the write would complete (R298). -/
def execConfigRequest (k : Nat) (ack : Bool) (s : State) :=
  s.lift fun d =>
    match d.pkt? k with
    | none => d
    | some x =>
      if d.coreUp && x.phase == .cfg then
        if x.frame.isCfg then d.configRequest x ack
        else match d.barHit x.port x.frame.h5.toNat with
          | some h => d.barRequest x (Fin.ofNat 128 x.port) h.1 h.2
          | none => d.cfgDone x 1 []
      else d

end Sys2Proof.Machine
end

