-- ==== Sys2Proof/Machine/SpurIo.lean ====
section
/-! DEFINITION. Device accesses of a Spur core: LDIO, STIO, their responses and their acceptance (R49, R50, R52 to R54, R175, R185). -/

namespace Sys2Proof.Machine

open Sys2Proof

/-! ### What an access raises and what it sends -/

/-- The exception that an address and a size alone raise, as code and DETAIL: alignment first (R64), then the width, then the class
(the order of the two DETAILs of one code is DEDUCED from R62's list). -/
def ioFault (a n : Nat) : Option (Nat × Nat) :=
  if a % n ≠ 0 then some (3, 1)
  else if n < 4 then some (4, 0)
  else if !(addrClass a).isDevice then some (4, 1)
  else if addrClass a == .mgmt && n != 4 then some (4, 0)
  else none

/-- Offset of a management address. -/
def mgmtOff (a : Nat) : Nat := a - 0x10000000

/-- The target of a device address: its port, or none for the register blocks. -/
def ioTarget (a : Nat) : Option Nat := if addrClass a == .port then some (portOfAddr a) else none

/-- The request that a port-space access becomes (R175): KIND 0 a memory request, else a configuration request, Type 0 if its bus is the
one on the link, DS_SECBUS (R296). -/
def Dev.portRequest (d : Dev) (c a n : Nat) (write : Bool) (v : W64) : Out :=
  let p := portOfAddr a
  let off := a % 2 ^ 32
  let rid := d.rd SPUR.PORT_BASE_LO.RID c
  if a.testBit 32 then .portReq c p rid (if bits off 20 8 = d.rd PORT.CFG.DS_SECBUS p then 1 else 2) write off n v
  else .portReq c p rid 0 write (d.rd SPUR.PORT_BASE_HI.BASE c * 2 ^ 32 + off) n v

/-- An STIO at its target: a register applies it, a live port takes it into its posted egress staging, a dead one discards it. -/
def Dev.stioApply (d : Dev) (c : Fin 9) (t : OutStio) : Dev :=
  match t.port with
  | none => (d.mgmt (.core c) (mgmtOff t.addr) t.size (some t.data.toNat)).2.2
  | some p =>
    if d.portDead p then d.stioDiscard c t
    else { d with spur := { d.spur with staged := d.spur.staged ++ [(c.val, t)] } }

/-- The oldest STIO of core `c` toward a target: first one of before its reset (R189), then one of now. It leaves the list. -/
def Dev.takeStio (d : Dev) (c : Nat) (target : Option Nat) : Option (OutStio × Dev) :=
  match d.spur.orphans.find? (fun x => x.1 == c && x.2.port == target) with
  | some x => some (x.2, { d with spur := { d.spur with orphans := d.spur.orphans.erase x } })
  | none =>
    match (d.core c).stios.find? (fun t => t.port == target) with
    | some t => some (t, d.updCore c fun k => { k with stios := k.stios.erase t })
    | none => none

/-- The STIO of a core toward a target are performed, oldest first. -/
def Dev.flushTo (d : Dev) (c : Fin 9) (target : Option Nat) : Nat → Dev
  | 0 => d
  | n + 1 =>
    match d.takeStio c target with
    | none => d
    | some x => (x.2.stioApply c x.1).flushTo c target n

/-- Every STIO of a core is performed in program order. -/
def Dev.flushIo (d : Dev) (c : Fin 9) : Dev :=
  d.forIn' ((d.spur.orphans.filter fun x => x.1 == c.val).map (fun x => x.2.port) ++ (d.core c).stios.map fun t => t.port)
    fun p d => match d.takeStio c p with
      | none => d
      | some x => x.2.stioApply c x.1

/-! ### The rows -/

/-- LDIO: the buffer drains and the core stalls for the response. A port that takes no access ends it at once (R175). -/
def execLdio (c : Fin 9) (sz : Size) (t a : Fin 32) (off : BitVec 14) (s : State) :=
  s.lift fun d => d.spurInstr c fun d =>
    let x := (d.core c).effAddr a off
    match ioFault x sz.bytes with
    | some f => d.raiseAt c f x
    | none =>
      let d := d.drainAll c
      if (ioTarget x).any fun p => d.portDead p then d.raiseAt c (4, 2) x
      else
        let d := match ioTarget x with
          | some p => (d.flushTo c (some p) 8).emit (d.portRequest c x sz.bytes false 0)
          | none => d
        d.updCore c fun k => { k with ldio := some ⟨x, sz.bytes, t, k.pc⟩, wait := .ldio }

/-- STIO: the buffer drains and the write is posted. A fifth toward one port waits to issue: the command is given again (R54). An STIO
to a reserved offset ends at the instruction (R472; DEDUCED: exceptions are precise, R63). -/
def execStio (c : Fin 9) (sz : Size) (t a : Fin 32) (off : BitVec 14) (s : State) :=
  s.lift fun d => d.spurInstr c fun d =>
    let x := (d.core c).effAddr a off
    match ioFault x sz.bytes with
    | some f => d.raiseAt c f x
    | none =>
      let d := d.drainAll c
      if (ioTarget x).isNone && d.place (.core c) (mgmtOff x) == .reserved then d.raiseAt c (4, 2) x
      else
        let k := d.core c
        let out := (k.stios.filter fun y => (ioTarget x).isSome && y.port == ioTarget x).length
        let w : OutStio := ⟨ioTarget x, x, sz.bytes, BitVec.ofNat 64 ((k.rdG t).toNat % 2 ^ (8 * sz.bytes))⟩
        if (ioTarget x).any fun p => d.portDead p then (d.stioDiscard c w).updCore c SpurCore.advance
        else if 4 ≤ out then d
        else d.updCore c fun k => { k.advance with stios := k.stios ++ [w] }

/-- The response of an LDIO: its earlier STIO have been performed (R52, R185); a register is read, a port brings its completion, good or
with status UR or CA. With none waiting it is a late one (R52). -/
def execLdioResponse (c : Fin 9) (ok : Bool) (value : W64) (s : State) :=
  s.lift fun d =>
    if !d.coreUp then d
    else match (d.core c).ldio with
      | none =>
        d.when (decide (0 < (d.core c).lateLdio)) fun d => d.updCore c fun k => { k with lateLdio := k.lateLdio - 1, dfLate := true }
      | some l =>
        let d := d.flushIo c
        let r : AccStatus × Nat × Dev := match ioTarget l.addr with
          | some _ => (if ok then .ok else .devErr 2, value.toNat % 2 ^ (8 * l.size), d)
          | none => d.mgmt (.core c) (mgmtOff l.addr) l.size none
        let d := r.2.2
        match r.1 with
        | .ok => d.updCore c fun k =>
            { (k.wrG l.rd (BitVec.ofNat 64 r.2.1)).advance with ldio := none, wait := .none }
        | .devErr n => d.ldioFault c n 0
        | _ => d.ldioFault c 2 0

/-- No response within 8,192 tb. -/
def execLdioTimeout (c : Fin 9) (s : State) := s.lift fun d => if d.coreUp then d.ldioFault c 3 1 else d

/-- An STIO reaches its target: a port or the register blocks. A barrier that waits for it completes. -/
def execStioAccepted (c : Fin 9) (port : Option (Fin 128)) (s : State) :=
  s.lift fun d =>
    if !d.coreUp then d
    else match d.takeStio c (port.map fun p => p.val) with
      | none => d
      | some x => (x.2.stioApply c x.1).barrierDone c

/-- Accepted STIO leave through ports whose links flow and have posted credits. -/
def Dev.stioSend (d : Dev) : Dev :=
  d.forIn' d.spur.staged fun x d =>
    match x.2.port with
    | none => d
    | some p =>
      let key := creditKey p .posted
      let credit := d.on PORT.THX_CTL.THEOX p || (decide (1 ≤ SMap.get 0 d.sad.credit key) && decide (1 ≤ SMap.get 0 d.sad.credit (key + 1)))
      if d.linkFlows p && credit then
        let d : Dev := { d with spur := { d.spur with staged := d.spur.staged.erase x } }
        let d := d.when (!d.on PORT.THX_CTL.THEOX p) fun d =>
          let m := SMap.upd 0 d.sad.credit key fun n => n - 1
          { d with sad := { d.sad with credit := SMap.upd 0 m (key + 1) fun n => n - 1 } }
        d.emit (d.portRequest x.1 x.2.addr x.2.size true x.2.data)
      else d

end Sys2Proof.Machine
end

