-- ==== Sys2Proof/Machine/Dispatch.lean ====
section
/-! DEFINITION. The one case analysis over the commands: each arm is one direct call of the command's meaning. -/

namespace Sys2Proof.Machine

open Sys2Proof

/-- The effect of a command on everything but the queue. -/
def exec (i : Instr) (s : State) : Host.Outcome State Fault Refusal :=
  match i with
  | .registerWrite m off sz v => Sys2Proof.Machine.execRegisterWrite m off sz v s
  | .halfLatchRead m off sz => Sys2Proof.Machine.execHalfLatchRead m off sz s
  | .vauxPowerOn => Sys2Proof.Machine.execVauxPowerOn s
  | .vauxLoss => Sys2Proof.Machine.execVauxLoss s
  | .rootPllLossOfLock => Sys2Proof.Machine.execRootPllLossOfLock s
  | .pllLockRetry lock hbmFail => Sys2Proof.Machine.execPllLockRetry lock hbmFail s
  | .coldResetEnd rails => Sys2Proof.Machine.execColdResetEnd rails s
  | .corePhaseStart lock hbmFail => Sys2Proof.Machine.execCorePhaseStart lock hbmFail s
  | .cairnSaveDone ok => Sys2Proof.Machine.execCairnSaveDone ok s
  | .warmReset r m => Sys2Proof.Machine.execWarmReset r m s
  | .warmResetEnd => Sys2Proof.Machine.execWarmResetEnd s
  | .rstCtlWrite m v => Sys2Proof.Machine.execRstCtlWrite m v s
  | .tileReset t => Sys2Proof.Machine.execTileReset t s
  | .tileResetStart t => Sys2Proof.Machine.execTileResetStart t s
  | .spurCoreReset c => Sys2Proof.Machine.execSpurCoreReset c s
  | .supplyMonitorFault r high mv => Sys2Proof.Machine.execSupplyMonitorFault r high mv s
  | .graceExpiry => Sys2Proof.Machine.execGraceExpiry s
  | .pwrdnReady m => Sys2Proof.Machine.execPwrdnReady m s
  | .powerDownAck => Sys2Proof.Machine.execPowerDownAck s
  | .tempUpdate die s0 s1 s2 s3 => Sys2Proof.Machine.execTempUpdate die s0 s1 s2 s3 s
  | .add e rd rs1 rs2 => Sys2Proof.Machine.execAdd e rd rs1 rs2 s
  | .sub e rd rs1 rs2 => Sys2Proof.Machine.execSub e rd rs1 rs2 s
  | .and e rd rs1 rs2 => Sys2Proof.Machine.execAnd e rd rs1 rs2 s
  | .or e rd rs1 rs2 => Sys2Proof.Machine.execOr e rd rs1 rs2 s
  | .xor e rd rs1 rs2 => Sys2Proof.Machine.execXor e rd rs1 rs2 s
  | .andn e rd rs1 rs2 => Sys2Proof.Machine.execAndn e rd rs1 rs2 s
  | .shl e rd rs1 rs2 => Sys2Proof.Machine.execShl e rd rs1 rs2 s
  | .shr e rd rs1 rs2 => Sys2Proof.Machine.execShr e rd rs1 rs2 s
  | .sar e rd rs1 rs2 => Sys2Proof.Machine.execSar e rd rs1 rs2 s
  | .min e rd rs1 rs2 => Sys2Proof.Machine.execMin e rd rs1 rs2 s
  | .max e rd rs1 rs2 => Sys2Proof.Machine.execMax e rd rs1 rs2 s
  | .minu e rd rs1 rs2 => Sys2Proof.Machine.execMinu e rd rs1 rs2 s
  | .maxu e rd rs1 rs2 => Sys2Proof.Machine.execMaxu e rd rs1 rs2 s
  | .cmp e rs1 rs2 => Sys2Proof.Machine.execCmp e rs1 rs2 s
  | .tst e rs1 rs2 => Sys2Proof.Machine.execTst e rs1 rs2 s
  | .hash e rd rs1 rs2 => Sys2Proof.Machine.execHash e rd rs1 rs2 s
  | .mul c rd rs1 rs2 => Sys2Proof.Machine.execMul c rd rs1 rs2 s
  | .mulhu c rd rs1 rs2 => Sys2Proof.Machine.execMulhu c rd rs1 rs2 s
  | .divu c rd rs1 rs2 => Sys2Proof.Machine.execDivu c rd rs1 rs2 s
  | .remu c rd rs1 rs2 => Sys2Proof.Machine.execRemu c rd rs1 rs2 s
  | .clz c rd rs1 => Sys2Proof.Machine.execClz c rd rs1 s
  | .popc c rd rs1 => Sys2Proof.Machine.execPopc c rd rs1 s
  | .addi e rd rs1 imm => Sys2Proof.Machine.execAddi e rd rs1 imm s
  | .andi e rd rs1 imm => Sys2Proof.Machine.execAndi e rd rs1 imm s
  | .ori e rd rs1 imm => Sys2Proof.Machine.execOri e rd rs1 imm s
  | .xori e rd rs1 imm => Sys2Proof.Machine.execXori e rd rs1 imm s
  | .shli e rd rs1 k => Sys2Proof.Machine.execShli e rd rs1 k s
  | .shri e rd rs1 k => Sys2Proof.Machine.execShri e rd rs1 k s
  | .sari e rd rs1 k => Sys2Proof.Machine.execSari e rd rs1 k s
  | .cmpi e rs1 imm => Sys2Proof.Machine.execCmpi e rs1 imm s
  | .tsti e rs1 imm => Sys2Proof.Machine.execTsti e rs1 imm s
  | .cati e rd rs1 imm => Sys2Proof.Machine.execCati e rd rs1 imm s
  | .exti e rd rs1 p n1 => Sys2Proof.Machine.execExti e rd rs1 p n1 s
  | .extsi e rd rs1 p n1 => Sys2Proof.Machine.execExtsi e rd rs1 p n1 s
  | .insi e rd rs1 p n1 => Sys2Proof.Machine.execInsi e rd rs1 p n1 s
  | .jalr c rd rs1 imm => Sys2Proof.Machine.execJalr c rd rs1 imm s
  | .bcc e cond off => Sys2Proof.Machine.execBcc e cond off s
  | .jal c off => Sys2Proof.Machine.execJal c off s
  | .lkx r rd rs1 rs2 tenantTable space ue => Sys2Proof.Machine.execLkx r rd rs1 rs2 tenantTable space ue s
  | .lkw r rd rs1 rs2 space ue => Sys2Proof.Machine.execLkw r rd rs1 rs2 space ue s
  | .ld c sz t a off => Sys2Proof.Machine.execLd c sz t a off s
  | .lds c sz t a off => Sys2Proof.Machine.execLds c sz t a off s
  | .st c sz t a off => Sys2Proof.Machine.execSt c sz t a off s
  | .ldx c sz t a off => Sys2Proof.Machine.execLdx c sz t a off s
  | .stx c sz t a off => Sys2Proof.Machine.execStx c sz t a off s
  | .ldio c sz t a off => Sys2Proof.Machine.execLdio c sz t a off s
  | .stio c sz t a off => Sys2Proof.Machine.execStio c sz t a off s
  | .loadResponse c tag => Sys2Proof.Machine.execLoadResponse c tag s
  | .storeBufferDrain c => Sys2Proof.Machine.execStoreBufferDrain c s
  | .ldioResponse c ok value => Sys2Proof.Machine.execLdioResponse c ok value s
  | .ldioTimeout c => Sys2Proof.Machine.execLdioTimeout c s
  | .stioAccepted c port => Sys2Proof.Machine.execStioAccepted c port s
  | .barSt c => Sys2Proof.Machine.execBarSt c s
  | .barDev c => Sys2Proof.Machine.execBarDev c s
  | .barFull c => Sys2Proof.Machine.execBarFull c s
  | .barLate c => Sys2Proof.Machine.execBarLate c s
  | .iflush c => Sys2Proof.Machine.execIflush c s
  | .dlset c g imm => Sys2Proof.Machine.execDlset c g imm s
  | .dlwait c g => Sys2Proof.Machine.execDlwait c g s
  | .dlwaitWake c => Sys2Proof.Machine.execDlwaitWake c s
  | .deadlineMiss c n => Sys2Proof.Machine.execDeadlineMiss c n s
  | .reservationExpiry c => Sys2Proof.Machine.execReservationExpiry c s
  | .mbx c g imm => Sys2Proof.Machine.execMbx c g imm s
  | .csrr c g csr => Sys2Proof.Machine.execCsrr c g csr s
  | .csrw c g csr => Sys2Proof.Machine.execCsrw c g csr s
  | .csrs c g csr => Sys2Proof.Machine.execCsrs c g csr s
  | .csrc c g csr => Sys2Proof.Machine.execCsrc c g csr s
  | .hret c => Sys2Proof.Machine.execHret c s
  | .hretb c => Sys2Proof.Machine.execHretb c s
  | .brk c => Sys2Proof.Machine.execBrk c s
  | .fwd r => Sys2Proof.Machine.execFwd r s
  | .mcg r => Sys2Proof.Machine.execMcg r s
  | .pool r => Sys2Proof.Machine.execPool r s
  | .trv r => Sys2Proof.Machine.execTrv r s
  | .fab r => Sys2Proof.Machine.execFab r s
  | .trap r imm => Sys2Proof.Machine.execTrap r imm s
  | .dropu r => Sys2Proof.Machine.execDropu r s
  | .dropa r => Sys2Proof.Machine.execDropa r s
  | .frameArrival p f check => Sys2Proof.Machine.execFrameArrival p f check s
  | .notchProgramStart t ue => Sys2Proof.Machine.execNotchProgramStart t ue s
  | .admission k => Sys2Proof.Machine.execAdmission k s
  | .screeReturn t seg => Sys2Proof.Machine.execScreeReturn t seg s
  | .screeReturnDone t seg ue => Sys2Proof.Machine.execScreeReturnDone t seg ue s
  | .notchTblRead t table i_ => Sys2Proof.Machine.execNotchTblRead t table i_ s
  | .notchTblWrite t table i_ => Sys2Proof.Machine.execNotchTblWrite t table i_ s
  | .notchTblInvalidate t table i_ => Sys2Proof.Machine.execNotchTblInvalidate t table i_ s
  | .notchTblCmdEnd t => Sys2Proof.Machine.execNotchTblCmdEnd t s
  | .programBankWrite t b prog i_ v => Sys2Proof.Machine.execProgramBankWrite t b prog i_ v s
  | .commit t => Sys2Proof.Machine.execCommit t s
  | .commitCheckEnd t ue => Sys2Proof.Machine.execCommitCheckEnd t ue s
  | .switch t => Sys2Proof.Machine.execSwitch t s
  | .notchWordWrite p v => Sys2Proof.Machine.execNotchWordWrite p v s
  | .trapRecordWrite t n => Sys2Proof.Machine.execTrapRecordWrite t n s
  | .trapResolve t m seq action => Sys2Proof.Machine.execTrapResolve t m seq action s
  | .trapTimeout t n => Sys2Proof.Machine.execTrapTimeout t n s
  | .contextGrant w => Sys2Proof.Machine.execContextGrant w s
  | .cellGrant k plane fault => Sys2Proof.Machine.execCellGrant k plane fault s
  | .multicastReserve k => Sys2Proof.Machine.execMulticastReserve k s
  | .cellAck k i_ => Sys2Proof.Machine.execCellAck k i_ s
  | .ackTimeout k i_ lost => Sys2Proof.Machine.execAckTimeout k i_ lost s
  | .planeIsolate k => Sys2Proof.Machine.execPlaneIsolate k s
  | .planeReturn k => Sys2Proof.Machine.execPlaneReturn k s
  | .egressTransmitStart p k => Sys2Proof.Machine.execEgressTransmitStart p k s
  | .nullify p k cause => Sys2Proof.Machine.execNullify p k cause s
  | .mcgRead g ue => Sys2Proof.Machine.execMcgRead g ue s
  | .mcgWrite g => Sys2Proof.Machine.execMcgWrite g s
  | .mcgClearDrop g => Sys2Proof.Machine.execMcgClearDrop g s
  | .mcgCmdEnd => Sys2Proof.Machine.execMcgCmdEnd s
  | .tarnAccess k ecc dirMiss => Sys2Proof.Machine.execTarnAccess k ecc dirMiss s
  | .tarnAccessPerform k ecc => Sys2Proof.Machine.execTarnAccessPerform k ecc s
  | .birsp h tag => Sys2Proof.Machine.execBirsp h tag s
  | .biTimeout h tag => Sys2Proof.Machine.execBiTimeout h tag s
  | .readaheadExpiry h desc line => Sys2Proof.Machine.execReadaheadExpiry h desc line s
  | .patrolScrub blk j ecc first => Sys2Proof.Machine.execPatrolScrub blk j ecc first s
  | .blockRetire blk => Sys2Proof.Machine.execBlockRetire blk s
  | .evacuationDone => Sys2Proof.Machine.execEvacuationDone s
  | .commitPoint => Sys2Proof.Machine.execCommitPoint s
  | .recolourDone => Sys2Proof.Machine.execRecolourDone s
  | .ping r m => Sys2Proof.Machine.execPing r m s
  | .rwlWrite r m => Sys2Proof.Machine.execRwlWrite r m s
  | .regionCommit r m => Sys2Proof.Machine.execRegionCommit r m s
  | .recolour r m => Sys2Proof.Machine.execRecolour r m s
  | .partition r m => Sys2Proof.Machine.execPartition r m s
  | .evacuate r m => Sys2Proof.Machine.execEvacuate r m s
  | .deadlineArm r m => Sys2Proof.Machine.execDeadlineArm r m s
  | .deadlineDone r m => Sys2Proof.Machine.execDeadlineDone r m s
  | .shutdown r m => Sys2Proof.Machine.execShutdown r m s
  | .fwStage r m => Sys2Proof.Machine.execFwStage r m s
  | .fwActivate r m => Sys2Proof.Machine.execFwActivate r m s
  | .svnCommit r m => Sys2Proof.Machine.execSvnCommit r m s
  | .unknownOp r m => Sys2Proof.Machine.execUnknownOp r m s
  | .mbxRplyRead c r m => Sys2Proof.Machine.execMbxRplyRead c r m s
  | .forcedQuiesce t => Sys2Proof.Machine.execForcedQuiesce t s
  | .debugAccess x => Sys2Proof.Machine.execDebugAccess x s
  | .submit m => Sys2Proof.Machine.execSubmit m s
  | .endGrant m => Sys2Proof.Machine.execEndGrant m s
  | .grantExpiry => Sys2Proof.Machine.execGrantExpiry s
  | .i3cFlashWrite slot data => Sys2Proof.Machine.execI3cFlashWrite slot data s
  | .tenantCreate src seq n h => Sys2Proof.Machine.execTenantCreate src seq n h s
  | .tenantDestroy src seq n => Sys2Proof.Machine.execTenantDestroy src seq n s
  | .vfAllot src seq h total log2 => Sys2Proof.Machine.execVfAllot src seq h total log2 s
  | .vfBind src seq v n => Sys2Proof.Machine.execVfBind src seq v n s
  | .shareSet src seq n tiles min cap => Sys2Proof.Machine.execShareSet src seq n tiles min cap s
  | .weightSet src seq n saddle trv => Sys2Proof.Machine.execWeightSet src seq n saddle trv s
  | .ctxCapSet src seq n cap => Sys2Proof.Machine.execCtxCapSet src seq n cap s
  | .regionSet src seq i_ w => Sys2Proof.Machine.execRegionSet src seq i_ w s
  | .mgrRecolour src seq first count colour zero => Sys2Proof.Machine.execMgrRecolour src seq first count colour zero s
  | .funcAssign src seq h k dev p lo hi => Sys2Proof.Machine.execFuncAssign src seq h k dev p lo hi s
  | .trvqSet src seq q wins descs => Sys2Proof.Machine.execTrvqSet src seq q wins descs s
  | .quiesce src seq t cancel ms => Sys2Proof.Machine.execQuiesce src seq t cancel ms s
  | .quiesceDeadline t => Sys2Proof.Machine.execQuiesceDeadline t s
  | .release src seq t => Sys2Proof.Machine.execRelease src seq t s
  | .query src seq n => Sys2Proof.Machine.execQuery src seq n s
  | .vfUnbind src seq v => Sys2Proof.Machine.execVfUnbind src seq v s
  | .enable q on => Sys2Proof.Machine.execEnable q on s
  | .resume q => Sys2Proof.Machine.execResume q s
  | .tailWrite q v => Sys2Proof.Machine.execTailWrite q v s
  | .descriptorStart q e w => Sys2Proof.Machine.execDescriptorStart q e w s
  | .segmentWrite q ue => Sys2Proof.Machine.execSegmentWrite q ue s
  | .engineReadCompletion e entry status ep data => Sys2Proof.Machine.execEngineReadCompletion e entry status ep data s
  | .completionRecord q => Sys2Proof.Machine.execCompletionRecord q s
  | .busMasterEnableClear p v => Sys2Proof.Machine.execBusMasterEnableClear p v s
  | .functionLevelReset p v => Sys2Proof.Machine.execFunctionLevelReset p v s
  | .flrComplete v => Sys2Proof.Machine.execFlrComplete v s
  | .pfVfsWrite m i_ v => Sys2Proof.Machine.execPfVfsWrite m i_ v s
  | .voqTenMinWrite m t v => Sys2Proof.Machine.execVoqTenMinWrite m t v s
  | .fabricIdWrite m v => Sys2Proof.Machine.execFabricIdWrite m v s
  | .thxCtlWrite m p v => Sys2Proof.Machine.execThxCtlWrite m p v s
  | .theoxDetect p lanes => Sys2Proof.Machine.execTheoxDetect p lanes s
  | .trainingBlock p block crcOk lane width reversed inverted done lost => Sys2Proof.Machine.execTrainingBlock p block crcOk lane width reversed inverted done lost s
  | .theoxTrainingTimeout p => Sys2Proof.Machine.execTheoxTrainingTimeout p s
  | .theoxFlit p x => Sys2Proof.Machine.execTheoxFlit p x s
  | .spareNow p lane => Sys2Proof.Machine.execSpareNow p lane s
  | .spareReq p lane => Sys2Proof.Machine.execSpareReq p lane s
  | .spareAck p lane => Sys2Proof.Machine.execSpareAck p lane s
  | .fabricRouteWrite m dev v => Sys2Proof.Machine.execFabricRouteWrite m dev v s
  | .routeDrainEnd dev => Sys2Proof.Machine.execRouteDrainEnd dev s
  | .pdNoticeSend dev port tenant => Sys2Proof.Machine.execPdNoticeSend dev port tenant s
  | .pdNotice payload => Sys2Proof.Machine.execPdNotice payload s
  | .slotEvt dev port ev => Sys2Proof.Machine.execSlotEvt dev port ev s
  | .pwrAlert dev port cause => Sys2Proof.Machine.execPwrAlert dev port cause s
  | .colMessageReceive arrival src m => Sys2Proof.Machine.execColMessageReceive arrival src m s
  | .colRingFrame k frame => Sys2Proof.Machine.execColRingFrame k frame s
  | .colTx m v => Sys2Proof.Machine.execColTx m v s
  | .cairnReq arrival dest first count => Sys2Proof.Machine.execCairnReq arrival dest first count s
  | .timeSync src p roundTrip ahead => Sys2Proof.Machine.execTimeSync src p roundTrip ahead s
  | .step m ahead => Sys2Proof.Machine.execStep m ahead s
  | .timeSourceLoss => Sys2Proof.Machine.execTimeSourceLoss s
  | .join m on => Sys2Proof.Machine.execJoin m on s
  | .portCtnFreeze m p => Sys2Proof.Machine.execPortCtnFreeze m p s
  | .tenantFreeze m n => Sys2Proof.Machine.execTenantFreeze m n s
  | .contextOverrun k => Sys2Proof.Machine.execContextOverrun k s
  | .ctnRelease m kind index => Sys2Proof.Machine.execCtnRelease m kind index s
  | .completionTimeout x => Sys2Proof.Machine.execCompletionTimeout x s
  | .quarantineEnd x => Sys2Proof.Machine.execQuarantineEnd x s
  | .linkUp p rate width flit cxl tenBit fc phy => Sys2Proof.Machine.execLinkUp p rate width flit cxl tenBit fc phy s
  | .linkDown p => Sys2Proof.Machine.execLinkDown p s
  | .linkTrainingStart p => Sys2Proof.Machine.execLinkTrainingStart p s
  | .replayTimerTimeout p => Sys2Proof.Machine.execReplayTimerTimeout p s
  | .l0pWidthChange p width => Sys2Proof.Machine.execL0pWidthChange p width s
  | .bifurWrite m t v => Sys2Proof.Machine.execBifurWrite m t v s
  | .portCfgWrite m p v => Sys2Proof.Machine.execPortCfgWrite m p v s
  | .configRequest k ack => Sys2Proof.Machine.execConfigRequest k ack s
  | .cfgHoldExpiry k => Sys2Proof.Machine.execCfgHoldExpiry k s
  | .idmapRead i_ => Sys2Proof.Machine.execIdmapRead i_ s
  | .idmapWrite i_ => Sys2Proof.Machine.execIdmapWrite i_ s
  | .idmapInvalidate i_ => Sys2Proof.Machine.execIdmapInvalidate i_ s
  | .idmapCmdEnd => Sys2Proof.Machine.execIdmapCmdEnd s
  | .linkDisable h k on => Sys2Proof.Machine.execLinkDisable h k on s
  | .retrainLink h k => Sys2Proof.Machine.execRetrainLink h k s
  | .secondaryBusReset h k => Sys2Proof.Machine.execSecondaryBusReset h k s
  | .assertIntx dev p id wire => Sys2Proof.Machine.execAssertIntx dev p id wire s
  | .deassertIntx dev p id wire => Sys2Proof.Machine.execDeassertIntx dev p id wire s
  | .powerControllerControl h k off => Sys2Proof.Machine.execPowerControllerControl h k off s
  | .indicatorControl h k attn power => Sys2Proof.Machine.execIndicatorControl h k attn power s
  | .dpcSoftwareTrigger h k => Sys2Proof.Machine.execDpcSoftwareTrigger h k s
  | .ptmRequest p => Sys2Proof.Machine.execPtmRequest p s
  | .ptmExchange p host => Sys2Proof.Machine.execPtmExchange p host s
  | .hdmCommit p i_ base size skip ways ack => Sys2Proof.Machine.execHdmCommit p i_ base size skip ways ack s
  | .cxlMailboxCommand p op => Sys2Proof.Machine.execCxlMailboxCommand p op s
  | .downstreamPortReset p surprise => Sys2Proof.Machine.execDownstreamPortReset p surprise s
  | .txTapsWrite n v => Sys2Proof.Machine.execTxTapsWrite n v s
  | .adaptationUpdate n steps => Sys2Proof.Machine.execAdaptationUpdate n steps s
  | .densityWindow n transitions idle => Sys2Proof.Machine.execDensityWindow n transitions idle s
  | .resumeCheck n => Sys2Proof.Machine.execResumeCheck n s
  | .periodicCheck n => Sys2Proof.Machine.execPeriodicCheck n s
  | .marginCheckEnd n height width => Sys2Proof.Machine.execMarginCheckEnd n height width s
  | .eyeScan n v => Sys2Proof.Machine.execEyeScan n v s
  | .eyeScanEnd n count => Sys2Proof.Machine.execEyeScanEnd n count s
  | .laneMargining p l type payload => Sys2Proof.Machine.execLaneMargining p l type payload s
  | .cdrLossOfLock n => Sys2Proof.Machine.execCdrLossOfLock n s
  | .bitslip n count => Sys2Proof.Machine.execBitslip n count s
  | .laneCfgWrite n prbs v => Sys2Proof.Machine.execLaneCfgWrite n prbs v s
  | .clear n => Sys2Proof.Machine.execClear n s
  | .inject n => Sys2Proof.Machine.execInject n s
  | .slotOn s_ => Sys2Proof.Machine.execSlotOn s_ s
  | .slotOff s_ => Sys2Proof.Machine.execSlotOff s_ s
  | .slotClear s_ => Sys2Proof.Machine.execSlotClear s_ s
  | .pwrLimitWrite s_ fold v => Sys2Proof.Machine.execPwrLimitWrite s_ fold v s
  | .rampStart s_ vin src => Sys2Proof.Machine.execRampStart s_ vin src s
  | .powerGoodAssert s_ vin src vgs => Sys2Proof.Machine.execPowerGoodAssert s_ vin src vgs s
  | .powerGoodDeassert s_ vin src vgs => Sys2Proof.Machine.execPowerGoodDeassert s_ vin src vgs s
  | .slotPerstRelease s_ => Sys2Proof.Machine.execSlotPerstRelease s_ s
  | .faultTimerExpiry s_ sense => Sys2Proof.Machine.execFaultTimerExpiry s_ sense s
  | .hardShort s_ sense => Sys2Proof.Machine.execHardShort s_ sense s
  | .gateFail s_ vgs => Sys2Proof.Machine.execGateFail s_ vgs s
  | .fetShort s_ vin src => Sys2Proof.Machine.execFetShort s_ vin src s
  | .restartTimerExpiry s_ => Sys2Proof.Machine.execRestartTimerExpiry s_ s
  | .retriesClear s_ => Sys2Proof.Machine.execRetriesClear s_ s
  | .presenceStable s_ => Sys2Proof.Machine.execPresenceStable s_ s
  | .sidebandEdge i_ level => Sys2Proof.Machine.execSidebandEdge i_ level s
  | .stuck i_ => Sys2Proof.Machine.execStuck i_ s
  | .chatter i_ edges raw => Sys2Proof.Machine.execChatter i_ edges raw s
  | .rearm m i_ => Sys2Proof.Machine.execRearm m i_ s
  | .doorbell m c => Sys2Proof.Machine.execDoorbell m c s
  | .kick m c => Sys2Proof.Machine.execKick m c s
  | .watchdogExpiry c => Sys2Proof.Machine.execWatchdogExpiry c s
  | .request m from_ => Sys2Proof.Machine.execRequest m from_ s
  | .yield m => Sys2Proof.Machine.execYield m s
  | .yieldTimeout => Sys2Proof.Machine.execYieldTimeout s
  | .cntSelWrite m v => Sys2Proof.Machine.execCntSelWrite m v s
  | .cntValWrite m v => Sys2Proof.Machine.execCntValWrite m v s
  | .go m => Sys2Proof.Machine.execGo m s
  | .run m on => Sys2Proof.Machine.execRun m on s
  | .snapshotStrobe => Sys2Proof.Machine.execSnapshotStrobe s
  | .dumpPeriod => Sys2Proof.Machine.execDumpPeriod s
  | .dumpEntryComplete => Sys2Proof.Machine.execDumpEntryComplete s
  | .dumpCtlWrite m v => Sys2Proof.Machine.execDumpCtlWrite m v s
  | .bwWindowBoundary p => Sys2Proof.Machine.execBwWindowBoundary p s
  | .cairnRecord src inst => Sys2Proof.Machine.execCairnRecord src inst s
  | .freeze m => Sys2Proof.Machine.execFreeze m s
  | .arm m => Sys2Proof.Machine.execArm m s
  | .rdIdxWrite m i_ => Sys2Proof.Machine.execRdIdxWrite m i_ s
  | .bistStart r m => Sys2Proof.Machine.execBistStart r m s
  | .bistAdmit => Sys2Proof.Machine.execBistAdmit s
  | .bistEnd kind i_ failures => Sys2Proof.Machine.execBistEnd kind i_ failures s
  | .bistAbort r m => Sys2Proof.Machine.execBistAbort r m s
  | .softRepair r m => Sys2Proof.Machine.execSoftRepair r m s
  | .softRepairCopy inst row why => Sys2Proof.Machine.execSoftRepairCopy inst row why s
  | .fuseRepair r m => Sys2Proof.Machine.execFuseRepair r m s
  | .returnUnit r m => Sys2Proof.Machine.execReturnUnit r m s
  | .illegalInstruction c word => Sys2Proof.Machine.execIllegalInstruction c word s
  | .handoverDone => Sys2Proof.Machine.execHandoverDone s
  | .tileResetEnd t => Sys2Proof.Machine.execTileResetEnd t s
  | .tarnInitialisationDone => Sys2Proof.Machine.execTarnInitialisationDone s
  | .fwStageDone ok => Sys2Proof.Machine.execFwStageDone ok s
  | .spareReloadDone ok => Sys2Proof.Machine.execSpareReloadDone ok s
  | .clkreqNChange p level => Sys2Proof.Machine.execClkreqNChange p level s
  | .dllpReceived p x => Sys2Proof.Machine.execDllpReceived p x s
  | .prbsCheckerLock n => Sys2Proof.Machine.execPrbsCheckerLock n s
  | .prbsCheckerLockLoss n errors => Sys2Proof.Machine.execPrbsCheckerLockLoss n errors s
  | .colLossOfSignal k => Sys2Proof.Machine.execColLossOfSignal k s
  | .colTrainingDone k => Sys2Proof.Machine.execColTrainingDone k s
  | .tileRefCheck ok => Sys2Proof.Machine.execTileRefCheck ok s

end Sys2Proof.Machine
end

