-- ==== Sys2Proof/Machine/Tick.lean ====
section
/-! DEFINITION. What passes with time when no command waits (DESIGN CHOICE: one tick of the time base per step). -/

namespace Sys2Proof.Machine

open Sys2Proof

/-- The time base counts while the root reference is locked and no slew holds it (R15, R254). -/
def Dev.timeTick (d : Dev) : Dev :=
  d.when (d.on DEV.CLK_STATUS.ROOT_LOCK) fun d =>
    if 0 < d.fab.holdTicks then { d with fab := { d.fab with holdTicks := d.fab.holdTicks - 1 } }
    else { d with timeBase := (d.timeBase + 1) % 2 ^ 64 }

/-- The time base and the island oscillator count (R15, R413). -/
def Dev.clockTick (d : Dev) : Dev :=
  (d.when d.vauxUp fun d => { d with osc := d.osc + 1 }).timeTick

/-- The core domain's effects of one tick: transmissions end, accepted STIO leave, quiesces come to rest, slot commands complete,
repairs of blocks that went out of service are made, the PFs' INTA follow their conditions, level counters and checkers run. -/
def Dev.coreTick (d : Dev) : Dev :=
  let d := (d.endTransmissions none).stioSend.quiesceCheck.pccLate.repairIdle
  let d := d.each 128 fun p d => d.pfIntx p
  d.levelTick.prbsTick

/-- One tick: 6 waiting records reach the Cairn, the clocks count, the core domain goes on while it is up. -/
def Dev.tick (d : Dev) : Dev :=
  let d := (d.when d.vauxUp fun d => d.cairnFlush 6).clockTick
  d.when d.coreUp Dev.coreTick

def tick (s : State) : Host.Outcome State Fault Refusal := s.lift Dev.tick

end Sys2Proof.Machine
end

