-- ==== Sys2Proof/Safety.lean ====
section
/-! DEFINITION. The terms that claims use: sound states, safe runs, completion of a command, what stays the same. -/

namespace Sys2Proof.Machine

open Sys2Proof

/-- The memory of the device is in its canonical form: equal contents are equal data. -/
def State.sound (s : State) : Prop := Memory.wf s.dev.mem = true

/-- A run of `n` steps ends in a state of the device, never in a fault or a refusal. -/
def State.runs (s : State) : Nat → Prop
  | 0 => True
  | n + 1 => ∃ t, step s = .next t ∧ t.runs n

/-- Command `i` answers a next state: its queue is that of `s`, its device meets `P`. -/
def Completes (i : Instr) (s : State) (P : Dev → Prop) : Prop := ∃ d, exec i s = .next { s with dev := d } ∧ P d

/-- Command `i` leaves everything as it is. -/
def NoEffect (i : Instr) (s : State) : Prop := exec i s = .next s

/-! ### Spur cores -/

/-- Core `c` is at an instruction with nothing in its way, and the debug port does not step it: the state in which an
instruction has its own effect (R63 to R67, R177, R389). -/
def State.atInstr (s : State) (c : Fin 9) : Prop := s.dev.quiet c = true ∧ s.dev.summit.stepping.contains c.val = false

/-- No register field differs but those at the listed places and the overflow flags of counters (R402). -/
def Dev.fieldsKept (keys : List Nat) (d d' : Dev) : Prop :=
  ∀ f i, f.key i ∉ keys → (∀ j, f.key i ≠ CNT.SEL.OVF.key j) → d'.rd f i = d.rd f i

/-- Nothing differs but core `c` and what the counted event of the instruction leaves in the counters (R398, R403). -/
def Dev.onlyCore (c : Nat) (d d' : Dev) : Prop :=
  (∀ c', c' ≠ c → d'.core c' = d.core c') ∧ d.fieldsKept [] d' ∧
  { d' with spur := { d'.spur with cores := d.spur.cores }, cnt := { d'.cnt with count := d.cnt.count }, regs := d.regs } = d

/-- Core `c` has gone on to the next instruction with register `rd` at `v` (g0 keeps reading zero) and nothing else of it
changed. -/
def SpurCore.wrote (k k' : SpurCore) (rd : Nat) (v : W64) : Prop :=
  (∀ n, k'.rdG n = if n = rd ∧ n ≠ 0 then v else k.rdG n) ∧ { k' with g := k.g } = { k with pc := k.pc + 4, bpSkip := false }

/-- Core `c` has taken a synchronous exception (R62, R63): its store buffer has drained and its entry is written. -/
def Dev.tookSync (d d' : Dev) (c : Nat) (code detail : Nat) (hpc haddr : W64) : Prop :=
  d'.core c = ({ d.core c with sb := [] } : SpurCore).enter code detail 0 hpc haddr ∧ d'.mem = (d.drainAll c).mem

/-! ### Notch runs -/

/-- Nothing differs but the Notch run with number `r`. -/
def Dev.onlyRun (r : Nat) (d d' : Dev) : Prop :=
  (∀ r', r' ≠ r → d'.run? r' = d.run? r') ∧ { d' with notch := { d'.notch with runs := d.notch.runs } } = d

/-! ### Packets -/

/-- Run `r` stands before an emit that its packet meets with nothing in its way: a request or completion from a PCI Express
or CXL link, in its pipeline, that matched no context, came in no locked or protected frame, and whose port is not frozen. -/
def Dev.emits (d : Dev) (r : Nat) (n : NRun) (k : Pkt) : Prop :=
  d.run? r = some n ∧ n.idx < 24 ∧ n.emitted = false ∧ n.poisoned = false ∧ d.pkt? n.pkt = some k ∧ k.phase = .running ∧
  k.ctx = none ∧ k.noTrk = false ∧ k.marked = false ∧ k.charged = false ∧ k.credited = false ∧ k.frame.locked = false ∧
  k.frame.ide = false ∧ k.frame.fabric = false ∧ d.frozen k.port = false

/-- After its emit a run executes slot 1 of its pair and is gone (R45). -/
def Dev.runEnds (d : Dev) (r : Nat) (n : NRun) : Prop :=
  d.run? r = if n.idx % 2 = 1 then none else some { n.land with idx := n.idx + 1, emitted := true }

/-- No other packet changes. -/
def Dev.onlyPkt (i : Nat) (d d' : Dev) : Prop := ∀ j, j ≠ i → d'.pkt? j = d.pkt? j

/-- A port can take a packet: configured, not frozen, its link up (R266). -/
def Dev.takes (d : Dev) (p : Nat) : Prop := d.configured p = true ∧ d.frozen p = false ∧ d.linkUp p = true

end Sys2Proof.Machine
end

