-- ==== Sys2Proof/WellFormed.lean ====
section
/-! DEFINITION. Well-formed commands: what the spec asks of a command's operands beyond their types. -/

namespace Sys2Proof

/-- A source without bank bit: a Spur core has no header registers (R27, R28). -/
def Src.general : Src → Bool
  | .g _ => true
  | .h _ => false

/-- A destination without bank bit: a Spur core has no output registers (R27, R28). -/
def Dst.general : Dst → Bool
  | .g _ => true
  | .o _ => false

/-- The banks of an instruction's registers exist on its engine (R26, R28). -/
def Engine.allows (e : Engine) (dsts : List Dst) (srcs : List Src) : Bool :=
  match e with
  | .spur _ => dsts.all Dst.general && srcs.all Src.general
  | .notch _ => true

/-- A frame as extraction hands it over: FTYPE 0 to 15 (R71), a header, the sub-queue of its FTYPE where R481 fixes it, a segment header
only on a frame of a Theox segment (R74). -/
def Frame.wf (f : Frame) : Bool :=
  decide (f.ftype < 16) && decide (0 < f.head.length) && (f.fabric || (f.h14 == 0 && f.h15 == 0))

/-- A Theox flit: 242 bytes of TLP, DLLP and CRC-covered content (R226). -/
def Flit.wf (x : Flit) : Bool := decide (x.bytes.length = 242) && x.frames.all Frame.wf

/-- A debug access to Tarn moves at least one byte, and exactly the bytes it gives (R389). -/
def DebugReq.wf : DebugReq → Bool
  | .tarn _ _ w len => decide (0 < len) && (match w with | some bs => decide (bs.length = len) | none => true)
  | _ => true

/-- The operands are within what the spec defines for the command. -/
def Instr.wf : Instr → Bool
  | .add e rd a b | .sub e rd a b | .and e rd a b | .or e rd a b | .xor e rd a b | .andn e rd a b | .shl e rd a b | .shr e rd a b
  | .sar e rd a b | .min e rd a b | .max e rd a b | .minu e rd a b | .maxu e rd a b | .hash e rd a b => e.allows [rd] [a, b]
  | .cmp e a b | .tst e a b => e.allows [] [a, b]
  | .addi e rd a _ | .andi e rd a _ | .ori e rd a _ | .xori e rd a _ | .cati e rd a _ => e.allows [rd] [a]
  | .shli e rd a _ | .shri e rd a _ | .sari e rd a _ => e.allows [rd] [a]
  | .cmpi e a _ | .tsti e a _ => e.allows [] [a]
  | .exti e rd a _ _ | .extsi e rd a _ _ | .insi e rd a _ _ => e.allows [rd] [a]
  | .frameArrival _ f _ => f.wf
  | .theoxFlit _ x => x.wf
  | .trainingBlock _ b _ _ _ _ _ _ _ => decide (b.length = 16)
  | .theoxDetect _ n => decide (n.val ≤ 16)
  | .pdNotice b => decide (24 ≤ b.length)
  | .colMessageReceive _ _ m => decide (8 ≤ m.length) && decide (m.length ≤ 256)
  | .colRingFrame _ f => decide (14 ≤ f.length)
  | .debugAccess x => x.wf
  | .funcAssign _ _ _ _ _ _ lo hi => decide (lo.toNat ≤ hi.toNat)
  | .linkUp _ _ w _ _ _ fc _ => decide (w.val ≤ 4) && decide (fc.length = 3)
  | .eyeScanEnd _ n => decide (n < 2 ^ 32)
  | .prbsCheckerLockLoss _ n => decide (n ≤ 64)
  | _ => true

end Sys2Proof
end

