-- ==== Sys2Proof/Certificates/Slice0/Obligations.lean ====
section
/-! DEFINITION. The statements about the model, for the provers. -/

open Sys2Proof Sys2Proof.Machine

/-- A step runs the front command, or lets one tick pass (98_reader.md, 95_what_each_step_holds.md). For every command c and every
state, a step with c at the front of the queue is exec of c on the state with the rest of the queue; on an empty queue a step is
one tick of the time base (the model's choice, log entry 2). -/
def Obligations.StepRunsFrontCommand : Prop :=
  (∀ (c : Instr) (rest : List Instr) (d : Dev), step { pending := c :: rest, dev := d } = exec c { pending := rest, dev := d }) ∧
  ∀ d : Dev, step { pending := [], dev := d } = .next { pending := [], dev := d.tick }

/-- No command ends in a fault or a refusal, and none touches the queue behind it (98_reader.md, 95_what_each_step_holds.md). For
every command and every state, exec answers a next state whose queue is the queue of the state before; so a step shortens a queue
that is not empty by exactly its front command, and every run of any number of steps from any state goes on. -/
def Obligations.EveryCommandAnswersNextState : Prop :=
  (∀ (c : Instr) (s : State), ∃ d, exec c s = .next { s with dev := d }) ∧
  (∀ (c : Instr) (rest : List Instr) (d : Dev), ∃ d', step { pending := c :: rest, dev := d } = .next { pending := rest, dev := d' }) ∧
  ∀ (n : Nat) (s : State), s.runs n

/-- What the machine holds right after VAUX power-on reset (R6, R19, R89, R412). Right after reset no command waits, the device is
held in VAUX power-on reset, every register field reads its Reset value, every Spur core is held in reset with pc 0 and flags 0,
every program bank is UNCHECKED with zero words, every lookup table entry is zero and not valid, the Cairn ring is zero, and the
memory is in its canonical form. That unwritten memory bytes read zero and that general registers are zero is the model's choice
(log entries 5 and 6). -/
def Obligations.ResetStateFields : Prop :=
  State.reset.pending = [] ∧ State.reset.dev.power = .vaux ∧ State.reset.sound ∧
  (∀ f i, State.reset.dev.rd f i = f.resetAt i) ∧
  (∀ a, State.reset.dev.byte a = 0) ∧
  (∀ c, (State.reset.dev.core c).mode = .held ∧ (State.reset.dev.core c).pc = 0 ∧ (State.reset.dev.core c).flags = {} ∧
    (State.reset.dev.core c).handler = false ∧ (State.reset.dev.core c).rsv = none ∧ ∀ n, (State.reset.dev.core c).rdG n = 0) ∧
  (∀ t b, b < 2 → SMap.get 0 State.reset.dev.notch.bankState (t * 2 + b) = 0) ∧
  (∀ k, SMap.get 0 State.reset.dev.notch.prog k = 0 ∧ SMap.get ExactEnt.zero State.reset.dev.notch.exact k = .zero) ∧
  (∀ k, SMap.get CairnRec.zero State.reset.dev.cairn.ring k = .zero)

/-- Decoding an encoded Ridge instruction gives it back, and a word that decodes has exactly the encoding of what it decodes to (R26,
R28, R30, R31, R32, R33, R35, R37, R39, R41, R49, R55). For every Ridge instruction the decoder can name, with every operand at
every value its encoding admits, decoding its 32-bit word gives that instruction; and for every 32-bit word, if the decoder reads
an instruction from it, encoding that instruction gives the word back: no bit of a word is ignored, and no two words name one
instruction. -/
def Obligations.RidgeEncodingRoundTrip : Prop :=
  (∀ i : Ridge, encodeRidge i < 2 ^ 32 ∧ decodeRidge (encodeRidge i) = .ok i) ∧
  ∀ w i, w < 2 ^ 32 → decodeRidge w = .ok i → encodeRidge i = w

/-- The register operations on a Spur core: result, g0, and what stays (R27, R28, R33, R34). On a core at an instruction with nothing
in its way, ADD, SUB, AND, OR, XOR, ANDN, SHL, SHR, SAR, MIN, MAX, MINU, MAXU, HASH, MUL, MULHU, DIVU, REMU, CLZ and POPC answer a
next state: rd holds the result of R33 and R34 (g0 keeps reading zero), every other register, the flags and the rest of the core
are unchanged but for the pc, which moves by 4, and the breakpoint suppression of HRETB, which ends; no other core, no memory
byte, no register field (but overflow flags of counters, by the counted event) and nothing else changes. -/
def Obligations.SpurRegisterResults : Prop :=
  ∀ (s : State) (c : Fin 9) (rd a b : Fin 32), s.atInstr c →
    let x := (s.dev.core c).rdG a
    let y := (s.dev.core c).rdG b
    let n := y.toNat % 64
    (∀ p ∈ ([(Instr.add, x + y), (.sub, x - y), (.and, x &&& y), (.or, x ||| y), (.xor, x ^^^ y), (.andn, x &&& ~~~y), (.shl, x <<< n),
        (.shr, x >>> n), (.sar, x.sshiftRight n), (.min, if x.toInt < y.toInt then x else y), (.max, if x.toInt < y.toInt then y else x),
        (.minu, if x.toNat < y.toNat then x else y), (.maxu, if x.toNat < y.toNat then y else x),
        (.hash, BitVec.ofNat 64 (crc32c (natBytes 8 x.toNat ++ natBytes 8 y.toNat)))] : List ((Engine → Dst → Src → Src → Instr) × W64)),
      Completes (p.1 (.spur c) (.g rd) (.g a) (.g b)) s fun d => (s.dev.core c).wrote (d.core c) rd p.2 ∧ s.dev.onlyCore c d) ∧
    (∀ p ∈ ([(Instr.mul, BitVec.ofNat 64 (x.toNat * y.toNat)), (.mulhu, BitVec.ofNat 64 (x.toNat * y.toNat / 2 ^ 64)),
        (.divu, if y = 0 then 0xFFFFFFFFFFFFFFFF#64 else BitVec.ofNat 64 (x.toNat / y.toNat)),
        (.remu, if y = 0 then x else BitVec.ofNat 64 (x.toNat % y.toNat))] : List ((Fin 9 → Fin 32 → Fin 32 → Fin 32 → Instr) × W64)),
      Completes (p.1 c rd a b) s fun d => (s.dev.core c).wrote (d.core c) rd p.2 ∧ s.dev.onlyCore c d) ∧
    (∃ v : W64, (if x = 0 then v = 64 else x.toNat / 2 ^ (63 - v.toNat) = 1 ∧ v.toNat < 64) ∧
      Completes (.clz c rd a) s fun d => (s.dev.core c).wrote (d.core c) rd v ∧ s.dev.onlyCore c d) ∧
    ∃ v : W64, v.toNat = ((List.range 64).filter fun i => x.getLsbD i).length ∧
      Completes (.popc c rd a) s fun d => (s.dev.core c).wrote (d.core c) rd v ∧ s.dev.onlyCore c d

/-- The immediate operations on a Spur core, bit by bit for the field moves (R31, R35, R36). On a core at an instruction with nothing
in its way, ADDI, ANDI, ORI, XORI, SHLI, SHRI, SARI, CATI, EXTI, EXTSI and INSI answer a next state in which rd holds the result
of R35 and R36: ADDI takes the sign-extended immediate, the logical ones the zero-extended one; a field that passes bit 63 is cut
there, EXTSI repeating its top existing bit; everything else is unchanged as for the register operations. -/
def Obligations.SpurImmediateResults : Prop :=
  ∀ (s : State) (c : Fin 9) (rd a : Fin 32) (k : BitVec 14) (n p n1 : Fin 64), s.atInstr c →
    let x := (s.dev.core c).rdG a
    let done (i : Instr) (v : W64) := Completes i s fun d => (s.dev.core c).wrote (d.core c) rd v ∧ s.dev.onlyCore c d
    done (.addi (.spur c) (.g rd) (.g a) k) (x + k.signExtend 64) ∧
    done (.andi (.spur c) (.g rd) (.g a) k) (x &&& k.zeroExtend 64) ∧
    done (.ori (.spur c) (.g rd) (.g a) k) (x ||| k.zeroExtend 64) ∧
    done (.xori (.spur c) (.g rd) (.g a) k) (x ^^^ k.zeroExtend 64) ∧
    done (.cati (.spur c) (.g rd) (.g a) k) (x <<< 14 ||| k.zeroExtend 64) ∧
    done (.shli (.spur c) (.g rd) (.g a) n) (x <<< n.val) ∧
    done (.shri (.spur c) (.g rd) (.g a) n) (x >>> n.val) ∧
    done (.sari (.spur c) (.g rd) (.g a) n) (x.sshiftRight n.val) ∧
    (∃ v, (∀ j, j < 64 → v.getLsbD j = (decide (j ≤ n1.val) && x.getLsbD (p + j))) ∧ done (.exti (.spur c) (.g rd) (.g a) p n1) v) ∧
    (∃ v, (∀ j, j < 64 → v.getLsbD j = x.getLsbD (min (p + min j n1.val) 63)) ∧ done (.extsi (.spur c) (.g rd) (.g a) p n1) v) ∧
    ∃ v, (∀ j, j < 64 → v.getLsbD j = if p.val ≤ j ∧ j ≤ p.val + n1.val then x.getLsbD (j - p) else ((s.dev.core c).rdG rd).getLsbD j) ∧
      done (.insi (.spur c) (.g rd) (.g a) p n1) v

/-- CMP, CMPI, TST and TSTI on a Spur core write Z, N, C and V and nothing else (R29, R33, R35). On a core at an instruction with
nothing in its way, CMP and CMPI set Z when a = b, N to the top bit of a minus b, C when a is below b unsigned, V when the signed
difference does not fit in 64 bits; TST and TSTI set Z and N from a AND b and write C and V zero; H, X and every register are
kept, the pc moves by 4, nothing else changes. -/
def Obligations.SpurCompareFlags : Prop :=
  ∀ (s : State) (c : Fin 9) (a b : Fin 32) (k : BitVec 14), s.atInstr c →
    let q := s.dev.core c
    let x := q.rdG a
    let goes (i : Instr) (z n cy v : Bool) := Completes i s fun d =>
      d.core c = { q with flags := { q.flags with z := z, n := n, c := cy, v := v }, pc := q.pc + 4, bpSkip := false } ∧ s.dev.onlyCore c d
    let beyond (y : W64) : Bool := decide (x.toInt - y.toInt < -2 ^ 63 ∨ 2 ^ 63 ≤ x.toInt - y.toInt)
    goes (.cmp (.spur c) (.g a) (.g b)) (x == q.rdG b) (x - q.rdG b).msb (decide (x.toNat < (q.rdG b).toNat)) (beyond (q.rdG b)) ∧
    goes (.cmpi (.spur c) (.g a) k) (x == k.signExtend 64) (x - k.signExtend 64).msb (decide (x.toNat < (k.signExtend 64 : W64).toNat))
      (beyond (k.signExtend 64)) ∧
    goes (.tst (.spur c) (.g a) (.g b)) (x &&& q.rdG b == 0) (x &&& q.rdG b).msb false false ∧
    goes (.tsti (.spur c) (.g a) k) (x &&& k.zeroExtend 64 == 0) (x &&& k.zeroExtend 64).msb false false

/-- BCC, JAL and JALR on a Spur core, with the misaligned target that traps (R39, R40). On a core at an instruction with nothing in
its way: BCC adds four times its signed offset to its own address when its condition of R39 holds and goes on by 4 otherwise,
changing no register and no flag; JAL writes the address of the next instruction to g31 and jumps relative to its own address;
JALR to an aligned target writes it to rd and jumps to rs1 plus the sign-extended immediate; JALR to a target whose low two bits
are not zero writes no register and takes the alignment exception 3 with HPC at the JALR and HADDR at the target. -/
def Obligations.SpurBranchesAndJumps : Prop :=
  ∀ (s : State) (c : Fin 9) (rd a : Fin 32) (cond : Cond) (off : BitVec 22) (far : BitVec 26) (k : BitVec 14), s.atInstr c →
    let q := s.dev.core c
    let f := q.flags
    let taken : Bool := match cond with
      | .eq => f.z | .ne => !f.z | .lt => f.n ^^ f.v | .ge => !(f.n ^^ f.v) | .ltu => f.c | .geu => !f.c
      | .gt => !f.z && !(f.n ^^ f.v) | .le => f.z || (f.n ^^ f.v) | .gtu => !f.c && !f.z | .leu => f.c || f.z
      | .hit => f.h | .miss => !f.h | .xs => f.x | .xc => !f.x | .al => true
    let target := q.rdG a + k.signExtend 64
    (Completes (.bcc (.spur c) cond off) s fun d =>
      d.core c = { q with pc := q.pc + (if taken then off.signExtend 64 * 4 else 4), bpSkip := false } ∧ s.dev.onlyCore c d) ∧
    (Completes (.jal c far) s fun d =>
      (∀ n, (d.core c).rdG n = if n = 31 then q.pc + 4 else q.rdG n) ∧
      { d.core c with g := q.g } = { q with pc := q.pc + far.signExtend 64 * 4, bpSkip := false } ∧ s.dev.onlyCore c d) ∧
    (target.toNat % 4 = 0 → Completes (.jalr c rd a k) s fun d =>
      (∀ n, (d.core c).rdG n = if n = rd.val ∧ n ≠ 0 then q.pc + 4 else q.rdG n) ∧
      { d.core c with g := q.g } = { q with pc := target, bpSkip := false } ∧ s.dev.onlyCore c d) ∧
    (target.toNat % 4 ≠ 0 → q.handler = false → Completes (.jalr c rd a k) s fun d => s.dev.tookSync d c 3 0 q.pc target)

/-- Taking an exception on a Spur core: what is saved and where the pc goes (R62, R63). On a core at an instruction with nothing in
its way and outside a handler, BRK (code 6, DETAIL 0, HPC the next instruction, HADDR a free value that no rule gives) and an
illegal word (code 1, DETAIL 0 for an encoding, 1 for a Notch-only instruction, HPC its address, HADDR the word) take their
exception: HPC, HCAUSE, HADDR and SFLAGS are written, HANDLER is set, the reservation is gone, the store buffer has drained and
the pc is HVEC plus 0x40 times the code; registers and flags stay. -/
def Obligations.SpurExceptionEntry : Prop :=
  (∀ (s : State) (c : Fin 9), s.atInstr c → (s.dev.core c).handler = false →
    (∃ v, Completes (.brk c) s fun d => s.dev.tookSync d c 6 0 ((s.dev.core c).pc + 4) v) ∧
    ∀ w : W32, (∀ n, illegalDetail w.toNat = some n →
        Completes (.illegalInstruction c w) s fun d => s.dev.tookSync d c 1 n (s.dev.core c).pc (w.zeroExtend 64)) ∧
      (illegalDetail w.toNat = none → NoEffect (.illegalInstruction c w) s)) ∧
  (∀ (k : SpurCore) (code detail dl : Nat) (hpc haddr : W64),
    let e := k.enter code detail dl hpc haddr
    e.hpc = hpc ∧ e.hcause = BitVec.ofNat 64 (code + 16 * detail + 256 * dl) ∧ e.haddr = haddr ∧ e.sflags = k.flags ∧ e.handler = true ∧
    e.rsv = none ∧ e.pc = k.hvec + BitVec.ofNat 64 (0x40 * code) ∧ e.flags = k.flags ∧ (∀ n, e.rdG n = k.rdG n) ∧ e.hvec = k.hvec ∧
    e.hsave = k.hsave ∧ e.event = k.event ∧ e.evmask = k.evmask ∧ e.dl = k.dl) ∧
  illegalDetail 0x000002C0 = some 0 ∧ illegalDetail 0xF0000000 = some 1 ∧ illegalDetail 0x00A41804 = some 0

/-- A bank bit is illegal on a Spur core, for every register and immediate operation (R26, R28, R62). On a core at an instruction with
nothing in its way and outside a handler, each register or immediate operation that names an h source or an o destination takes
the illegal-instruction exception (code 1, DETAIL 0) at its own address and writes no register; HADDR holds the 32-bit word. -/
def Obligations.SpurBankBitTraps : Prop :=
  ∀ (s : State) (c : Fin 9) (rd : Dst) (a b : Src) (k : BitVec 14) (p n : Fin 64), s.atInstr c → (s.dev.core c).handler = false →
    let traps (i : Instr) := ∃ w, w < 2 ^ 32 ∧ Completes i s fun d => s.dev.tookSync d c 1 0 (s.dev.core c).pc (BitVec.ofNat 64 w)
    let e := Engine.spur c
    ((rd.general && a.general && b.general) = false → ∀ i ∈ [Instr.add e rd a b, .sub e rd a b, .and e rd a b, .or e rd a b, .xor e rd a b,
      .andn e rd a b, .shl e rd a b, .shr e rd a b, .sar e rd a b, .min e rd a b, .max e rd a b, .minu e rd a b, .maxu e rd a b,
      .hash e rd a b], traps i) ∧
    ((rd.general && a.general) = false → ∀ i ∈ [Instr.addi e rd a k, .andi e rd a k, .ori e rd a k, .xori e rd a k, .cati e rd a k,
      .shli e rd a n, .shri e rd a n, .sari e rd a n, .exti e rd a p n, .extsi e rd a p n, .insi e rd a p n], traps i) ∧
    ((a.general && b.general) = false → traps (.cmp e a b) ∧ traps (.tst e a b)) ∧
    (a.general = false → traps (.cmpi e a k) ∧ traps (.tsti e a k))

/-- HRET and HRETB return from a handler, and are illegal outside one; a synchronous exception inside fails the core (R58, R66, R67,
R193, R195). On a core at an instruction with nothing in its way: inside a handler HRET and HRETB restore the flags from SFLAGS,
clear HANDLER and put the pc at HPC with its low two bits zero; HRETB alone suppresses the breakpoint match of the next
instruction; every register and every other CSR stays. Outside a handler both take the illegal-instruction exception with DETAIL
3. A core inside a handler that executes BRK, an illegal word or a misaligned JALR is failed: it executes nothing more,
HANDOVER.FAILED names it, and its outstanding accesses and its reservation are gone; with no spare its role stops. -/
def Obligations.SpurHandlerReturnsAndFailures : Prop :=
  ∀ (s : State) (c : Fin 9) (rd a : Fin 32) (k : BitVec 14) (w : W32), s.atInstr c →
    let q := s.dev.core c
    let back (b : Bool) := { q with flags := q.sflags, handler := false, pc := q.hpc &&& ~~~3#64, bpSkip := b }
    let fails (i : Instr) := Completes i s fun d =>
      (d.core c).mode = .failed ∧ (d.rd SPUR.HANDOVER.FAILED).testBit c = true ∧ (d.core c).loads = [] ∧ (d.core c).rsv = none ∧
      (s.dev.spare = 15 → (d.core c).role = 15)
    (q.handler = true →
      (Completes (.hret c) s fun d => d.core c = back false ∧ s.dev.onlyCore c d) ∧
      (Completes (.hretb c) s fun d => d.core c = back true ∧ s.dev.onlyCore c d) ∧
      fails (.brk c) ∧
      ((illegalDetail w.toNat).isSome = true → fails (.illegalInstruction c w)) ∧
      ((q.rdG a + k.signExtend 64).toNat % 4 ≠ 0 → fails (.jalr c rd a k))) ∧
    (q.handler = false →
      (Completes (.hret c) s fun d => s.dev.tookSync d c 1 3 q.pc 0xE1800000) ∧
      Completes (.hretb c) s fun d => s.dev.tookSync d c 1 3 q.pc 0xE1900000)

/-- What a load or store of a Spur core raises by its address and size (R49, R50, R62, R64, R170, R172). On a core at an instruction
with nothing in its way and outside a handler: every LD, LDS, ST, LDX or STX to an address that is no multiple of its size takes
the alignment exception (code 3, DETAIL 1). An aligned LD or LDS outside memory, or through an aperture with VALID = 0, takes the
access fault with DETAIL 1; such an ST, or one through an aperture with WRITE = 0, with DETAIL 2; an LDX or STX outside Spur
memory or narrower than 4 bytes with DETAIL 3. HPC is the instruction, HADDR the address. -/
def Obligations.SpurAccessFaults : Prop :=
  ∀ (s : State) (c : Fin 9) (sz : Size) (t a : Fin 32) (off : BitVec 14), s.atInstr c → (s.dev.core c).handler = false →
    let k := s.dev.core c
    let x := (k.rdG a + off.signExtend 64).toNat
    let traps (i : Instr) (code detail : Nat) := Completes i s fun d => s.dev.tookSync d c code detail k.pc (BitVec.ofNat 64 x)
    let cl := addrClass x
    let noMem := cl = .mgmt ∨ cl = .port ∨ cl = .unmapped
    let apt (f : Fld) := s.dev.on f (c * 16 + (x - 0x20000000000) / 2 ^ 37)
    (x % sz.bytes ≠ 0 → ∀ i ∈ [Instr.ld c sz t a off, .lds c sz t a off, .st c sz t a off, .ldx c sz t a off, .stx c sz t a off], traps i 3 1) ∧
    (x % sz.bytes = 0 →
      (noMem ∨ (cl = .tarn ∧ apt SPUR.TARN_APT.VALID = false) → traps (.ld c sz t a off) 2 1 ∧ traps (.lds c sz t a off) 2 1) ∧
      (noMem ∨ (cl = .tarn ∧ (apt SPUR.TARN_APT.VALID = false ∨ apt SPUR.TARN_APT.WRITE = false)) → traps (.st c sz t a off) 2 2) ∧
      (cl ≠ .spurMem ∨ sz.bytes < 4 → traps (.ldx c sz t a off) 2 3 ∧ traps (.stx c sz t a off) 2 3))

/-- LD, LDS and LDX that raise nothing: SRAM answers at once, Spur memory becomes outstanding (R49, R51, R170, R176, R181). On a core
at an instruction with nothing in its way, with an aligned address that no buffered store touches: LD and LDS from instruction or
data SRAM write rd with the bytes read, little-endian, LD zero-extended and LDS sign-extended; from Spur memory they enter the
reorder buffer with the first free tag and the pc moves on; an LDX of 4 or 8 bytes does the same and reserves its 64-byte line. A
load through a valid aperture that the stack controller accepts and that needs no snoop is outstanding too. No memory byte
changes. Where a buffered store touches the same 8-byte word, it and every older entry drain first, and the load reads what they
left. -/
def Obligations.SpurLoadsIssue : Prop :=
  ∀ (s : State) (c : Fin 9) (sz : Size) (t a : Fin 32) (off : BitVec 14), s.atInstr c →
    let k := s.dev.core c
    let x := (k.rdG a + off.signExtend 64).toNat
    let n := sz.bytes
    let v (d : Dev) := d.load (flatOf c x) n
    let sx (w : Nat) : W64 := if 2 ^ (8 * n - 1) ≤ w then BitVec.ofNat 64 (w + 2 ^ 64 - 2 ^ (8 * n)) else BitVec.ofNat 64 w
    let out (signed tarn : Bool) (flat : Nat) : OutLoad := ⟨0, k.pc, t, x, flat, tarn, n, signed, none, false⟩
    let next := { k with pc := k.pc + 4, bpSkip := false }
    x % n = 0 →
    (addrClass x = .isram ∨ addrClass x = .dsram → s.dev.poisoned (flatOf c x) = false →
      ((∀ e ∈ k.sb, e.addr / 8 ≠ x / 8) →
        (Completes (.ld c sz t a off) s fun d => k.wrote (d.core c) t (BitVec.ofNat 64 (v s.dev)) ∧ s.dev.onlyCore c d) ∧
        Completes (.lds c sz t a off) s fun d => k.wrote (d.core c) t (sx (v s.dev)) ∧ s.dev.onlyCore c d) ∧
      ((s.dev.drainN c (drainDepth k.sb x)).poisoned (flatOf c x) = false → t.val ≠ 0 → Completes (.ld c sz t a off) s fun d =>
        (d.core c).rdG t = BitVec.ofNat 64 (v d) ∧ (d.core c).sb = k.sb.drop (drainDepth k.sb x) ∧
        d.mem = (s.dev.drainN c (drainDepth k.sb x)).mem)) ∧
    (addrClass x = .spurMem → (∀ e ∈ k.sb, e.addr / 8 ≠ x / 8) →
      (Completes (.ld c sz t a off) s fun d => d.core c = { next with loads := [out false false (flatOf c x)] } ∧ s.dev.onlyCore c d) ∧
      (Completes (.lds c sz t a off) s fun d => d.core c = { next with loads := [out true false (flatOf c x)] } ∧ s.dev.onlyCore c d) ∧
      (4 ≤ n → Completes (.ldx c sz t a off) s fun d =>
        d.core c = { next with loads := [out false false (flatOf c x)], rsv := some (x / 64) } ∧ s.dev.onlyCore c d)) ∧
    (addrClass x = .tarn → s.dev.on SPUR.TARN_APT.VALID (aptIdx c x) = true →
      let q := s.dev.aptAcc c x n .read
      let pool := (s.dev.desc q.desc).poolOf q.addr
      s.dev.poolCheck q = none → (s.dev.deviceReady .read q.desc (linesOf pool n)).1 = true →
      Completes (.ld c sz t a off) s fun d =>
        (d.core c).loads = [out false true (tarnBase + pool)] ∧ (d.core c).pc = k.pc + 4 ∧ d.mem = s.dev.mem)

/-- A load response: performed, retired in program order, or the fault it ends in (R176, R177, R178, R182). While the core domain is
up: the response of the only outstanding load of a core, from Spur memory without an error, writes its register with the bytes of
memory (zero- or sign-extended) and frees its entry, and nothing else changes; with its word poisoned and outside a handler the
load takes a device-access error (code 4, DETAIL 2) at its own address, writes no register, and every younger load is discarded.
The response of a younger load, while the oldest has not arrived, changes no register and retires nothing. A response that names
no outstanding load has no effect. -/
def Obligations.LoadResponseRetires : Prop :=
  ∀ (s : State) (c : Fin 9) (tag : Fin 32), s.dev.coreUp = true →
    let k := s.dev.core c
    (∀ l, k.loads = [l] → l.tag = tag.val → l.result = none → l.tarn = false →
      (s.dev.poisoned l.flat = false → Completes (.loadResponse c tag) s fun d =>
        (∀ n, (d.core c).rdG n = if n = l.rd ∧ n ≠ 0 then extend l.signed l.size (s.dev.load l.flat l.size) else k.rdG n) ∧
        { d.core c with g := k.g } = { k with loads := [] } ∧ (∀ c', c' ≠ c.val → d.core c' = s.dev.core c') ∧
        { d with spur := { d.spur with cores := s.dev.spur.cores } } = s.dev) ∧
      (s.dev.poisoned l.flat = true → k.handler = false → Completes (.loadResponse c tag) s fun d =>
        d.core c = ({ k with loads := [], sb := [] } : SpurCore).enter 4 2 0 l.pc (BitVec.ofNat 64 l.addr))) ∧
    (∀ l₁ l₂ ls, k.loads = l₁ :: l₂ :: ls → l₁.tag ≠ tag.val → l₂.tag = tag.val → l₁.arrived = false →
      Completes (.loadResponse c tag) s fun d =>
        (∀ n, (d.core c).rdG n = k.rdG n) ∧ (d.core c).loads.length = k.loads.length ∧ (d.core c).pc = k.pc ∧ d.mem = s.dev.mem) ∧
    ((∀ l ∈ k.loads, l.tag ≠ tag.val ∧ l.arrived = false) → NoEffect (.loadResponse c tag) s)

/-- ST enters the store buffer, a drain stores its oldest entry, STX stores only under its reservation (R49, R51, R174, R178, R180,
R184). On a core at an instruction with nothing in its way and with an aligned address: an ST to SRAM or Spur memory takes one
entry at the end of the store buffer, the oldest draining first when 16 are held, and changes no register. STX of 4 or 8 bytes to
Spur memory drains the buffer, and then, if the core holds the reservation of the line, stores the low bytes of its register and
sets Z, else stores nothing and clears Z; the reservation ends either way. A drain performs the oldest entry: its bytes read as
its data, every byte outside them is unchanged, every other core that holds a reservation on a line of Spur memory stored to loses
it, and nothing changes when the buffer is empty. An ST through an aperture that the stack controller accepts with no snoop stores
its bytes in the pool at once. -/
def Obligations.SpurStores : Prop :=
  ∀ (s : State) (c : Fin 9) (sz : Size) (t a : Fin 32) (off : BitVec 14),
    let k := s.dev.core c
    let x := (k.rdG a + off.signExtend 64).toNat
    let n := sz.bytes
    let e : StoreEnt := ⟨x, n, k.rdG t⟩
    let drained := s.dev.drainAll c
    (s.atInstr c → x % n = 0 →
      (addrClass x = .isram ∨ addrClass x = .dsram ∨ addrClass x = .spurMem →
        (k.sb.length < 16 → Completes (.st c sz t a off) s fun d =>
          d.core c = { k with pc := k.pc + 4, bpSkip := false, sb := k.sb ++ [e] } ∧ s.dev.onlyCore c d) ∧
        (16 ≤ k.sb.length → Completes (.st c sz t a off) s fun d =>
          d.core c = { k with pc := k.pc + 4, bpSkip := false, sb := k.sb.tail ++ [e] } ∧ d.mem = (s.dev.drainOne c).mem)) ∧
      (addrClass x = .spurMem → 4 ≤ n → Completes (.stx c sz t a off) s fun d =>
        let held := decide (k.rsv = some (x / 64))
        d.core c = { k with pc := k.pc + 4, bpSkip := false, sb := [], rsv := none, flags := { k.flags with z := held } } ∧
        (held = true → d.load (flatOf c x) n = (k.rdG t).toNat % 2 ^ (8 * n)) ∧
        ∀ b, (held = true → b < flatOf c x ∨ flatOf c x + n ≤ b) → d.byte b = drained.byte b) ∧
      (addrClass x = .tarn → s.dev.on SPUR.TARN_APT.VALID (aptIdx c x) = true → s.dev.on SPUR.TARN_APT.WRITE (aptIdx c x) = true →
        k.sb = [] →
        let q := s.dev.aptAcc c x n .write
        let pool := (s.dev.desc q.desc).poolOf q.addr
        s.dev.poolCheck q = none → (s.dev.deviceReady .write q.desc (linesOf pool n)).1 = true →
        Completes (.st c sz t a off) s fun d =>
          d.core c = { k with pc := k.pc + 4, bpSkip := false } ∧ d.load (tarnBase + pool) n = (k.rdG t).toNat % 2 ^ (8 * n) ∧
          ∀ b, b < tarnBase + pool ∨ tarnBase + pool + n ≤ b → d.byte b = s.dev.byte b)) ∧
    (s.dev.coreUp = true →
      (k.sb = [] → NoEffect (.storeBufferDrain c) s) ∧
      ∀ y ys, k.sb = y :: ys → Completes (.storeBufferDrain c) s fun d =>
        let f := flatOf c y.addr
        d.load f y.size = y.data.toNat % 2 ^ (8 * y.size) ∧ (∀ b, b < f ∨ f + y.size ≤ b → d.byte b = s.dev.byte b) ∧
        d.core c = { k with sb := ys } ∧
        ∀ c', c' < 9 → c' ≠ c.val → d.core c' = { s.dev.core c' with
          rsv := if addrClass y.addr = .spurMem ∧ (s.dev.core c').rsv = some (y.addr / 64) then none else (s.dev.core c').rsv })

/-- LDIO and STIO: what they raise, and how they issue (R50, R52, R54, R62, R64, R175, R185). On a core at an instruction with nothing
in its way: an LDIO or STIO to a misaligned address takes the alignment exception, one narrower than 4 bytes, or of 8 bytes to the
management space, a device-access error with DETAIL 0, one to a memory or unmapped address with DETAIL 1, an LDIO to a port that
is down or frozen with DETAIL 2. Otherwise the store buffer drains; an LDIO stalls the core for its response and, toward a port,
sends the request of R175; an STIO to an assigned register or, with at most 3 of the core's outstanding toward it, to a live port
is posted and the pc moves on; toward a dead port it is discarded and counted in DEVFAULT. -/
def Obligations.SpurDeviceAccessesIssue : Prop :=
  ∀ (s : State) (c : Fin 9) (sz : Size) (t a : Fin 32) (off : BitVec 14), s.atInstr c →
    let k := s.dev.core c
    let x := (k.rdG a + off.signExtend 64).toNat
    let n := sz.bytes
    let p := x / 2 ^ 33 % 2 ^ 7
    let traps (i : Instr) (code detail : Nat) := Completes i s fun d => s.dev.tookSync d c code detail k.pc (BitVec.ofNat 64 x)
    let both (code detail : Nat) := traps (.ldio c sz t a off) code detail ∧ traps (.stio c sz t a off) code detail
    let dev := addrClass x = .mgmt ∨ addrClass x = .port
    let w : OutStio := ⟨if addrClass x = .port then some p else none, x, n, BitVec.ofNat 64 ((k.rdG t).toNat % 2 ^ (8 * n))⟩
    (k.handler = false →
      (x % n ≠ 0 → both 3 1) ∧ (x % n = 0 → n < 4 → both 4 0) ∧ (x % n = 0 → 4 ≤ n → ¬ dev → both 4 1) ∧
      (x % n = 0 → n = 8 → addrClass x = .mgmt → both 4 0) ∧
      (x % n = 0 → 4 ≤ n → addrClass x = .port → s.dev.portDead p = true → traps (.ldio c sz t a off) 4 2)) ∧
    (x % n = 0 → k.sb = [] →
      (addrClass x = .mgmt → n = 4 →
        (Completes (.ldio c sz t a off) s fun d =>
          d.core c = { k with ldio := some ⟨x, n, t, k.pc⟩, wait := .ldio, bpSkip := false } ∧ s.dev.onlyCore c d) ∧
        (s.dev.place (.core c) (x - 0x10000000) ≠ .reserved → Completes (.stio c sz t a off) s fun d =>
          d.core c = { k with pc := k.pc + 4, bpSkip := false, stios := k.stios ++ [w] } ∧ s.dev.onlyCore c d)) ∧
      (addrClass x = .port → 4 ≤ n →
        (s.dev.portDead p = false → k.stios = [] → s.dev.spur.orphans = [] → Completes (.ldio c sz t a off) s fun d =>
          d.core c = { k with ldio := some ⟨x, n, t, k.pc⟩, wait := .ldio, bpSkip := false } ∧
          d.out = s.dev.portRequest c x n false 0 :: s.dev.out ∧ d.mem = s.dev.mem) ∧
        (s.dev.portDead p = false → (k.stios.filter fun y => y.port == some p).length < 4 →
          Completes (.stio c sz t a off) s fun d =>
            d.core c = { k with pc := k.pc + 4, bpSkip := false, stios := k.stios ++ [w] } ∧ s.dev.onlyCore c d) ∧
        (s.dev.portDead p = true → Completes (.stio c sz t a off) s fun d =>
          d.core c = { k with pc := k.pc + 4, bpSkip := false, dfDiscard := true, dfCount := min 65535 (k.dfCount + 1),
                              dfLast := BitVec.ofNat 32 x } ∧ s.dev.onlyCore c d)))

/-- How an LDIO and an STIO end: response, timeout, acceptance, discard (R52, R53, R54, R175, R185). While the core domain is up and
no STIO is outstanding: the response of an LDIO from port space writes its register with the data cut to the access and the pc
moves on, or, with status UR or CA and outside a handler, ends in a device-access error with DETAIL 2; with no LDIO waiting and a
late one owed, DEVFAULT.LATE is set and nothing else. At its timeout an LDIO ends in a device-access error with DETAIL 3 and a
response is owed as late. The oldest STIO of a core toward a port is taken into the egress staging of a live port, or discarded
and counted at a dead one, and leaves the core's list; with none outstanding the row has no effect. -/
def Obligations.SpurDeviceAccessesEnd : Prop :=
  ∀ (s : State) (c : Fin 9) (v : W64) (p : Fin 128), s.dev.coreUp = true →
    let k := s.dev.core c
    (∀ l, k.ldio = some l → s.dev.spur.orphans = [] → k.stios = [] → addrClass l.addr = .port →
      (Completes (.ldioResponse c true v) s fun d =>
        (∀ m, (d.core c).rdG m = if m = l.rd ∧ m ≠ 0 then BitVec.ofNat 64 (v.toNat % 2 ^ (8 * l.size)) else k.rdG m) ∧
        { d.core c with g := k.g } = { k with pc := k.pc + 4, ldio := none, wait := .none } ∧ d.mem = s.dev.mem ∧ d.regs = s.dev.regs) ∧
      (k.handler = false → Completes (.ldioResponse c false v) s fun d =>
        d.core c = ({ k with ldio := none, sb := [] } : SpurCore).enter 4 2 0 l.pc (BitVec.ofNat 64 l.addr))) ∧
    (k.ldio = none → 0 < k.lateLdio → ∀ ok, Completes (.ldioResponse c ok v) s fun d =>
      d.core c = { k with lateLdio := k.lateLdio - 1, dfLate := true } ∧ d.mem = s.dev.mem ∧ d.regs = s.dev.regs) ∧
    (∀ l, k.ldio = some l → k.handler = false → Completes (.ldioTimeout c) s fun d =>
      d.core c = ({ k with ldio := none, sb := [], lateLdio := k.lateLdio + 1 } : SpurCore).enter 4 3 0 l.pc (BitVec.ofNat 64 l.addr)) ∧
    (k.ldio = none → NoEffect (.ldioTimeout c) s) ∧
    (s.dev.spur.orphans = [] → k.onBarrier = false →
      (∀ w ws, k.stios = w :: ws → w.port = some p.val →
        (s.dev.portDead p = false → Completes (.stioAccepted c (some p)) s fun d =>
          d.core c = { k with stios := ws } ∧ d.spur.staged = s.dev.spur.staged ++ [(c.val, w)] ∧ d.mem = s.dev.mem ∧ d.regs = s.dev.regs) ∧
        (s.dev.portDead p = true → Completes (.stioAccepted c (some p)) s fun d =>
          d.core c = { k with stios := ws, dfDiscard := true, dfCount := min 65535 (k.dfCount + 1), dfLast := BitVec.ofNat 32 w.addr } ∧
          d.spur.staged = s.dev.spur.staged ∧ d.mem = s.dev.mem)) ∧
      (k.stios = [] → ∀ q, NoEffect (.stioAccepted c q) s))

/-- BAR.ST, IFLUSH, BAR.DEV, BAR.FULL and the late end of a barrier (R55, R56, R183). On a core at an instruction with nothing in its
way, BAR.ST and IFLUSH drain the store buffer and go on; BAR.DEV and BAR.FULL drain it and go on when no STIO is outstanding, else
wait with the pc in place. Memory then is what the drain leaves; no register changes. The 2 µs limit of a waiting barrier ends it
with the pc moved on and DEVFAULT.BAR_LATE set; without a waiting barrier it has no effect. -/
def Obligations.SpurBarriers : Prop :=
  ∀ (s : State) (c : Fin 9),
    let k := s.dev.core c
    let gone := { k with pc := k.pc + 4, bpSkip := false, sb := [] }
    (s.atInstr c →
      (∀ i ∈ [Instr.barSt c, .iflush c], Completes i s fun d => d.core c = gone ∧ d.mem = (s.dev.drainAll c).mem) ∧
      (k.stios = [] → ∀ i ∈ [Instr.barDev c, .barFull c], Completes i s fun d => d.core c = gone ∧ d.mem = (s.dev.drainAll c).mem) ∧
      (k.stios ≠ [] →
        (Completes (.barDev c) s fun d =>
          d.core c = { k with bpSkip := false, sb := [], wait := .barDev } ∧ d.mem = (s.dev.drainAll c).mem) ∧
        Completes (.barFull c) s fun d =>
          d.core c = { k with bpSkip := false, sb := [], wait := .barFull } ∧ d.mem = (s.dev.drainAll c).mem)) ∧
    (k.wait = .barDev ∨ k.wait = .barFull → Completes (.barLate c) s fun d =>
      d.core c = { k with pc := k.pc + 4, wait := .none, dfBarLate := true } ∧ (∀ c', c' ≠ c.val → d.core c' = s.dev.core c') ∧
      { d with spur := { d.spur with cores := s.dev.spur.cores } } = s.dev) ∧
    (k.wait ≠ .barDev → k.wait ≠ .barFull → NoEffect (.barLate c) s)

/-- DLSET, DLWAIT, its end, a deadline that is reached, and the end of a reservation (R51, R55, R57, R188). On a core at an
instruction with nothing in its way: DLSET with n above 7 is illegal; with a zero register it disarms deadline n, with a time not
yet reached it arms it, with a time already reached the miss is pending at once. DLWAIT ends at once with Z = 1 when its time has
come, with Z = 0 when an enabled event is set, and waits otherwise. A waiting DLWAIT ends the same way with the pc at the next
instruction. When the time base reaches an armed deadline, it disarms; a core inside a handler keeps the miss pending, and one in
DLWAIT outside a handler ends it with Z = 0 and takes exception 5 for the lowest pending deadline with HPC after the DLWAIT;
before its time the row has no effect. A reservation that expires is gone and nothing else changes. -/
def Obligations.SpurDeadlines : Prop :=
  ∀ (s : State) (c : Fin 9) (g : Fin 32) (k : BitVec 14) (n : Fin 8),
    let q := s.dev.core c
    let v := q.rdG g
    let x := q.deadline n
    let ends (z : Bool) := { q with pc := q.pc + 4, wait := .none, flags := { q.flags with z := z }, bpSkip := false }
    (s.atInstr c →
      (7 < k.toNat → q.handler = false → Completes (.dlset c g k) s fun d =>
        s.dev.tookSync d c 1 0 q.pc (BitVec.ofNat 64 (0xE0800000 + g.val * 2 ^ 15 + k.toNat))) ∧
      (Completes (.dlset c g (BitVec.ofNat 14 n.val)) s fun d =>
        (∀ m, (d.core c).deadline m = if m ≠ n.val then q.deadline m
          else if v = 0 then { x with armed := false }
          else if v.toNat ≤ s.dev.timeBase then { armed := false, pending := true, value := v }
          else { x with armed := true, value := v }) ∧
        { d.core c with dl := q.dl } = { q with pc := q.pc + 4, bpSkip := false } ∧ s.dev.onlyCore c d) ∧
      (v.toNat ≤ s.dev.timeBase → Completes (.dlwait c g) s fun d => d.core c = ends true ∧ s.dev.onlyCore c d) ∧
      (s.dev.timeBase < v.toNat → q.event &&& q.evmask ≠ 0 →
        Completes (.dlwait c g) s fun d => d.core c = ends false ∧ s.dev.onlyCore c d) ∧
      (s.dev.timeBase < v.toNat → q.event &&& q.evmask = 0 → Completes (.dlwait c g) s fun d =>
        d.core c = { q with wait := .dlwait v.toNat, bpSkip := false } ∧ s.dev.onlyCore c d)) ∧
    (∀ t, q.wait = .dlwait t →
      (t ≤ s.dev.timeBase → Completes (.dlwaitWake c) s fun d => d.core c = { ends true with bpSkip := q.bpSkip }) ∧
      (s.dev.timeBase < t → q.event &&& q.evmask ≠ 0 → Completes (.dlwaitWake c) s fun d =>
        d.core c = { ends false with bpSkip := q.bpSkip }) ∧
      (s.dev.timeBase < t → q.event &&& q.evmask = 0 → q.missOf = none → NoEffect (.dlwaitWake c) s)) ∧
    (x.armed = true → x.value.toNat ≤ s.dev.timeBase →
      (q.handler = true → q.wait = .none → q.loads = [] → Completes (.deadlineMiss c n) s fun d =>
        (∀ m, (d.core c).deadline m = if m = n.val then { x with armed := false, pending := true } else q.deadline m) ∧
        { d.core c with dl := q.dl } = q ∧ d.mem = s.dev.mem ∧ d.regs = s.dev.regs) ∧
      (∀ t, q.wait = .dlwait t → q.handler = false → q.outgoing = false → (∀ m, m < n.val → (q.deadline m).pending = false) →
        Completes (.deadlineMiss c n) s fun d =>
          (d.core c).deadline n = { x with armed := false, pending := false } ∧ (d.core c).hpc = q.pc + 4 ∧
          (d.core c).hcause = BitVec.ofNat 64 (5 + 256 * n.val) ∧ (d.core c).haddr = x.value ∧ (d.core c).handler = true ∧
          (d.core c).sflags = { q.flags with z := false } ∧ (d.core c).pc = q.hvec + 0x140 ∧ (d.core c).wait = .none)) ∧
    (x.armed = false ∨ s.dev.timeBase < x.value.toNat → NoEffect (.deadlineMiss c n) s) ∧
    Completes (.reservationExpiry c) s fun d =>
      d.core c = { q with rsv := none } ∧ (∀ c', c' ≠ c.val → d.core c' = s.dev.core c') ∧
      { d with spur := { d.spur with cores := s.dev.spur.cores } } = s.dev

/-- CSRR, CSRW, CSRS and CSRC for every CSR a Spur core has (R3, R5, R58, R59, R60, R61, R186). On a core at an instruction with
nothing in its way: CSRR of each assigned number writes the register with the value of R59 to R61 and changes nothing else of the
core but the pc. CSRW, CSRS and CSRC of a writable CSR give it the written value, the old value OR it, or the old value AND NOT
it, reserved bits staying zero; in DEVFAULT a 1 clears its field whichever of the three writes it (the model's choice, log entry
9). A CSRR of an unassigned number, or a write of a read-only or unassigned one, is illegal with DETAIL 2 outside a handler and
changes no CSR but the entry's. -/
def Obligations.SpurCsrAccess : Prop :=
  ∀ (s : State) (c : Fin 9) (g : Fin 32) (n : BitVec 14), s.atInstr c →
    let q := s.dev.core c
    let v := q.rdG g
    let p (k : SpurCore) := { k with pc := q.pc + 4, bpSkip := false }
    let sets (csr : BitVec 14) (old : W64) (mk : W64 → SpurCore) :=
      (Completes (.csrw c g csr) s fun d => d.core c = p (mk v) ∧ s.dev.onlyCore c d) ∧
      (Completes (.csrs c g csr) s fun d => d.core c = p (mk (old ||| v)) ∧ s.dev.onlyCore c d) ∧
      (Completes (.csrc c g csr) s fun d => d.core c = p (mk (old &&& ~~~v)) ∧ s.dev.onlyCore c d)
    let reads (csr : BitVec 14) (w : W64) := Completes (.csrr c g csr) s fun d => q.wrote (d.core c) g w ∧ s.dev.onlyCore c d
    (reads 0x001 q.hcause ∧ reads 0x002 q.hpc ∧ reads 0x003 q.haddr ∧ reads 0x004 q.hvec ∧ reads 0x005 q.hsave ∧
      reads 0x006 (BitVec.ofNat 64 (Flags.toNat q.flags)) ∧ reads 0x000 (BitVec.ofNat 64 (q.handler.toNat + q.sflags.toNat * 2 ^ 8)) ∧
      reads 0x010 (BitVec.ofNat 64 s.dev.timeBase) ∧ reads 0x011 (BitVec.ofNat 64 (c.val + q.role % 16 * 16)) ∧
      reads 0x013 q.event ∧ reads 0x014 q.evmask ∧ reads 0x015 (BitVec.ofNat 64 q.devfault) ∧ reads 0x012 (BitVec.ofNat 64 q.dlStatus) ∧
      reads 0x016 (BitVec.ofNat 64 (s.dev.mbxStatus q.role)) ∧ (∀ i : Fin 4, reads (0x020 + BitVec.ofNat 14 i.val) (SMap.get 0 q.bpaddr i)) ∧
      reads 0x024 (q.bpctl.zeroExtend 64)) ∧
    (sets 0x000 (BitVec.ofNat 64 (q.handler.toNat + q.sflags.toNat * 2 ^ 8))
        (fun w => { q with handler := w.getLsbD 0, sflags := Flags.ofNat (w.toNat / 2 ^ 8 % 2 ^ 6) }) ∧
      sets 0x002 q.hpc (fun w => { q with hpc := w }) ∧ sets 0x004 q.hvec (fun w => { q with hvec := w &&& ~~~0x1FF#64 }) ∧
      sets 0x005 q.hsave (fun w => { q with hsave := w }) ∧
      sets 0x006 (BitVec.ofNat 64 (Flags.toNat q.flags)) (fun w => { q with flags := Flags.ofNat w.toNat }) ∧
      sets 0x013 q.event (fun w => { q with event := w &&& 0x7FF#64 }) ∧ sets 0x014 q.evmask (fun w => { q with evmask := w }) ∧
      (∀ i : Fin 4, sets (0x020 + BitVec.ofNat 14 i.val) (SMap.get 0 q.bpaddr i) (fun w => { q with bpaddr := SMap.put 0 q.bpaddr i w })) ∧
      sets 0x024 (q.bpctl.zeroExtend 64) (fun w => { q with bpctl := w.truncate 4 })) ∧
    (∀ i ∈ [Instr.csrw c g 0x015, .csrs c g 0x015, .csrc c g 0x015], Completes i s fun d =>
      d.core c = p { q with dfDiscard := q.dfDiscard && !v.getLsbD 0, dfLate := q.dfLate && !v.getLsbD 1,
                            dfBarLate := q.dfBarLate && !v.getLsbD 2, dfCount := if v.toNat / 2 ^ 16 % 2 ^ 16 = 0 then q.dfCount else 0 } ∧
      s.dev.onlyCore c d) ∧
    (q.handler = false →
      let assigned := n.toNat ≤ 6 ∨ (0x10 ≤ n.toNat ∧ n.toNat ≤ 0x16) ∨ (0x20 ≤ n.toNat ∧ n.toNat ≤ 0x24)
      (¬ assigned → Completes (.csrr c g n) s fun d => s.dev.tookSync d c 1 2 q.pc (BitVec.ofNat 64 (0xE1000000 + g.val * 2 ^ 15 + n.toNat))) ∧
      (¬ assigned ∨ n ∈ [1#14, 3, 0x10, 0x11, 0x12, 0x16] →
        (Completes (.csrw c g n) s fun d => s.dev.tookSync d c 1 2 q.pc (BitVec.ofNat 64 (0xE1100000 + g.val * 2 ^ 15 + n.toNat))) ∧
        (Completes (.csrs c g n) s fun d => s.dev.tookSync d c 1 2 q.pc (BitVec.ofNat 64 (0xE1200000 + g.val * 2 ^ 15 + n.toNat))) ∧
        Completes (.csrc c g n) s fun d => s.dev.tookSync d c 1 2 q.pc (BitVec.ofNat 64 (0xE1300000 + g.val * 2 ^ 15 + n.toNat))))

/-- MBX posts a command, DOORBELL rings, KICK restarts the watchdog, and what its expiry does (R55, R186, R187, R191, R381, R384). On
a core at an instruction with nothing in its way: MBX with m above 3 is illegal; a post to a free mailbox of the core's role fills
it with the register's value and sets Z, queueing it last in the state queue or the flash queue if its opcode belongs there; a
post to a full one, or by a core without a role (the model's choice, log entry 10), clears Z and changes no mailbox. While the
core domain is up a doorbell write sets bit 4 of the core's EVENT and a KICK restarts its watchdog count at the present time base,
and nothing else changes. A watchdog whose period has passed fails its live core; one that is off or has not expired changes
nothing. -/
def Obligations.MailboxPostDoorbellKick : Prop :=
  ∀ (s : State) (c : Fin 9) (g : Fin 32) (k : BitVec 14) (m : Fin 4) (w : Master),
    let q := s.dev.core c
    let v := q.rdG g
    let b := q.role * 4 + m.val
    let z (x : Bool) := { q with pc := q.pc + 4, bpSkip := false, flags := { q.flags with z := x } }
    let box (d : Dev) (j : Nat) : Mbx := SMap.get {} d.summit.mbx j
    (s.atInstr c →
      (3 < k.toNat → q.handler = false → Completes (.mbx c g k) s fun d =>
        s.dev.tookSync d c 1 0 q.pc (BitVec.ofNat 64 (0xE0A00000 + g.val * 2 ^ 15 + k.toNat))) ∧
      (q.role < 8 → (box s.dev b).full = false → Completes (.mbx c g (BitVec.ofNat 14 m.val)) s fun d =>
        d.core c = z true ∧ box d b = { full := true, word := v, reply := none } ∧ (∀ j, j ≠ b → box d j = box s.dev j) ∧
        d.summit.stateQ = s.dev.summit.stateQ ++ (if v.toNat % 256 ∈ [1, 2, 3, 4, 5, 8] then [⟨b, v, true⟩] else []) ∧
        d.summit.flashQ = s.dev.summit.flashQ ++ (if v.toNat % 256 ∈ [0x0A, 0x0B, 0x0C] then [⟨b, v, true⟩] else []) ∧
        d.mem = s.dev.mem) ∧
      (8 ≤ q.role ∨ (box s.dev b).full = true → Completes (.mbx c g (BitVec.ofNat 14 m.val)) s fun d =>
        d.core c = z false ∧ s.dev.onlyCore c d)) ∧
    (s.dev.coreUp = true →
      (Completes (.doorbell w c) s fun d => d.core c = { q with event := q.event ||| 0x10 } ∧
        (∀ c', c' ≠ c.val → d.core c' = s.dev.core c') ∧ { d with spur := { d.spur with cores := s.dev.spur.cores } } = s.dev) ∧
      (Completes (.kick w c) s fun d => d.core c = { q with kicked := s.dev.timeBase } ∧
        (∀ c', c' ≠ c.val → d.core c' = s.dev.core c') ∧ { d with spur := { d.spur with cores := s.dev.spur.cores } } = s.dev)) ∧
    (let per := s.dev.rd SPUR.WDOG.PERIOD c
     (s.dev.coreUp = true → q.mode = .running ∨ q.mode = .halted → per ≠ 0 → q.kicked + per * 1024 ≤ s.dev.timeBase →
       Completes (.watchdogExpiry c) s fun d => (d.core c).mode = .failed ∧ (d.rd SPUR.HANDOVER.FAILED).testBit c = true ∧
         (d.core c).sb = [] ∧ (d.core c).loads = [] ∧ d.rd SPUR.HANDOVER_PC_LO.PC = q.pc.toNat % 2 ^ 32) ∧
     (per = 0 ∨ s.dev.timeBase < q.kicked + per * 1024 → NoEffect (.watchdogExpiry c) s))

/-- A handover: request, refusal, yield, its end, and its timeout (R65, R192, R193, R195). While the core domain is up: a REQUEST that
names a core without a role, the spare, a failed core or no core, or comes while no spare is left or a role is moving, sets
HANDOVER.STATE to 3 and starts nothing; another starts a planned handover with STATE 1 and the named core to take exception 7. The
YIELD of that core, once it has taken the exception and with nothing outstanding on it and the spare, holds it and sets STATE 2; a
YIELD of any other master changes nothing. When the role has moved, the spare runs with the role and has entered exception 7 with
DETAIL 0 and HADDR naming the core it came from, which has none; STATE is 0. A missing YIELD fails the core. -/
def Obligations.HandoverOfRole : Prop :=
  ∀ (s : State) (m : Master) (x : BitVec 4), s.dev.coreUp = true →
    let d := s.dev
    let f := x.toNat
    let bad := d.spare = 15 ∨ f = d.spare ∨ 8 < f ∨ (d.core f).role = 15 ∨ (d.rd SPUR.HANDOVER.FAILED).testBit f = true ∨ d.spur.moving ≠ none ∨
      ((∃ c, m = .core c) ∧ d.summit.fw ≠ none)
    (bad → Completes (.request m x) s fun e => e.rd SPUR.HANDOVER.STATE = 3 ∧ e.rd SPUR.HANDOVER.FROM = f ∧ e.spur = d.spur ∧ e.mem = d.mem) ∧
    (¬ bad → Completes (.request m x) s fun e =>
      e.rd SPUR.HANDOVER.STATE = 1 ∧ e.rd SPUR.HANDOVER.FROM = f ∧ e.core f = { d.core f with outgoing := true } ∧
      (∀ c', c' ≠ f → e.core c' = d.core c') ∧ e.spur.moving = some (f, false) ∧ e.mem = d.mem) ∧
    (∀ c : Fin 9, d.spur.moving = some (c.val, false) → d.spur.step = 1 → (d.core c).outgoing = false → d.spare ≠ c.val →
      (d.core c).loads = [] → (d.core c).sb = [] → (d.core d.spare).loads = [] → (d.core d.spare).sb = [] →
      Completes (.yield (.core c)) s fun e =>
        e.core c = { d.core c with mode := .held } ∧ e.rd SPUR.HANDOVER.STATE = 2 ∧ e.spur.step = 2 ∧ e.mem = d.mem ∧
        ∀ c', c' ≠ c.val → e.core c' = d.core c') ∧
    ((∀ c : Fin 9, m = .core c → d.spur.moving ≠ some (c.val, false)) → NoEffect (.yield m) s) ∧
    (∀ g fl, d.spur.moving = some (g, fl) → d.spur.step = 2 → d.spare < 9 → g < 9 → g ≠ d.spare → d.summit.fw = none →
      (d.core d.spare).sb = [] → Completes .handoverDone s fun e =>
        (e.core d.spare).role = (d.core g).role ∧ (e.core d.spare).mode = .running ∧ (e.core d.spare).handler = true ∧
        (e.core d.spare).hcause = 7 ∧ (e.core d.spare).haddr = BitVec.ofNat 64 g ∧ (e.core d.spare).hpc = (d.core d.spare).pc ∧
        (e.core d.spare).evmask = (d.core g).evmask ∧ (e.core d.spare).dl = (d.core g).dl ∧
        (e.core g).role = 15 ∧ (fl = false → (e.core g).mode = .held) ∧ e.rd SPUR.HANDOVER.STATE = 0 ∧ e.spur.moving = none ∧
        (d.spur.noCopy = true → e.mem = d.mem) ∧
        (d.spur.noCopy = false → s.sound →
          (∀ a, a < 0x40000 → e.byte (coreBase d.spare + a) = d.byte (coreBase g + a)) ∧
          ∀ b, b < coreBase d.spare ∨ coreBase d.spare + 0x40000 ≤ b → e.byte b = d.byte b)) ∧
    (d.spur.moving = none ∨ d.spur.step ≠ 2 → NoEffect .handoverDone s) ∧
    (∀ g, d.spur.moving = some (g, false) → d.spur.step = 1 → g < 9 → (d.core g).outgoing = false → Completes .yieldTimeout s fun e =>
      (e.core g).mode = .failed ∧ (e.rd SPUR.HANDOVER.FAILED).testBit g = true) ∧
    (d.spur.moving = none → NoEffect .yieldTimeout s)

/-- A reset of one Spur core, and the rows that end the power-down grace (R68, R189, R190, R450). While the core domain is up, the
reset of a core that runs, is halted or has drained drops its store buffer, its outstanding loads, its reservation and its
deadlines, gives its CSRs their reset values, clears its registers and flags (the model's choice, log entry 6), and puts its pc at
0; its role and every byte of memory stay, no other core changes; a core held in reset or failed is not touched. The end of the
grace of a power-down, by its time or by a write of READY, ends the grace and, with no store and no load outstanding, stops every
core that runs or is halted, an LDIO still waiting; without a grace running both change nothing. -/
def Obligations.SpurCoreResetAndPowerDownGrace : Prop :=
  ∀ (s : State) (c : Fin 9) (m : Master),
    let k := s.dev.core c
    (s.dev.coreUp = true → k.mode = .running ∨ k.mode = .halted ∨ k.mode = .drained → Completes (.spurCoreReset c) s fun d =>
      (d.core c).pc = 0 ∧ (d.core c).flags = {} ∧ (∀ n, (d.core c).rdG n = 0) ∧ (d.core c).loads = [] ∧ (d.core c).sb = [] ∧
      (d.core c).rsv = none ∧ (d.core c).dl = [] ∧ (d.core c).hvec = 0 ∧ (d.core c).handler = false ∧ (d.core c).bpctl = 0 ∧
      (d.core c).event = 0 ∧ (d.core c).wait = .none ∧ (d.core c).mode = .running ∧ (d.core c).role = k.role ∧ d.mem = s.dev.mem ∧
      ∀ c', c' ≠ c.val → d.core c' = s.dev.core c') ∧
    (s.dev.coreUp = false ∨ k.mode = .held ∨ k.mode = .failed → NoEffect (.spurCoreReset c) s) ∧
    (s.dev.spur.grace = true → s.dev.coreUp = true → (∀ i, i < 9 → (s.dev.core i).loads = [] ∧ (s.dev.core i).sb = []) →
      ∀ i ∈ [Instr.graceExpiry, .pwrdnReady m], Completes i s fun d =>
        d.spur.grace = false ∧ d.mem = s.dev.mem ∧ d.regs = s.dev.regs ∧
        ∀ j, j < 9 → d.core j =
          if (s.dev.core j).mode = .running ∨ (s.dev.core j).mode = .halted then
            { s.dev.core j with mode := .drained, wait := if (s.dev.core j).ldio.isSome then .ldio else .none }
          else s.dev.core j) ∧
    (s.dev.spur.grace = false → NoEffect .graceExpiry s ∧ NoEffect (.pwrdnReady m) s)

/-- What a register, immediate, compare or branch instruction does in a Notch run (R27, R28, R33, R35, R36, R39, R46, R80). For a run
that has not taken its emit and stands before instruction 24: a register or immediate operation reads its sources as they stand
when the results due have landed, and sends its result to land one stage after its pair, in a g register (a landing in g0 is
discarded) or an o register; INSI into an o register takes the bits not inserted as zero; CMP, TST, CMPI and TSTI send Z, N, C and
V; a branch whose condition holds goes forward by its offset, any other goes on to the next instruction. The run moves on, no
other run and nothing else of the device changes. -/
def Obligations.NotchResultsLandNextStage : Prop :=
  ∀ (s : State) (r : Nat) (n : NRun) (rd : Dst) (a b : Src) (k : BitVec 14) (sh p n1 : Fin 64) (cond : Cond) (off : BitVec 22),
    s.dev.run? r = some n → n.idx < 24 → n.emitted = false →
    let m := n.land
    let x := m.rd a
    let y := m.rd b
    let c := y.toNat % 64
    let at_ : LandTo := match rd with | .g i => .g i.val | .o i => .o i.val
    let goes (i : Instr) (m' : NRun) := Completes i s fun d => d.run? r = some m' ∧ s.dev.onlyRun r d
    let sends (i : Instr) (dst : LandTo) (v : W64) (f : Flags) :=
      goes i { m with idx := n.idx + 1, lands := m.lands ++ [⟨n.idx / 2 + 2, dst, v, f⟩] }
    let e := Engine.notch r
    (∀ q ∈ ([(Instr.add, x + y), (.sub, x - y), (.and, x &&& y), (.or, x ||| y), (.xor, x ^^^ y), (.andn, x &&& ~~~y), (.shl, x <<< c),
        (.shr, x >>> c), (.sar, x.sshiftRight c), (.min, if x.toInt < y.toInt then x else y), (.max, if x.toInt < y.toInt then y else x),
        (.minu, if x.toNat < y.toNat then x else y), (.maxu, if x.toNat < y.toNat then y else x),
        (.hash, BitVec.ofNat 64 (crc32c (natBytes 8 x.toNat ++ natBytes 8 y.toNat)))] : List ((Engine → Dst → Src → Src → Instr) × W64)),
      sends (q.1 e rd a b) at_ q.2 {}) ∧
    (∀ q ∈ ([(Instr.addi, x + k.signExtend 64), (.andi, x &&& k.zeroExtend 64), (.ori, x ||| k.zeroExtend 64),
        (.xori, x ^^^ k.zeroExtend 64), (.cati, x <<< 14 ||| k.zeroExtend 64)] : List ((Engine → Dst → Src → BitVec 14 → Instr) × W64)),
      sends (q.1 e rd a k) at_ q.2 {}) ∧
    (∀ q ∈ ([(Instr.shli, x <<< sh.val), (.shri, x >>> sh.val), (.sari, x.sshiftRight sh.val)] :
      List ((Engine → Dst → Src → Fin 64 → Instr) × W64)), sends (q.1 e rd a sh) at_ q.2 {}) ∧
    (∃ v, (∀ j, j < 64 → v.getLsbD j = (decide (j ≤ n1.val) && x.getLsbD (p + j))) ∧ sends (.exti e rd a p n1) at_ v {}) ∧
    (∃ v, (∀ j, j < 64 → v.getLsbD j = x.getLsbD (min (p + min j n1.val) 63)) ∧ sends (.extsi e rd a p n1) at_ v {}) ∧
    (∃ v, (∀ j, j < 64 → v.getLsbD j = if p.val ≤ j ∧ j ≤ p.val + n1.val then x.getLsbD (j - p)
        else match rd with | .g i => (m.rd (.g i)).getLsbD j | .o _ => false) ∧ sends (.insi e rd a p n1) at_ v {}) ∧
    sends (.cmp e a b) .zncv 0 (Flags.cmp m.flags x y) ∧ sends (.tst e a b) .zncv 0 (Flags.tst m.flags x y) ∧
    sends (.cmpi e a k) .zncv 0 (Flags.cmp m.flags x (k.signExtend 64)) ∧
    sends (.tsti e a k) .zncv 0 (Flags.tst m.flags x (k.zeroExtend 64)) ∧
    (condTaken m.flags cond = true → 0 < off.toInt → n.idx + off.toInt < 24 →
      goes (.bcc e cond off) { m with idx := (n.idx + off.toInt).toNat }) ∧
    (condTaken m.flags cond = false → goes (.bcc e cond off) { m with idx := n.idx + 1 })

/-- LKX and LKW: what a lookup finds, when it lands, and what a bad entry does (R37, R38, R46, R82, R83, R84, R87). For a run that has
not taken its emit: LKX in the exact-match table brings the data of the valid entry of the tile whose key is space, rs2 bits 15 to
0 and rs1, with H = 1, or zero with H = 0; in the tenant table the entry of rs1 modulo 512 with H its valid bit; LKW brings the
data of the valid window of its set that holds the first byte, H = 1 and X = 0 if the whole request lies inside, H = 0 and X = 1
if it does not, and zero with both clear where no window holds it or the length is 0. The results land two stages after the pair.
An entry that is poisoned, or turns out uncorrectable, marks the run; the data it brings is a free value that no rule gives. No
table, queue, core or memory byte changes on a sound lookup. -/
def Obligations.NotchLookupResults : Prop :=
  ∀ (s : State) (r : Nat) (n : NRun) (rd : Fin 32) (a b : Src) (sp : BitVec 8) (ue : Bool),
    s.dev.run? r = some n → n.idx < 24 → n.emitted = false →
    let m := n.land
    let x := m.rd a
    let y := m.rd b
    let t := n.tile
    let brings (i : Instr) (v : W64) (h xb bad : Bool) (past : Option W64) := Completes i s fun d =>
      d.run? r = some { m with idx := n.idx + 1, poisoned := n.poisoned || bad,
                               straddle := match n.straddle with | some w => some w | none => past,
                               lands := m.lands ++ [⟨n.idx / 2 + 3, .g rd, v, {}⟩, ⟨n.idx / 2 + 3, .hx, 0, { h := h, x := xb }⟩] } ∧
      d.mem = s.dev.mem ∧ d.spur = s.dev.spur ∧ d.sad = s.dev.sad ∧
      (bad = false → d.notch.exact = s.dev.notch.exact ∧ d.notch.range = s.dev.notch.range ∧ d.notch.tenant = s.dev.notch.tenant ∧
        d.cairn = s.dev.cairn)
    let key := sp.toNat * 2 ^ 80 + y.toNat % 65536 * 2 ^ 64 + x.toNat
    let either (i : Instr) (poison : Bool) (v : W64) (h xb : Bool) (past : Option W64) : Prop :=
      ((poison || ue) = false → brings i v h xb false past) ∧ ((poison || ue) = true → ∃ w, brings i w h xb true past)
    (s.dev.exactFind t key = none → brings (.lkx r rd a b false sp ue) 0 false false false none) ∧
    (∀ i, s.dev.exactFind t key = some i →
      either (.lkx r rd a b false sp ue) (s.dev.exactEnt t i).poison (s.dev.exactEnt t i).data true false none) ∧
    (let e := s.dev.tenantEnt t (x.toNat % 512)
     either (.lkx r rd a b true sp ue) e.poison e.data e.valid false none) ∧
    (y = 0 ∨ s.dev.rangeFind t sp.toNat x.toNat = none → brings (.lkw r rd a b sp ue) 0 false false false none) ∧
    (∀ i, y ≠ 0 → s.dev.rangeFind t sp.toNat x.toNat = some i →
      let e := s.dev.rangeEnt t i
      let whole := x.toNat + y.toNat ≤ 2 ^ 64 ∧ x.toNat + y.toNat ≤ e.base + e.len
      (whole → either (.lkw r rd a b sp ue) e.poison e.data true false none) ∧
      (¬ whole → either (.lkw r rd a b sp ue) e.poison e.data false true (some (BitVec.ofNat 64 (e.base + e.len)))))

/-- The table commands of a tile: read, write, invalidate, their statuses, and the end (R82, R83, R84, R85, R87). While the core
domain is up and no command runs on the tile, NOTCH_TBL_READ, NOTCH_TBL_WRITE and NOTCH_TBL_INVALIDATE set BUSY and decide the
status: a tenant write puts the staged data into a valid entry (OK); a window write of staged words that are no whole 4 KiB pages
is BAD_FORMAT (4), one that overlaps another valid window of its set is 2, another is OK and stores the window; an exact-match
write whose key is held replaces that entry's data; one of a new key takes a free way, or is FULL (1); reads of an entry that is
not valid are 3 and of a poisoned one 5; a tenant index above 511 or table 3 is 4. Invalidation clears valid and poison. While a
command runs, a second one changes no table and only marks it. The end clears BUSY and shows the status, or 6 after a second GO;
with no command running it has no effect. -/
def Obligations.NotchTableCommands : Prop :=
  ∀ (s : State) (t : Fin 16) (i : Fin 4096), s.dev.coreUp = true →
    let d₀ := s.dev
    let runs (c : Instr) (st : Nat) (P : Dev → Prop) := Completes c s fun d =>
      d.tblCmd t = some ⟨st, false⟩ ∧ d.rd TILE.NOTCH_TBL_CMD.BUSY t = 1 ∧ d.mem = d₀.mem ∧ d.spur = d₀.spur ∧ P d
    let same (d : Dev) : Prop := d.notch.exact = d₀.notch.exact ∧ d.notch.range = d₀.notch.range ∧ d.notch.tenant = d₀.notch.tenant
    let w : RangeEnt := ⟨d₀.tblKey t 0 + 2 ^ 32 * d₀.tblKey t 1, d₀.tblKey t 2 + 2 ^ 32 * d₀.tblKey t 3, d₀.tblKey t 4 % 256, d₀.tblData t, true, false⟩
    let badForm := w.base % 4096 ≠ 0 ∨ w.len % 4096 ≠ 0 ∨ w.len < 4096
    (d₀.tblCmd t = none →
      (∀ c ∈ [Instr.notchTblRead t 3 i, .notchTblWrite t 3 i, .notchTblInvalidate t 3 i], runs c 4 same) ∧
      (511 < i.val → ∀ c ∈ [Instr.notchTblRead t 2 i, .notchTblWrite t 2 i, .notchTblInvalidate t 2 i], runs c 4 same) ∧
      (i.val ≤ 511 →
        runs (.notchTblWrite t 2 i) 0 (fun d => d.tenantEnt t i = ⟨d₀.tblData t, true, false⟩ ∧
          (∀ u j, u < 16 → j < 512 → (u, j) ≠ (t.val, i.val) → d.tenantEnt u j = d₀.tenantEnt u j) ∧
          d.notch.exact = d₀.notch.exact ∧ d.notch.range = d₀.notch.range) ∧
        runs (.notchTblInvalidate t 2 i) 0 (fun d => d.tenantEnt t i = { d₀.tenantEnt t i with valid := false, poison := false } ∧
          d.notch.exact = d₀.notch.exact ∧ d.notch.range = d₀.notch.range) ∧
        ((d₀.tenantEnt t i).poison = true → runs (.notchTblRead t 2 i) 5 same) ∧
        ((d₀.tenantEnt t i).poison = false →
          runs (.notchTblRead t 2 i) (if (d₀.tenantEnt t i).valid then 0 else 3) fun d =>
            d.tblData t = (d₀.tenantEnt t i).data ∧ same d)) ∧
      (badForm → runs (.notchTblWrite t 1 i) 4 same) ∧
      (¬ badForm → d₀.overlaps t i w = true → runs (.notchTblWrite t 1 i) 2 same) ∧
      (¬ badForm → d₀.overlaps t i w = false → runs (.notchTblWrite t 1 i) 0 fun d =>
        d.rangeEnt t i = w ∧ (∀ u j, u < 16 → j < 4096 → (u, j) ≠ (t.val, i.val) → d.rangeEnt u j = d₀.rangeEnt u j)) ∧
      ((d₀.rangeEnt t i).poison = true → runs (.notchTblRead t 1 i) 5 same) ∧
      ((d₀.rangeEnt t i).poison = false → runs (.notchTblRead t 1 i) (if (d₀.rangeEnt t i).valid then 0 else 3) fun d =>
        let e := d₀.rangeEnt t i
        d.tblKey t 0 + 2 ^ 32 * d.tblKey t 1 = e.base % 2 ^ 64 ∧ d.tblKey t 2 + 2 ^ 32 * d.tblKey t 3 = e.len % 2 ^ 64 ∧
        d.tblKey t 4 = e.tag % 2 ^ 32 ∧ d.tblData t = e.data ∧ same d) ∧
      runs (.notchTblInvalidate t 1 i) 0 (fun d => d.rangeEnt t i = { d₀.rangeEnt t i with valid := false, poison := false }) ∧
      (∀ e, d₀.exactFind t (d₀.stagedKey t) = some e →
        runs (.notchTblWrite t 0 i) 0 (fun d => d.exactEnt t e = ⟨d₀.stagedKey t, d₀.tblData t, true, false⟩) ∧
        runs (.notchTblInvalidate t 0 i) 0 (fun d => d.exactEnt t e = .zero) ∧
        ((d₀.exactEnt t e).poison = true → runs (.notchTblRead t 0 i) 5 same) ∧
        ((d₀.exactEnt t e).poison = false → runs (.notchTblRead t 0 i) 0 fun d => d.tblData t = (d₀.exactEnt t e).data ∧ same d)) ∧
      (d₀.exactFind t (d₀.stagedKey t) = none → runs (.notchTblRead t 0 i) 3 same ∧ runs (.notchTblInvalidate t 0 i) 3 same ∧
        (∀ e, d₀.insertSlot t (d₀.stagedKey t) = some e →
          runs (.notchTblWrite t 0 i) 0 fun d => d.exactEnt t e = ⟨d₀.stagedKey t, d₀.tblData t, true, false⟩) ∧
        (d₀.insertSlot t (d₀.stagedKey t) = none → runs (.notchTblWrite t 0 i) 1 same))) ∧
    (∀ c tb, d₀.tblCmd t = some c →
      (∀ x ∈ [Instr.notchTblRead t tb i, .notchTblWrite t tb i, .notchTblInvalidate t tb i],
        Completes x s fun d => d.tblCmd t = some { c with second := true } ∧ same d ∧ d.mem = d₀.mem) ∧
      Completes (.notchTblCmdEnd t) s fun d => d.tblCmd t = none ∧ d.rd TILE.NOTCH_TBL_CMD.BUSY t = 0 ∧
        d.rd TILE.NOTCH_TBL_CMD.STATUS t = (if c.second then 6 else c.status) % 8 ∧ same d ∧ d.mem = d₀.mem) ∧
    (d₀.tblCmd t = none → NoEffect (.notchTblCmdEnd t) s)

/-- Program banks: writes, commit, the check and the switch; the port word (R78, R79, R89, R90, R91, R92, R93, R479). While the core
domain is up: a write of a program or selector word of the shadow bank stores the word and makes the bank UNCHECKED; one of the
active bank stores nothing and is counted. COMMIT makes the shadow bank CHECKING. The end of the check makes it COMMITTED when no
named program breaks a rule of R47, R90 or R93, else REFUSED with the first program, rule and index; without a check running it
has no effect. SWITCH makes a COMMITTED shadow bank active and counts, else it only sets SWITCH_REFUSED. A write of the HI half of
a port word applies both halves. No packet, table, core or memory byte changes. -/
def Obligations.NotchBanksCheckedAndSwitched : Prop :=
  ∀ (s : State) (t : Fin 16) (b : Fin 2) (p : Fin 8) (i : Fin 32) (v : W32) (ue : Bool) (q : Fin 128), s.dev.coreUp = true →
    let d₀ := s.dev
    let act := d₀.rd TILE.NOTCH_BANK.ACTIVE t
    let sh := 1 - act
    let calm (d : Dev) : Prop := d.mem = d₀.mem ∧ d.spur = d₀.spur ∧ d.sad = d₀.sad ∧ d.notch.exact = d₀.notch.exact ∧
      d.notch.range = d₀.notch.range ∧ d.notch.tenant = d₀.notch.tenant ∧ d.notch.runs = d₀.notch.runs
    let goes (c : Instr) (P : Dev → Prop) := Completes c s fun d => P d ∧ calm d
    (b.val ≠ act →
      (i.val < 24 → goes (.programBankWrite t b (some p) i v) fun d =>
        d.progWord t b p i = v.toNat ∧ d.bankState t b = 0 ∧ d.notch.sel = d₀.notch.sel ∧
        ∀ u c x j, c < 2 → x < 8 → j < 32 → (u, c, x, j) ≠ (t.val, b.val, p.val, i.val) → d.progWord u c x j = d₀.progWord u c x j) ∧
      goes (.programBankWrite t b none i v) fun d =>
        d.selWord t b i = v.toNat ∧ d.bankState t b = 0 ∧ d.notch.prog = d₀.notch.prog ∧
        ∀ u c j, c < 2 → j < 32 → (u, c, j) ≠ (t.val, b.val, i.val) → d.selWord u c j = d₀.selWord u c j) ∧
    (b.val = act → i.val < 24 → ∀ x, goes (.programBankWrite t b x i v) fun d =>
      d.notch.prog = d₀.notch.prog ∧ d.notch.sel = d₀.notch.sel ∧ d.notch.bankState = d₀.notch.bankState ∧
      SMap.get 0 d.notch.ignored t = SMap.get 0 d₀.notch.ignored t + 1) ∧
    (goes (.commit t) fun d => d.bankState t sh = 1 ∧ d.bankState t act = d₀.bankState t act ∧
      d.rd TILE.NOTCH_BANK.SHADOW_STATE t = 1 ∧ d.rd TILE.NOTCH_BANK.ACTIVE t = act ∧ d.notch.prog = d₀.notch.prog) ∧
    (d₀.bankState t sh = 1 →
      (d₀.checkBank t sh ue = none → goes (.commitCheckEnd t ue) fun d =>
        d.bankState t sh = 2 ∧ d.rd TILE.NOTCH_BANK.SHADOW_STATE t = 2 ∧ d.rd TILE.NOTCH_BANK.ACTIVE t = act) ∧
      ∀ x rule j, d₀.checkBank t sh ue = some (x, rule, j) → goes (.commitCheckEnd t ue) fun d =>
        d.bankState t sh = 3 ∧ d.rd TILE.NOTCH_BANK.SHADOW_STATE t = 3 ∧ d.rd TILE.NOTCH_BANK.ACTIVE t = act ∧
        d.rd TILE.NOTCH_BANK.ERR_RULE t = rule % 2 ^ TILE.NOTCH_BANK.ERR_RULE.width ∧
        d.rd TILE.NOTCH_BANK.ERR_PROG t = x % 2 ^ TILE.NOTCH_BANK.ERR_PROG.width ∧
        d.rd TILE.NOTCH_BANK.ERR_INDEX t = j % 2 ^ TILE.NOTCH_BANK.ERR_INDEX.width) ∧
    (d₀.bankState t sh ≠ 1 → NoEffect (.commitCheckEnd t ue) s) ∧
    (d₀.bankState t sh = 2 → act < 2 → goes (.switch t) fun d =>
      d.rd TILE.NOTCH_BANK.ACTIVE t = sh ∧
      d.rd TILE.NOTCH_BANK.SWITCH_COUNT t = (d₀.rd TILE.NOTCH_BANK.SWITCH_COUNT t + 1) % 2 ^ TILE.NOTCH_BANK.SWITCH_COUNT.width ∧
      (∀ c, c < 2 → d.bankState t c = d₀.bankState t c) ∧ d.notch.prog = d₀.notch.prog) ∧
    (d₀.bankState t sh ≠ 2 → goes (.switch t) fun d =>
      d.rd TILE.NOTCH_BANK.ACTIVE t = act ∧ d.rd TILE.NOTCH_BANK.SWITCH_REFUSED t = 1 ∧ d.notch.bankState = d₀.notch.bankState) ∧
    goes (.notchWordWrite q v) fun d => SMap.get 0 d.notch.portWord q = d₀.rd PORT.NOTCH_WORD_LO.WORD q + 2 ^ 32 * v.toNat ∧
      (∀ x, x ≠ q.val → SMap.get 0 d.notch.portWord x = SMap.get 0 d₀.notch.portWord x) ∧ d.notch.prog = d₀.notch.prog

/-- What a committed program holds: 24 words of the Notch profile, branches forward and even, at most four lookups, an emit on every
path (R26, R28, R45, R47, R91). For every program of 24 words that the check passes: each word is a Notch instruction with legal
bank values, no word is Spur-only; every branch stands in slot 1 of its pair and goes forward, past its own pair, to an even index
below 24; at most four words are lookups and no pair holds two; no pair holds two emits; and no path that the program can take
runs past its last pair without an emit. -/
def Obligations.BankCheckRules : Prop :=
  ∀ ws : List Nat, ws.length = 24 → checkProgram (ws.map decodeRidge) = none →
    let p := ws.map decodeRidge
    (∀ i, i < 24 → ∃ x, progAt p i = some x ∧ x.spurOnly = false ∧
      (∀ c off, x = .bcc c off → i % 2 = 1 ∧ ridgeTarget i x % 2 = 0 ∧ (2 * (i / 2) + 2 : Int) ≤ ridgeTarget i x ∧ ridgeTarget i x ≤ 23)) ∧
    lookupsBelow p 24 ≤ 4 ∧
    (∀ q, q < 12 → ¬ (((progAt p (2 * q)).any ridgeIsLookup) = true ∧ ((progAt p (2 * q + 1)).any ridgeIsLookup) = true) ∧
      ¬ (((progAt p (2 * q)).any ridgeIsEmit) = true ∧ ((progAt p (2 * q + 1)).any ridgeIsEmit) = true)) ∧
    12 ∉ reached p ∧ 0 ∈ reached p ∧ (∀ q, q < 12 → q ∈ reached p → ∀ z, z ∈ pairNext p q → z ∈ reached p)

/-- FWD, MCG, POOL, TRV and FAB: where an emit sends its packet (R41, R42, R45, R101, R115, R199, R201, R202, R232, R239, R240). For a
run before its emit whose packet meets nothing in its way, with the tenant of o1 not frozen: FWD to another configured, live,
unfrozen port puts the packet with its tenant, class and forwarded frame into landing blocks toward that port; with REMAP it takes
a context and the lowest free tag, or waits for one; FAB to this device does what FWD does; FAB to another device with a route
puts a posted packet toward the route's port with a segment header that names both devices and ports, class, tenant, hops and
flow; MCG of a posted packet of at most 512 bytes, POOL and TRV put it toward the group, the pool port of its line and the
Traverse queue. The run ends with its pair; no other packet, no memory byte and no core changes, and nothing is sent. -/
def Obligations.EmitSendsPacket : Prop :=
  ∀ (s : State) (r : Nat) (n : NRun) (k : Pkt), s.dev.emits r n k →
    let o := n.land.oReg
    let ten := bits (o 1).toNat 16 9
    let cls := (o 1).toNat % 8
    let f := k.frame
    let p := (o 0).toNat % 128
    let a (fn : Nat) : Act := ⟨fn, o 0, o 1, o 2, o 3⟩
    let on (fn : Nat) : Pkt := { k with act := some (a fn), tenant := ten, cls := cls }
    let goes (i : Instr) (P : Dev → Prop) := Completes i s fun d => P d ∧ d.runEnds r n ∧ s.dev.onlyPkt k.id d ∧ d.mem = s.dev.mem ∧
      d.spur = s.dev.spur ∧ d.out = s.dev.out
    let fit (p : Nat) := f.data.length ≤ s.dev.mpsAt p ∨ subOf f = .completion
    let landed (fn : Nat) (x : Dest) (g : Frame) (c : Bool) : Pkt :=
      { on fn with dest := x, fwd := some g, phase := .landed, segHdr := none, held := none, cut := c }
    s.dev.tenFrozen ten = false →
    (∀ i fn q, (i = Instr.fwd r ∧ fn = 0 ∧ q = p ∧ p ≠ k.port) ∨
        (i = Instr.fab r ∧ fn = 4 ∧ q = bits (o 0).toNat 8 7 ∧ (o 0).toNat % 256 = s.dev.rd FABRIC.ID.DEV) → s.dev.takes q → fit q →
      ((f.isTagged = false ∨ ((o 1).getLsbD 4 = false ∧ frameTag f < s.dev.tagSpace q)) →
        ∀ g, s.dev.outFrame k q (a fn) none = some g → goes i fun d =>
          ∃ c, d.pkt? k.id = some (landed fn (.port q) g c) ∧ (c = true → s.dev.on PORT.EGR_CTL.CUT_EN q = true)) ∧
      (f.isTagged = true → (o 1).getLsbD 4 = true →
        (∀ t i', (s.dev.grantFrom ten k.port).isSome = true → s.dev.freeTag q = some t → s.dev.freeCtx = some i' →
          ∀ g, s.dev.outFrame k q (a fn) (some t) = some g → goes i fun d =>
            (∃ c, d.pkt? k.id = some (landed fn (.port q) g c)) ∧
            ∃ e, d.ctx? i' = some e ∧ e.user = .remap ∧ e.egress = q ∧ e.tag = t ∧ e.origTag = frameTag f ∧ e.origRid = frameRid f ∧
              e.port = k.port ∧ e.tenant = ten ∧ e.owed = f.h6.toNat ∧ e.quarantined = false) ∧
        (s.dev.grantFrom ten k.port = none ∨ s.dev.freeTag q = none → goes i fun d =>
          d.pkt? k.id = some { on fn with dest := .port q, phase := .ctxWait } ∧ d.trv = s.dev.trv))) ∧
    (let dev := (o 0).toNat % 256
     let fl := bits (o 3).toNat 16 16
     let dst := dev * 128 + bits (o 0).toNat 8 7
     let flow := if fl ≠ 0 then fl else ((s.dev.rd FABRIC.ID.DEV * 128 + k.port) ^^^ dst ^^^ (cls * 2 ^ 13)) % 65536
     let q := s.dev.routePort dev flow
     dev ≠ s.dev.rd FABRIC.ID.DEV → s.dev.routeTo dev = true → s.dev.takes q → fit q → f.isTagged = false →
     SMap.get 0 s.dev.fab.holds dev = 0 → ∀ g, s.dev.outFrame k q (a 4) none = some g → goes (.fab r) fun d =>
       ∃ c h, d.pkt? k.id = some { landed 4 (.port q) g c with segHdr := some h } ∧
         bits h 0 3 = 1 ∧ bits h 3 1 = 0 ∧ bits h 4 8 = dev ∧ bits h 12 7 = bits (o 0).toNat 8 7 ∧
         bits h 19 8 = s.dev.rd FABRIC.ID.DEV % 256 ∧ bits h 27 7 = k.port % 128 ∧ bits h 34 3 = cls ∧ bits h 37 9 = ten ∧
         bits h 46 5 = max 1 (s.dev.rd FABRIC.ID.HOPS_INIT) % 32 ∧ bits h 51 12 = 0 ∧ bits h 64 16 = flow ∧ bits h 94 1 = 0 ∧
         bits h 95 1 = (s.dev.upstream k.port).toNat) ∧
    ((s.dev.group ((o 0).toNat % 4096)).valid = true → subOf f = .posted → f.data.length ≤ 512 → goes (.mcg r) fun d =>
      d.pkt? k.id = some { on 1 with dest := .group ((o 0).toNat % 4096), fwd := some f, phase := .landed }) ∧
    (let g := if (o 1).getLsbD 3 then { f with h5 := o 2 } else f
     f.data.length ≤ 512 ∨ subOf f = .completion → goes (.pool r) fun d =>
       ∃ c, d.pkt? k.id = some { on 2 with dest := .pool (s.dev.poolPort ((o 0).toNat % 4096) g.h5.toNat), fwd := some g,
                                           phase := .landed, cut := c }) ∧
    ((o 0).toNat % 65536 < 4096 → f.data.length ≤ 512 ∨ subOf f = .completion → goes (.trv r) fun d =>
      d.pkt? k.id = some { on 3 with dest := .traverse ((o 0).toNat % 4096), fwd := some f, phase := .landed })

/-- TRAP, DROPU, DROPA, and the emits that cannot be carried out (R43, R44, R94, R96, R100, R114, R266, R268). For a run before its
emit whose packet meets nothing in its way: TRAP holds the packet, appends a trap with the 14-bit reason, the run's o registers
and the tile's next trap number, and leaves memory and cores alone; an emit whose operand names no configured port, valid group,
queue below 4,096 or route is carried out as a trap with reason 0x3F01 and its own function code. DROPU completes a non-posted
request with UR, DROPA with CA, discards a posted one, takes the packet out of the device, gives its credits back and records type
19 for the tenant; a completion is discarded and counted as unexpected. MCG of a non-posted request completes it with UR. An emit
for a frozen tenant, or FWD toward a frozen or dead port, completes a non-posted request with CA for a host-side requester and UR
for any other. -/
def Obligations.EmitTrapsAndDisposals : Prop :=
  ∀ (s : State) (r : Nat) (n : NRun) (k : Pkt) (imm : BitVec 14), s.dev.emits r n k →
    let o := n.land.oReg
    let ten := bits (o 1).toNat 16 9
    let f := k.frame
    let t := k.port / 8
    let p := (o 0).toNat % 128
    let on (fn : Nat) : Pkt := { k with act := some ⟨fn, o 0, o 1, o 2, o 3⟩, tenant := ten, cls := (o 1).toNat % 8 }
    let num := SMap.get 0 s.dev.notch.trapN t
    let traps (i : Instr) (reason fn act : Nat) := Completes i s fun d =>
      d.pkt? k.id = some { on act with phase := .trapped, dest := .mgmt } ∧
      d.notch.traps = s.dev.notch.traps ++
        [⟨t, num, k.id, reason, fn, n.pipe, s.dev.timeBase, o 0, o 1, o 4, o 5, o 6, o 7, false⟩] ∧
      SMap.get 0 d.notch.trapN t = num + 1 ∧ d.runEnds r n ∧ s.dev.onlyPkt k.id d ∧ d.mem = s.dev.mem ∧ d.spur = s.dev.spur ∧
      d.out = s.dev.out
    let credits := Out.credits k.port (subOf f) (frameBlocks f)
    let answer (st : Nat) := Out.completion k.port (frameRid f) (frameTag f) st false []
    let gone (i : Instr) (P : Dev → Prop) := Completes i s fun d => d.pkt? k.id = none ∧ s.dev.onlyPkt k.id d ∧ d.runEnds r n ∧ P d
    let recorded (type kind index : Nat) (d : Dev) := ∃ l ∈ d.ctn.last, l.rcd.type = type ∧ l.rcd.kind = kind ∧ l.rcd.index = index
    let st := if s.dev.upstream k.port then 4 else 1
    traps (.trap r imm) imm.toNat 0 5 ∧
    (∀ q ∈ ([(.fwd r, 0, s.dev.configured p), (.mcg r, 1, (s.dev.group ((o 0).toNat % 4096)).valid), (.pool r, 2, true),
        (.trv r, 3, decide ((o 0).toNat % 65536 < 4096)),
        (.fab r, 4, if (o 0).toNat % 256 = s.dev.rd FABRIC.ID.DEV then s.dev.configured (bits (o 0).toNat 8 7)
          else s.dev.routeTo ((o 0).toNat % 256))] : List (Instr × Nat × Bool)),
      (q.2.2 = false → traps q.1 0x3F01 q.2.1 q.2.1) ∧
      (q.2.2 = true → s.dev.tenFrozen ten = true →
        (subOf f = .nonPosted → gone q.1 fun d => d.out = credits :: answer st :: s.dev.out) ∧
        (subOf f = .posted → gone q.1 fun d => (f.ftype = 5 ∨ recorded 16 0 k.port d) ∧ ∃ x, d.out = credits :: x) ∧
        (subOf f = .completion → gone q.1 fun d => d.out = credits :: s.dev.out))) ∧
    (s.dev.tenFrozen ten = false → s.dev.configured p = true → p ≠ k.port → s.dev.frozen p = true ∨ s.dev.linkUp p = false →
      subOf f = .nonPosted → gone (.fwd r) fun d => d.out = credits :: answer st :: s.dev.out) ∧
    (∀ q ∈ ([(.dropu r, 1), (.dropa r, 4)] : List (Instr × Nat)),
      (subOf f = .nonPosted → gone q.1 fun d => recorded 19 1 ten d ∧ ∃ x, d.out = credits :: answer q.2 :: x) ∧
      (subOf f = .posted → gone q.1 fun d => recorded 19 1 ten d ∧ ∃ x, d.out = credits :: x) ∧
      (subOf f = .completion → gone q.1 fun d => recorded 15 0 k.port d ∧ d.rd PORT.CTN_COUNT.UNEXP_CPL k.port =
        min (s.dev.rd PORT.CTN_COUNT.UNEXP_CPL k.port + 1) (2 ^ PORT.CTN_COUNT.UNEXP_CPL.width - 1))) ∧
    (s.dev.tenFrozen ten = false → (s.dev.group ((o 0).toNat % 4096)).valid = true → subOf f = .nonPosted →
      gone (.mcg r) fun d => d.out = credits :: answer 1 :: s.dev.out)

/-- A frame arrives; the oldest waiting header of a tile enters a pipeline (R70, R71, R72, R73, R74, R78, R80, R94, R263, R274, R288,
R311). While the core domain is up and the link is up: a good frame that is neither poisoned, too long for the port, of an
insecure stream, nor a Col message for this device or an LTR message becomes the newest packet of the device, waiting in landing
blocks that VOQ_STATUS.USED counts, and nothing else changes; a poisoned one with POISON_TRIG set freezes the port with cause 3
and is marked; an uncorrectable link error or a frame above the Max_Payload_Size freezes it with cause 1; a frame with a bad CRC,
ECRC or IDE check becomes no packet, and a re-keyed stream is secure again; an LTR message is recorded (its code and places are
the standard's, log entry 34). Off a link that is up the row has no effect. NOTCH_PROGRAM_START takes the oldest waiting header of
the tile: with a valid selector entry of the active bank it starts a run of that program at instruction 0 on the next pipeline, h0
to h15 loaded from the header and zero in o; with an invalid entry a request is trapped with reason 0x3F04; with an uncorrectable
bank error the tile freezes with cause 2. No header waiting: no effect. -/
def Obligations.FrameArrivalAndProgramStart : Prop :=
  ∀ (s : State) (p : Fin 128) (f : Frame) (chk : LinkCheck) (st : Fin 256) (t : Fin 16) (ue : Bool),
    let d₀ := s.dev
    let new : Pkt := { id := d₀.sad.nextPkt, port := p, frame := f }
    let used (d : Dev) (t : Nat) := d.rd TILE.VOQ_STATUS.USED t
    let sound (f : Frame) := (f.data.length ≤ d₀.mpsAt p ∨ f.fabric = true) ∧ d₀.colForMe f = false ∧
      (f.ide = false ∨ SMap.get false d₀.host.insecure (p * 256 + bits f.h3.toNat 1 8) = false) ∧ d₀.isLtr p f = false
    (d₀.coreUp = true → d₀.linkUp p = true →
      (sound f → f.ep = false → Completes (.frameArrival p f .good) s fun d =>
        { d with regs := d₀.regs } = { d₀ with sad := { d₀.sad with pkts := d₀.sad.pkts ++ [new], nextPkt := new.id + 1 } } ∧
        used d (p / 8) = (used d₀ (p / 8) + (f.head.length + f.data.length + 63) / 64) % 2 ^ TILE.VOQ_STATUS.USED.width ∧
        d₀.fieldsKept [TILE.VOQ_STATUS.USED.key (p / 8)] d) ∧
      (sound f → f.ep = true → d₀.on PORT.CTN_CTL.POISON_TRIG p = true → (∀ q ∈ d₀.sad.pkts, q.id < new.id) →
        Completes (.frameArrival p f .good) s fun d => d.frozen p = true ∧ d.pkt? new.id = some { new with marked := true } ∧
          (d₀.frozen p = false → d.rd PORT.CTN_STATUS.CAUSE p = 3)) ∧
      (∀ c, c = LinkCheck.uncorrectable ∨ (c = .good ∧ f.fabric = false ∧ d₀.mpsAt p < f.data.length) →
        Completes (.frameArrival p f c) s fun d => d.frozen p = true ∧ d.sad.nextPkt = d₀.sad.nextPkt ∧
          (d₀.frozen p = false → d.rd PORT.CTN_STATUS.CAUSE p = 1)) ∧
      (∀ c ∈ [LinkCheck.badCrc, .ecrc, .ide st], Completes (.frameArrival p f c) s fun d => d.sad = d₀.sad ∧ d.mem = d₀.mem) ∧
      (d₀.isLtr p f = true → f.ide = false → f.ep = false → f.data.length ≤ d₀.mpsAt p → Completes (.frameArrival p f .good) s fun d =>
        SMap.get 0 d.host.ltr p = 1 + fieldAt f.head 15 1 + fieldAt f.head 14 1 * 256 + fieldAt f.head 13 1 * 65536 +
          fieldAt f.head 12 1 * 16777216 ∧ d.sad.nextPkt = d₀.sad.nextPkt + 1 ∧ d.mem = d₀.mem) ∧
      (f.ide = true → sound f ∨ SMap.get false d₀.host.insecure (p * 256 + bits f.h3.toNat 1 8) = true → f.data.length ≤ d₀.mpsAt p →
        d₀.colForMe f = false → Completes (.frameArrival p f .rekeyed) s fun d => d.sad.nextPkt = d₀.sad.nextPkt + 1 ∧
          (f.ep = false → SMap.get false d.host.insecure (p * 256 + bits f.h3.toNat 1 8) = false))) ∧
    (d₀.coreUp = false ∨ d₀.linkUp p = false → NoEffect (.frameArrival p f chk) s) ∧
    (d₀.coreUp = true → d₀.nextHeader t = none → NoEffect (.notchProgramStart t ue) s) ∧
    (d₀.coreUp = true → ∀ k, d₀.nextHeader t = some k →
      let e := d₀.selEntry t (d₀.rd TILE.NOTCH_BANK.ACTIVE t) (k.port % 8 * 32 + k.frame.fabric.toNat * 16 + k.frame.ftype % 16)
      let g := k.frame
      let plain := ¬ (g.ftype = 5 ∧ g.h5.toNat % 256 = 0)
      (plain → 8 ≤ e → Completes (.notchProgramStart t false) s fun d => ∃ n, d.notch.runs = d₀.notch.runs ++ [n] ∧
        n.id = d₀.notch.nextRun ∧ n.pkt = k.id ∧ n.tile = t.val ∧ n.pipe = SMap.get 0 d₀.notch.nextPipe t ∧
        n.bank = d₀.rd TILE.NOTCH_BANK.ACTIVE t ∧ n.prog = e % 8 ∧ n.idx = 0 ∧ n.emitted = false ∧ (∀ i, n.oReg i = 0) ∧
        (let h (i : Nat) := SMap.get 0 n.h i
         bits (h 0).toNat 0 4 = g.ftype % 16 ∧ bits (h 0).toNat 4 7 = k.port % 128 ∧ (h 0).getLsbD 11 = g.flit ∧
         (h 0).getLsbD 12 = g.ep ∧ (h 0).getLsbD 16 = g.fabric ∧ bits (h 0).toNat 32 8 = d₀.rd FABRIC.ID.DEV % 256 ∧
         h 1 = g.h1 ∧ h 2 = g.h2 ∧ h 3 = g.h3 ∧ h 4 = g.h4 ∧ h 5 = g.h5 ∧ h 6 = g.h6 ∧ h 7 = g.h7 ∧
         (∀ i, i < 4 → h (8 + i) = BitVec.ofNat 64 (bytesNat ((g.head.drop (8 * i)).take 8))) ∧
         h 13 = BitVec.ofNat 64 (SMap.get 0 d₀.notch.portWord k.port) ∧
         h 14 = (if g.fabric then g.h14 else 0) ∧ h 15 = (if g.fabric then g.h15 else 0)) ∧
        d.notch.nextRun = d₀.notch.nextRun + 1 ∧ SMap.get 0 d.notch.nextPipe t = 1 - SMap.get 0 d₀.notch.nextPipe t ∧
        (d.pkt? k.id).map (·.phase) = some .running ∧ d₀.onlyPkt k.id d ∧ d.mem = d₀.mem ∧ d.spur = d₀.spur ∧ d.regs = d₀.regs) ∧
      (plain → e < 8 → subOf g ≠ .completion → k.marked = false → d₀.frozen k.port = false → g.locked = false →
        Completes (.notchProgramStart t false) s fun d => (d.pkt? k.id).map (·.phase) = some .trapped ∧
          (∃ x, d.notch.traps = d₀.notch.traps ++ [x] ∧ x.tile = k.port / 8 ∧ x.pkt = k.id ∧ x.reason = 0x3F04 ∧ x.valid = false) ∧
          d.notch.runs = d₀.notch.runs ∧ d.mem = d₀.mem) ∧
      (¬ plain → Completes (.notchProgramStart t false) s fun d => d.pkt? k.id = none ∧ d.notch = d₀.notch) ∧
      Completes (.notchProgramStart t true) s fun d => d.on CTN.TILE_STATUS.FROZEN t = true ∧
        (d₀.on CTN.TILE_STATUS.FROZEN t = false → d.rd CTN.TILE_STATUS.CAUSE t = 2))

/-- A trap's record, its resolve by a core, a refused resolve, its timeout (R41, R43, R95, R96, R97, R98). While the core domain is
up: the record of the oldest trap of a tile without one, its ring entry free, is written as 128 bytes of Spur memory at the ring
base plus 128 times the entry, with reason, port, VALID and SEQ in word 0; the trap is then valid, every core that selects the
tile gets EVENT bit 5, and no other byte changes. A resolve by a core of a valid trap with DROPU answers a non-posted request with
UR and takes packet and trap out; one with TRV queues the packet with the core's staged operand words. A resolve by another
master, of a trap that does not exist or has no record yet, or with action 5, only adds to the refused count. At its timeout a
trap ends: a non-posted request is answered UR, and the packet leaves the device. -/
def Obligations.TrapRecordsResolvesTimeouts : Prop :=
  ∀ (s : State) (t : Fin 16) (n : Nat) (c : Fin 9) (m : Master) (seq : BitVec 16) (act : Fin 8), s.dev.coreUp = true →
    let d₀ := s.dev
    let size := 2 ^ min 8 (max 4 (d₀.rd TILE.NOTCH_TRAP_RING.SIZE t))
    let off := d₀.rd TILE.NOTCH_TRAP_RING.BASE t * 128 + n % size * 128
    let answer (k : Pkt) := Out.completion k.port (frameRid k.frame) (frameTag k.frame) 1 false []
    let back (k : Pkt) : List Out := if k.credited then [] else [.credits k.port (subOf k.frame) (frameBlocks k.frame)]
    let stg (f : Fld) := d₀.rd f (t * 256 + 16 + c)
    let o1 := stg TILE.NOTCH_RSLV_O1.V
    (∀ x k, d₀.trap? t n = some x → d₀.pkt? x.pkt = some k →
      (x.valid = false → (∀ y ∈ d₀.notch.traps, y.tile = t.val → (y.valid = true → y.n % size ≠ n % size) ∧ (y.valid = false → n ≤ y.n)) →
        Completes (.trapRecordWrite t n) s fun d =>
          (∀ j, j < 128 → some (d.byte (spurAt (off + j))) = (x.bytes k)[j]?) ∧
          (∀ b, (∀ j, j < 128 → b ≠ spurAt (off + j)) → d.byte b = d₀.byte b) ∧
          (let w := bytesNat ((x.bytes k).take 8)
           bits w 0 14 = x.reason % 2 ^ 14 ∧ bits w 16 4 = k.frame.ftype % 16 ∧ bits w 20 7 = k.port % 128 ∧ bits w 28 4 = t ∧
           bits w 47 1 = 1 ∧ bits w 48 16 = n % 65536) ∧
          d.trap? t n = some { x with valid := true } ∧ d.sad = d₀.sad ∧ d.regs = d₀.regs ∧
          ∀ i, i < 9 → (d₀.rd SPUR.EVSEL.TILES i).testBit t = true → (d.core i).event.getLsbD 5 = true) ∧
      (subOf k.frame = .nonPosted → k.frame.fabric = false → Completes (.trapTimeout t n) s fun d =>
        d.trap? t n = none ∧ d.pkt? k.id = none ∧ d₀.onlyPkt k.id d ∧ d.mem = d₀.mem ∧ d.out = back k ++ answer k :: d₀.out) ∧
      (subOf k.frame = .posted → k.frame.fabric = false → Completes (.trapTimeout t n) s fun d =>
        d.trap? t n = none ∧ d.pkt? k.id = none ∧ d₀.onlyPkt k.id d ∧ d.mem = d₀.mem ∧ d.out = back k ++ d₀.out)) ∧
    (∀ x k, (d₀.notch.traps.find? fun y => y.tile == t.val && y.valid && y.n % 65536 == seq.toNat) = some x → d₀.pkt? x.pkt = some k →
      k.phase = .trapped → k.marked = false → d₀.frozen k.port = false → k.frame.locked = false → k.frame.ide = false →
      k.frame.fabric = false →
      (subOf k.frame = .nonPosted → Completes (.trapResolve t (.core c) seq 6) s fun d =>
        d.trap? t x.n = none ∧ d.pkt? k.id = none ∧ d₀.onlyPkt k.id d ∧ ∃ y, d.out = back k ++ answer k :: y) ∧
      (subOf k.frame ≠ .completion → stg TILE.NOTCH_RSLV_O0.V % 65536 < 4096 → d₀.tenFrozen (bits o1 16 9) = false →
        k.frame.data.length ≤ 512 → Completes (.trapResolve t (.core c) seq 3) s fun d =>
          d.trap? t x.n = none ∧ d₀.onlyPkt k.id d ∧ d.mem = d₀.mem ∧ d.out = d₀.out ∧
          d.pkt? k.id = some { k with
            act := some ⟨3, BitVec.ofNat 64 (stg TILE.NOTCH_RSLV_O0.V), BitVec.ofNat 64 o1,
              BitVec.ofNat 64 (stg TILE.NOTCH_RSLV_O2_LO.V + 2 ^ 32 * stg TILE.NOTCH_RSLV_O2_HI.V), BitVec.ofNat 64 (stg TILE.NOTCH_RSLV_O3.V)⟩
            tenant := bits o1 16 9, cls := o1 % 8, dest := .traverse (stg TILE.NOTCH_RSLV_O0.V % 4096), fwd := some k.frame
            phase := if k.charged then .queued else .landed })) ∧
    ((∀ i, m ≠ .core i) ∨ act = 5 ∨
        (d₀.notch.traps.find? fun y => y.tile == t.val && y.valid && y.n % 65536 == seq.toNat) = none →
      Completes (.trapResolve t m seq act) s fun d =>
        SMap.get 0 d.notch.rslvRefused t = SMap.get 0 d₀.notch.rslvRefused t + 1 ∧
        { d with notch := { d.notch with rslvRefused := d₀.notch.rslvRefused } } = d₀)

/-- Admission, the way back from the Scree, a context granted to a waiting packet (R114, R115, R116, R118, R119, R120, R121, R122,
R200, R201, R202). While the core domain is up, for a packet in landing blocks whose turn it is by credits and whose queue has no
tail and no segments, in a tile that does not spill: if its blocks fit it is charged to its tenant, its credits go back and it is
queued; if they do not fit only WITHHOLD is set. A charge that stays within the tenant's minimum fits; one that exceeds the
minimum by more than the tenant's cap does not. A packet whose queue has a tail, in a tile that may not spill, joins that tail
when it fits. A packet already charged, or behind an earlier uncharged one of its port and credit type, is not admitted.
SCREE_RETURN of the oldest segment of a queue with nothing in SRAM, at or below LOW, starts its read-back; SCREE_RETURN_DONE
brings its packets into SRAM, charged without a cap, or loses them to an uncorrectable error. CONTEXT_GRANT gives the oldest
waiting request of a tile its context and tag, or has no effect when none can be granted. -/
def Obligations.AdmissionSpillAndGrant : Prop :=
  ∀ (s : State) (k : Pkt) (t : Fin 16) (seg : Nat) (ue : Bool), s.dev.coreUp = true →
    let d₀ := s.dev
    let n := k.blocks
    let i := k.port / 8 * 512 + k.tenant
    let used (d : Dev) (i : Nat) := d.rd TILE.VOQ_TEN_USE.USED i
    let min_ := d₀.rd TILE.VOQ_TEN_MIN.MIN i
    let turn := ∀ q ∈ d₀.sad.pkts, q.id < k.id → q.port = k.port → subOf q.frame = subOf k.frame → q.charged = true ∨ q.credited = true
    let calm (q : Nat) := SMap.get false d₀.sad.spilling q = false ∧ d₀.rd TILE.VOQ_STATUS.USED q < d₀.rd TILE.SCREE_CTL.HIGH q * 16
    let credits := Out.credits k.port (subOf k.frame) (frameBlocks k.frame)
    (d₀.pkt? k.id = some k → k.charged = false → k.phase = .landed → turn → calm (k.port / 8) →
      ((∀ q ∈ d₀.sad.pkts, q.sameVoq k = true → q.inTail = false ∧ q.inScree = false) →
        (d₀.fits (k.port / 8) k.tenant n = true → Completes (.admission k.id) s fun d =>
          d.pkt? k.id = some { k with phase := .queued, charged := true, credited := true } ∧ d₀.onlyPkt k.id d ∧
          used d i = (used d₀ i + n) % 2 ^ TILE.VOQ_TEN_USE.USED.width ∧ (∀ j, j ≠ i → used d j = used d₀ j) ∧
          d.out = credits :: d₀.out ∧ d.mem = d₀.mem) ∧
        (d₀.fits (k.port / 8) k.tenant n = false → Completes (.admission k.id) s fun d =>
          d.pkt? k.id = some k ∧ d₀.onlyPkt k.id d ∧ d.on TILE.VOQ_STATUS.WITHHOLD (k.port / 8) = true ∧ used d i = used d₀ i ∧
          d.out = d₀.out)) ∧
      ((∃ q ∈ d₀.sad.pkts, q.queuedNow = true ∧ q.sameVoq k = true ∧ q.id ≠ k.id ∧ q.inTail = true) → d₀.canSpill (k.port / 8) = false →
        d₀.fits (k.port / 8) k.tenant n = true → Completes (.admission k.id) s fun d =>
          d.pkt? k.id = some { k with phase := .tail, charged := true, credited := true } ∧ d.out = credits :: d₀.out)) ∧
    (used d₀ i + n ≤ min_ → d₀.fits (k.port / 8) k.tenant n = true) ∧
    (min_ < used d₀ i + n → d₀.rd TILE.VOQ_TEN_CAP.CAP i < used d₀ i + n - min_ → d₀.fits (k.port / 8) k.tenant n = false) ∧
    (d₀.pkt? k.id = some k → k.charged = true ∨ (∃ q ∈ d₀.sad.pkts, q.id < k.id ∧ q.port = k.port ∧ subOf q.frame = subOf k.frame ∧
        q.charged = false ∧ q.credited = false ∧ q.phase = .landed) → NoEffect (.admission k.id) s) ∧
    ((d₀.sad.pkts.map (·.id)).Nodup →
      let inSeg (ph : Phase) (q : Pkt) := q.port / 8 = t.val ∧ q.phase = ph
      ((∃ q ∈ d₀.sad.pkts, inSeg (.scree seg) q) → d₀.rd TILE.VOQ_STATUS.USED t ≤ d₀.spillLow t → d₀.backSegs t < 8 →
        (∀ q ∈ d₀.sad.pkts, inSeg (.scree seg) q → ∀ y ∈ d₀.sad.pkts, y.sameVoq q = true →
          y.phase ≠ .queued ∧ ∀ z, y.phase = .scree z → seg ≤ z) →
        Completes (.screeReturn t seg) s fun d =>
          (∀ q ∈ d₀.sad.pkts, d.pkt? q.id = some (if inSeg (.scree seg) q then { q with phase := .back seg } else q)) ∧
          { d with sad := { d.sad with pkts := d₀.sad.pkts } } = d₀) ∧
      ((∃ q ∈ d₀.sad.pkts, inSeg (.back seg) q) →
        (Completes (.screeReturnDone t seg false) s fun d =>
          (∀ q ∈ d₀.sad.pkts, d.pkt? q.id = some (if inSeg (.back seg) q then { q with phase := .queued, charged := true } else q)) ∧
          d.rd TILE.SCREE_STATUS.IN_USE t = (d₀.rd TILE.SCREE_STATUS.IN_USE t - 1) % 2 ^ TILE.SCREE_STATUS.IN_USE.width ∧ d.mem = d₀.mem) ∧
        Completes (.screeReturnDone t seg true) s fun d =>
          (∀ q ∈ d₀.sad.pkts, d.pkt? q.id = if inSeg (.back seg) q then none else some q) ∧
          d.rd TILE.SCREE_STATUS.IN_USE t = (d₀.rd TILE.SCREE_STATUS.IN_USE t - 1) % 2 ^ TILE.SCREE_STATUS.IN_USE.width ∧
          (∀ q ∈ d₀.sad.pkts, inSeg (.back seg) q → ∃ l ∈ d.ctn.last, l.rcd.type = 18 ∧ l.rcd.kind = 2 ∧ l.rcd.index = t)) ∧
      ((∀ q ∈ d₀.sad.pkts, ¬ inSeg (.back seg) q) → NoEffect (.screeReturnDone t seg ue) s)) ∧
    (∀ a, d₀.pkt? k.id = some k → k.phase = .ctxWait → k.act = some a → a.fn = 0 → a.o1.getLsbD 4 = true → k.frame.isTagged = true →
      let q := a.o0.toNat % 128
      (∀ x j g, (d₀.grantFrom k.tenant k.port).isSome = true → d₀.freeTag q = some x → d₀.freeCtx = some j →
        d₀.outFrame k q a (some x) = some g → (∀ y ∈ d₀.sad.pkts, y.port / 8 = k.port / 8 → y.phase = .ctxWait → k.id ≤ y.id) →
        Completes (.contextGrant (.packet k.id)) s fun d =>
          (∃ c, d.pkt? k.id = some { k with fwd := some g, segHdr := none, held := none, cut := c,
                                            phase := if k.charged then .queued else .landed }) ∧
          (∃ e, d.ctx? j = some e ∧ e.user = .remap ∧ e.egress = q ∧ e.tag = x ∧ e.origTag = frameTag k.frame ∧ e.tenant = k.tenant ∧
            e.port = k.port) ∧ d₀.onlyPkt k.id d ∧ d.mem = d₀.mem ∧ d.out = d₀.out) ∧
      (d₀.grantFrom k.tenant k.port = none ∨ d₀.freeTag q = none → NoEffect (.contextGrant (.packet k.id)) s))

/-- Cells, acknowledgements, multicast copies, isolation, return and faults of planes (R102, R103, R104, R105, R106, R107, R108, R119,
R128, R129, R130, R435). While the core domain is up, for a packet of the device: CELL_GRANT of a packet that the queue rules and
schedulers offer sends its next cell on the plane, with the next sequence number of its tile, destination and class, and puts it
into the egress staging of its port; with the last cell of a pool access the access arrives at its pool port. The one cell of a
multicast packet of a valid group delivers a copy to every member that is configured, unfrozen and up, the ingress port left out
under NO_REFLECT, and counts each other member in DROP; of an invalid group the packet is freed and counted once. What is not
offered gets no grant. A grant with a plane fault, and an acknowledgement timeout, fault the plane with their cause; its
unacknowledged unicast cells go to another plane. An acknowledgement frees its cell's blocks, and the last one the packet.
Isolation drains or isolates a plane if another is in service, else is refused; a return with ISOLATE set puts a plane into
service unless it faulted and its last test did not pass. -/
def Obligations.CellsPlanesAndMulticast : Prop :=
  ∀ (s : State) (k : Pkt) (pl : Fin 4) (j : Nat), s.dev.coreUp = true →
    let d₀ := s.dev
    let i := k.id
    let may := d₀.offered k = true ∧ d₀.planeFor k pl = true ∧ d₀.scheduled k = true ∧ d₀.cutFirst k = true
    let state (d : Dev) (n : Nat) := d.rd PLANE.STATUS.STATE n
    let other (n : Nat) := ∃ m, m < 4 ∧ m ≠ n ∧ state d₀ m = 0
    let seq := SMap.get 0 d₀.sad.seq (seqKey k)
    let k' : Pkt := { k with cells := k.cells ++ [⟨pl, seq % 4096, false⟩] }
    (d₀.offered k = true → k.charged = true ∧ k.crossed = false ∧ k.held = none ∧ (k.phase = .queued ∨ k.phase = .tail) ∧
      (k.cells = [] → ∀ q ∈ d₀.sad.pkts, q.id < i → q.queuedNow = true → q.sameVoq k = true → mayPass k.frame q.frame = true)) ∧
    (d₀.pkt? i = some k →
      (¬ may → ∀ c, NoEffect (.cellGrant i pl c) s) ∧
      (may → ∀ p, k.dest = .port p → Completes (.cellGrant i pl none) s fun d =>
        d.pkt? i = some k' ∧ d₀.onlyPkt i d ∧ SMap.get 0 d.sad.seq (seqKey k) = (seq + 1) % 4096 ∧ d.mem = d₀.mem ∧ d.out = d₀.out ∧
        (d₀.staged? p i = none → d.sad.staged = d₀.sad.staged ++ [⟨k', p, 1, false⟩]) ∧
        (∀ x, d₀.staged? p i = some x → d.staged? p i = some { x with pkt := k', have_ := x.have_ + 1 })) ∧
      (may → ∀ n a, k.dest = .pool n → k.act = some a → k.cellCount = k.cells.length + 1 → Completes (.cellGrant i pl none) s fun d =>
        ∃ r, d.tarn.reqs = d₀.tarn.reqs ++ [r] ∧ r.pkt = k' ∧ r.desc = a.o0.toNat % 4096 ∧ r.key = a.o3.toNat % 16 ∧
          r.addr = (k.fwd.getD k.frame).h5.toNat ∧ r.phase = .arrived ∧ d.mem = d₀.mem) ∧
      (may → ∀ g a, k.dest = .group g → k.cells = [] → k.act = some a →
        let x := d₀.group g
        let member (p : Nat) : Bool := x.map.testBit p && !(x.noReflect && decide (p = k.port))
        let gone := ((List.range 128).filter fun p => member p && d₀.unreachable p).length
        (x.valid = false → Completes (.cellGrant i pl none) s fun d =>
          d.pkt? i = none ∧ d₀.onlyPkt i d ∧ d.sad.staged = d₀.sad.staged ∧ (d.group g).drop = min (x.drop + 1) 0xFFFFFFFF) ∧
        (x.valid = true → k.cellCount = 1 → k.frame.fabric = false → (∀ p, k.frame.data.length ≤ d₀.mpsAt p) →
          Completes (.cellGrant i pl none) s fun d =>
            (∀ p f, p < 128 → member p = true → d₀.unreachable p = false → d₀.staged? p i = none →
              d₀.outFrame k p { a with o1 := 0 } none = some f →
              ∃ y, d.staged? p i = some y ∧ y.pkt.fwd = some f ∧ y.have_ = 1 ∧ y.tx = false) ∧
            (∀ p, p < 128 → (member p = false ∨ d₀.unreachable p = true) → d.staged? p i = d₀.staged? p i) ∧
            (0 < gone → (d.group g).drop = min (x.drop + gone) 0xFFFFFFFF))) ∧
      (may → state d₀ pl ≠ 3 → other pl → ∀ c : Fin 4, Completes (.cellGrant i pl (some c)) s fun d =>
        state d pl = 3 ∧ d.on PLANE.STATUS.FAULT pl = true ∧ d.rd PLANE.STATUS.FAULT_CAUSE pl = min 3 (c.val + 1)) ∧
      (k.dest.group?.isSome = true → d₀.offered k = true → Completes (.multicastReserve i) s fun d =>
        d.pkt? i = some { k with reserved := true } ∧ d₀.onlyPkt i d ∧ { d with sad := { d.sad with pkts := d₀.sad.pkts } } = d₀) ∧
      (k.dest.group? = none → NoEffect (.multicastReserve i) s) ∧
      (∀ c, k.cells[j]? = some c →
        let q : Pkt := { k with cells := k.cells.set j { c with acked := true } }
        (c.acked = false → Completes (.cellAck i j) s fun d =>
          d.pkt? i = (if k.crossed = true ∧ q.cells.all (fun c => c.acked) = true then none else some q) ∧ d₀.onlyPkt i d ∧
          d.rd TILE.VOQ_STATUS.USED (k.port / 8) = (d₀.rd TILE.VOQ_STATUS.USED (k.port / 8) -
            min 4 ((k.frame.head.length + k.frame.data.length + 63) / 64 - 4 * j)) % 2 ^ TILE.VOQ_STATUS.USED.width) ∧
        (c.acked = true → NoEffect (.cellAck i j) s ∧ NoEffect (.ackTimeout i j false) s) ∧
        (c.acked = false → k.dest.group? = none → state d₀ c.plane ≠ 3 → other c.plane → (d₀.sad.pkts.map (·.id)).Nodup →
          Completes (.ackTimeout i j false) s fun d =>
            state d c.plane = 3 ∧ d.rd PLANE.STATUS.FAULT_CAUSE c.plane = 4 ∧
            ∃ m, m < 4 ∧ m ≠ c.plane ∧ state d m = 0 ∧ d.pkt? i = some { k with
              cells := k.cells.map fun y => if y.plane = c.plane ∧ y.acked = false then { y with plane := m } else y }))) ∧
    (state d₀ pl = 0 → other pl → Completes (.planeIsolate pl) s fun d =>
      d.on PLANE.CTL.ISOLATE pl = true ∧ state d pl = (if d₀.planeBusy pl then 1 else 2) ∧ d.sad = d₀.sad) ∧
    (state d₀ pl = 0 → ¬ other pl → Completes (.planeIsolate pl) s fun d =>
      state d pl = 0 ∧ d.on PLANE.CTL.ISOLATE pl = false ∧ d.on PLANE.STATUS.ISOLATE_REFUSED pl = true ∧ d.sad = d₀.sad) ∧
    (d₀.on PLANE.CTL.ISOLATE pl = true →
      (state d₀ pl ≠ 3 ∨ d₀.testPassed 1 pl = true → Completes (.planeReturn pl) s fun d =>
        state d pl = 0 ∧ d.on PLANE.CTL.ISOLATE pl = false ∧ d.sad = d₀.sad) ∧
      (state d₀ pl = 3 → d₀.testPassed 1 pl = false → Completes (.planeReturn pl) s fun d =>
        state d pl = 3 ∧ d.on PLANE.STATUS.ISOLATE_REFUSED pl = true ∧ d.sad = d₀.sad)) ∧
    (d₀.on PLANE.CTL.ISOLATE pl = false → NoEffect (.planeReturn pl) s)

/-- A transmission starts, a transmission is nullified, the commands of the group table (R109, R125, R126, R127, R133, R134, R135,
R269, R289). While the core domain is up: a packet in the staging of a PCI Express port whose link flows, with enough cells there,
in its turn and with credit, while the port sends nothing, starts to leave: its header and data credits are taken and its entry is
marked. A packet in transmission that is not whole is nullified: its entry is gone, and it is sent again whole on the queued path,
or, on a block error, lost with a freeze of its tile with cause 2. MCG_READ copies the entry into the staging registers, or ends
POISONED; MCG_WRITE writes the staged map and attributes, keeping DROP; MCG_CLEAR_DROP clears DROP; each sets BUSY and its end
clears it with the status. A second command while one runs changes no entry and makes the status BUSY_REFUSED (1). -/
def Obligations.EgressAndGroupCommands : Prop :=
  ∀ (s : State) (p : Fin 128) (k : Nat) (x : Staged) (g : Fin 4096) (ue : Bool), s.dev.coreUp = true →
    let d₀ := s.dev
    let f := x.pkt.fwd.getD x.pkt.frame
    let cred (d : Dev) (j : Nat) := SMap.get 0 d.sad.credit (2 * (p * 3 + subIdx (subOf f)) + j)
    let tile := x.pkt.port / 8
    (d₀.staged? p k = some x →
      ((∀ y ∈ d₀.sad.staged, y.port = p.val → y.tx = false) → d₀.linkFlows p = true → d₀.frozen p = false →
        d₀.cellsBefore x ≤ x.have_ → d₀.stagedTurn x = true → d₀.on PORT.THX_CTL.THEOX p = false → x.pkt.segHdr = none →
        1 ≤ cred d₀ 0 → (f.data.length + 15) / 16 ≤ cred d₀ 1 → Completes (.egressTransmitStart p k) s fun d =>
          d.staged? p k = some { x with tx := true } ∧ d.out = .transmit p k :: d₀.out ∧ cred d 0 = cred d₀ 0 - 1 ∧
          cred d 1 = cred d₀ 1 - (f.data.length + 15) / 16 ∧ d.sad.pkts = d₀.sad.pkts ∧ d.mem = d₀.mem ∧ d.regs = d₀.regs) ∧
      (x.tx = true → x.whole = false → x.pkt.id = k ∧
        (∀ c q, c ≠ NullCause.blockError → d₀.pkt? k = some q → Completes (.nullify p k c) s fun d =>
          d.staged? p k = none ∧ d.pkt? k = some { q with cells := [], cut := false, resend := true, mcMap := none } ∧
          d₀.onlyPkt k d ∧ d.out = .nullify p k :: d₀.out ∧ d.mem = d₀.mem) ∧
        Completes (.nullify p k .blockError) s fun d => d.staged? p k = none ∧ d.pkt? k = none ∧
          d.on CTN.TILE_STATUS.FROZEN tile = true ∧
          (d₀.on CTN.TILE_STATUS.FROZEN tile = false → d.rd CTN.TILE_STATUS.CAUSE tile = 2)) ∧
      (x.tx = false ∨ x.whole = true → ∀ c, NoEffect (.nullify p k c) s)) ∧
    (d₀.staged? p k = none → ∀ c, NoEffect (.nullify p k c) s) ∧
    (let e := d₀.group g
     let only (d : Dev) := ∀ j, j ≠ g.val → d.group j = d₀.group j
     let runs (c : Instr) (st : Nat) (P : Dev → Prop) := Completes c s fun d =>
       d.sad.mcgCmd = some ⟨st, false⟩ ∧ d.on SADDLE.MCG_CMD.BUSY = true ∧ d.mem = d₀.mem ∧ d.sad.pkts = d₀.sad.pkts ∧ only d ∧ P d
     (d₀.sad.mcgCmd = none →
       (e.poison || ue) = false → runs (.mcgRead g ue) 0 fun d => d.group g = e ∧
         (∀ i, i < 4 → d.rd SADDLE.MCG_MAP.MAP i = e.map / 2 ^ (32 * i) % 2 ^ 32) ∧ d.on SADDLE.MCG_ATTR.VALID = e.valid ∧
         d.on SADDLE.MCG_ATTR.NO_REFLECT = e.noReflect ∧ d.rd SADDLE.MCG_DROP.DROP = e.drop % 2 ^ 32) ∧
     (d₀.sad.mcgCmd = none → (e.poison || ue) = true → runs (.mcgRead g ue) 2 fun d => d.group g = { e with poison := true }) ∧
     (d₀.sad.mcgCmd = none →
       runs (.mcgWrite g) 0 (fun d => d.group g = ⟨d₀.rd SADDLE.MCG_MAP.MAP 0 + d₀.rd SADDLE.MCG_MAP.MAP 1 * 2 ^ 32 +
           d₀.rd SADDLE.MCG_MAP.MAP 2 * 2 ^ 64 + d₀.rd SADDLE.MCG_MAP.MAP 3 * 2 ^ 96, d₀.on SADDLE.MCG_ATTR.VALID,
           d₀.on SADDLE.MCG_ATTR.NO_REFLECT, e.drop, false⟩) ∧
       runs (.mcgClearDrop g) 0 (fun d => d.group g = { e with drop := 0 }) ∧ NoEffect .mcgCmdEnd s) ∧
     (∀ c, d₀.sad.mcgCmd = some c →
       (∀ i ∈ [Instr.mcgRead g ue, .mcgWrite g, .mcgClearDrop g], Completes i s fun d =>
         d.sad.mcgCmd = some { c with second := true } ∧ d.sad.groups = d₀.sad.groups) ∧
       Completes .mcgCmdEnd s fun d => d.sad.mcgCmd = none ∧ d.on SADDLE.MCG_CMD.BUSY = false ∧
         d.rd SADDLE.MCG_CMD.STATUS = (if c.second then 1 else c.status % 2 ^ SADDLE.MCG_CMD.STATUS.width) ∧
         d.sad.groups = d₀.sad.groups))

/-- A slot channel's settings, ON and CLEAR, its ramp, power-good, PERST and timers (R348, R349, R350, R351, R352, R354, R357, R358,
R359, R360). While the core domain is up: a limit or fold-back write is taken if 3 V_ILIM stays at most 100 mV and V_ILIM at least
4 mV, else only LIMIT_REFUSED is set (that a fold-back write is held to the limits in force is the model's reading, log entry 20).
ON written 1 with a zero setting only sets ON_REFUSED; else ON is 1 and a channel whose gate is off waits, or stays latched. ON
written 0 pulls the gate down: PG 0, SLOT_PWREN and SLOT_PERST_N as off, RESTART_RUN 1. CLEAR clears the latch, the fault bits and
RETRIES and starts no ramp. RAMP_START under the conditions of R349 makes STATE 2 and asserts SLOT_PWREN, counting a retry; under
any other it only records the measurements. Power-good asserts from STATE 2 on V_GS at least 8.0 V and a rail at most 0.5 V low;
it deasserts below 7.0 V or 1.0 V low, with SLOT_PERST_N, into STATE 2. The other rows end the restart timer, clear RETRIES under
power-good, set PRSNT_STABLE under presence and release SLOT_PERST_N; none of them has an effect where its condition fails, nor
any row while the core domain is down. -/
def Obligations.SlotPowerOnAndOff : Prop :=
  ∀ (s : State) (n : Fin 32) (v : W32) (vin src vgs : Fin 4096),
    let d₀ := s.dev
    let on (d : Dev) (f : Fld) := d.on f n
    let rd (d : Dev) (f : Fld) := d.rd f n
    let state (d : Dev) := d.rd SLOT.PWR_STATUS.STATE n
    let active := state d₀ = 2 ∨ state d₀ = 3
    let only (fs : List Fld) (d : Dev) := d₀.fieldsKept (fs.map (·.key n)) d ∧ { d with regs := d₀.regs } = d₀
    let sends (o : Out) (d : Dev) := ∃ x y, d.out = x ++ o :: y ++ d₀.out
    let meas : List Fld := [SLOT.PWR_MEAS0.VIN, SLOT.PWR_MEAS0.SRC, SLOT.PWR_MEAS1.VGS]
    let ready := on d₀ SLOT.PWR_CTL.ON = true ∧ on d₀ SLOT.PWR_STATUS.LATCHED = false ∧ on d₀ SLOT.PWR_STATUS.RESTART_RUN = false ∧
      (on d₀ SLOT.PWR_STATUS.PRSNT_STABLE = true ∨ on d₀ SLOT.PWR_CTL.PRSNT_GATE = false) ∧ 10200 ≤ 4 * vin.val ∧
      ¬ (d₀.on SBIN.STATUS.LEVEL 128 = true ∧ (d₀.rd SLOT.WARN_SHED.MASK).testBit n = true) ∧ ¬ active
    (d₀.coreUp = true →
      (∀ fold : Bool,
        let i := if fold then rd d₀ SLOT.PWR_LIMIT.ILIM else bits v.toNat 0 12
        let r := if fold then rd d₀ SLOT.PWR_LIMIT.RSENSE else bits v.toNat 12 16
        (3 * (i * r) ≤ 10000000 ∧ 400000 ≤ i * r → Completes (.pwrLimitWrite n fold v) s fun d =>
          if fold then rd d SLOT.PWR_FOLD.LIMIT = bits v.toNat 0 12 ∧ only [SLOT.PWR_FOLD.LIMIT] d
          else rd d SLOT.PWR_LIMIT.ILIM = i ∧ rd d SLOT.PWR_LIMIT.RSENSE = r ∧ only [SLOT.PWR_LIMIT.ILIM, SLOT.PWR_LIMIT.RSENSE] d) ∧
        (¬ (3 * (i * r) ≤ 10000000 ∧ 400000 ≤ i * r) → Completes (.pwrLimitWrite n fold v) s fun d =>
          on d SLOT.PWR_STATUS.LIMIT_REFUSED = true ∧ only [SLOT.PWR_STATUS.LIMIT_REFUSED] d)) ∧
      (let zero := rd d₀ SLOT.PWR_LIMIT.ILIM = 0 ∨ rd d₀ SLOT.PWR_LIMIT.RSENSE = 0 ∨ rd d₀ SLOT.PWR_FOLD.LIMIT = 0
       (zero → Completes (.slotOn n) s fun d => on d SLOT.PWR_STATUS.ON_REFUSED = true ∧ only [SLOT.PWR_STATUS.ON_REFUSED] d) ∧
       (¬ zero → Completes (.slotOn n) s fun d => on d SLOT.PWR_CTL.ON = true ∧
         (active → state d = state d₀) ∧ (¬ active → state d = if on d₀ SLOT.PWR_STATUS.LATCHED then 4 else 1) ∧
         only [SLOT.PWR_CTL.ON, SLOT.PWR_STATUS.STATE] d)) ∧
      (Completes (.slotOff n) s fun d => on d SLOT.PWR_CTL.ON = false ∧ on d SLOT.PWR_STATUS.PG = false ∧
        on d SLOT.PWR_STATUS.RESTART_RUN = true ∧ state d = (if on d₀ SLOT.PWR_STATUS.LATCHED then 4 else 0) ∧
        SMap.get false d.slot.released n = false ∧ SMap.get false d.slot.strong n = false ∧ sends (.pin .slotPwrEn n false) d) ∧
      (Completes (.slotClear n) s fun d =>
        (∀ f ∈ [SLOT.PWR_STATUS.LATCHED, SLOT.PWR_STATUS.HARD_SHORT, SLOT.PWR_STATUS.FLT_TIMER, SLOT.PWR_STATUS.GATE_FAIL,
          SLOT.PWR_STATUS.FET_SHORT, SLOT.PWR_STATUS.SHED, SLOT.PWR_STATUS.RETRIES], rd d f = 0) ∧
        (active → state d = state d₀) ∧ (¬ active → state d = if on d₀ SLOT.PWR_CTL.ON then 1 else 0) ∧
        on d SLOT.PWR_CTL.ON = on d₀ SLOT.PWR_CTL.ON ∧ { d with regs := d₀.regs } = d₀) ∧
      (ready → Completes (.rampStart n vin src) s fun d => state d = 2 ∧ d.out = .pin .slotPwrEn n true :: d₀.out ∧
        rd d SLOT.PWR_MEAS0.VIN = vin ∧ rd d SLOT.PWR_MEAS0.SRC = src ∧ SMap.get false d.slot.retry n = false ∧
        rd d SLOT.PWR_STATUS.RETRIES = (if SMap.get false d₀.slot.retry n then min (rd d₀ SLOT.PWR_STATUS.RETRIES + 1) 15
          else rd d₀ SLOT.PWR_STATUS.RETRIES) ∧ d.mem = d₀.mem) ∧
      (¬ ready → Completes (.rampStart n vin src) s fun d =>
        rd d SLOT.PWR_MEAS0.VIN = vin ∧ rd d SLOT.PWR_MEAS0.SRC = src ∧ only meas d) ∧
      (let good := state d₀ = 2 ∧ 8000 ≤ 4 * vgs.val ∧ 4 * vin.val ≤ 4 * src.val + 500
       (good → Completes (.powerGoodAssert n vin src vgs) s fun d => state d = 3 ∧ on d SLOT.PWR_STATUS.PG = true ∧
         SMap.get 0 d.slot.pgAt n = d₀.timeBase + 1 ∧ d.mem = d₀.mem) ∧
       (¬ good → Completes (.powerGoodAssert n vin src vgs) s fun d => rd d SLOT.PWR_MEAS1.VGS = vgs ∧ only meas d)) ∧
      (let bad := state d₀ = 3 ∧ (4 * vgs.val < 7000 ∨ 4 * src.val + 1000 < 4 * vin.val)
       (bad → Completes (.powerGoodDeassert n vin src vgs) s fun d => state d = 2 ∧ on d SLOT.PWR_STATUS.PG = false ∧
         SMap.get false d.slot.released n = false ∧ on d SLOT.PWR_CTL.ON = on d₀ SLOT.PWR_CTL.ON) ∧
       (¬ bad → Completes (.powerGoodDeassert n vin src vgs) s fun d => rd d SLOT.PWR_MEAS1.VGS = vgs ∧ only meas d)) ∧
      (let held := on d₀ SLOT.PWR_STATUS.PG = true ∧ on d₀ SLOT.PWR_CTL.PERST = false
       (held → SMap.get false d₀.slot.released n = false → Completes (.slotPerstRelease n) s fun d =>
         SMap.get false d.slot.released n = true ∧ d.out = .pin .slotPerst n true :: d₀.out ∧ d.regs = d₀.regs ∧ d.mem = d₀.mem) ∧
       (¬ held → NoEffect (.slotPerstRelease n) s)) ∧
      (Completes (.restartTimerExpiry n) s fun d => on d SLOT.PWR_STATUS.RESTART_RUN = false ∧ (active → state d = state d₀) ∧
        (¬ active → state d = if on d₀ SLOT.PWR_STATUS.LATCHED then 4 else if on d₀ SLOT.PWR_CTL.ON then 1 else 0) ∧
        only [SLOT.PWR_STATUS.RESTART_RUN, SLOT.PWR_STATUS.STATE] d) ∧
      (on d₀ SLOT.PWR_STATUS.PG = true → Completes (.retriesClear n) s fun d => rd d SLOT.PWR_STATUS.RETRIES = 0 ∧
        only [SLOT.PWR_STATUS.RETRIES] d) ∧
      (on d₀ SLOT.PWR_STATUS.PG = false → NoEffect (.retriesClear n) s) ∧
      (d₀.on SBIN.STATUS.LEVEL (64 + n) = true → Completes (.presenceStable n) s fun d => on d SLOT.PWR_STATUS.PRSNT_STABLE = true ∧
        only [SLOT.PWR_STATUS.PRSNT_STABLE] d) ∧
      (d₀.on SBIN.STATUS.LEVEL (64 + n) = false → NoEffect (.presenceStable n) s)) ∧
    (d₀.coreUp = false → ∀ i ∈ [Instr.slotOn n, .slotOff n, .slotClear n, .pwrLimitWrite n false v, .rampStart n vin src,
      .powerGoodAssert n vin src vgs, .powerGoodDeassert n vin src vgs, .slotPerstRelease n, .restartTimerExpiry n, .retriesClear n,
      .presenceStable n], NoEffect i s)

/-- Trips of a slot channel; edges, masking and re-arming of a sideband input (R263, R353, R354, R355, R356, R358, R361, R363, R364,
R365, R366, R367). While the core domain is up, with the gate driven: the fault timer's end (FLT_TIMER), a sense voltage above 3
V_ILIM (HARD_SHORT) and V_GS below 3.0 V (GATE_FAIL), and with the gate off a slot rail above half of the input (FET_SHORT), each
set their bit and pull the gate down: PG 0, SLOT_PERST_N asserted, RESTART_RUN 1, SLOT_PWREN off, the 2 A sink on for the first
three. The channel latches unless a hard short or timer trip may be retried; the port that names the slot freezes. Where the
condition fails nothing trips. While VAUX is up: an edge of an input that is not masked and whose filtered level differs sets
LEVEL, RAW and EDGE; of a masked one only RAW. Loss of presence with PRSNT_GATE turns an active channel off; PWR_WARN_N sheds the
channels of WARN_SHED; SYS_RST_N and the loss of PWR_OK start a cold reset. An asserted input past its stuck time, or with more
edges than allowed in a window, is masked with STUCK or CHATTER; REARM unmasks it and settles LEVEL on RAW. SYS_RST_N and PWR_OK
are never masked. -/
def Obligations.SlotTripsAndSidebandInputs : Prop :=
  ∀ (s : State) (n : Fin 32) (sense vgs vin src : Fin 4096) (i : Fin 131) (level raw : Bool) (edges : Nat) (m : Master),
    let d₀ := s.dev
    let on (d : Dev) (f : Fld) := d.on f n
    let rd (d : Dev) (f : Fld) := d.rd f n
    let active := rd d₀ SLOT.PWR_STATUS.STATE = 2 ∨ rd d₀ SLOT.PWR_STATUS.STATE = 3
    let beyond := 3 * rd d₀ SLOT.PWR_LIMIT.ILIM * rd d₀ SLOT.PWR_LIMIT.RSENSE < sense.val * 2500
    let again := on d₀ SLOT.PWR_CTL.AUTO_RETRY = true ∧
      (rd d₀ SLOT.PWR_CTL.RETRY_MAX = 0 ∨ rd d₀ SLOT.PWR_STATUS.RETRIES < rd d₀ SLOT.PWR_CTL.RETRY_MAX)
    let off (d : Dev) := on d SLOT.PWR_STATUS.PG = false ∧ on d SLOT.PWR_STATUS.RESTART_RUN = true ∧
      SMap.get false d.slot.released n = false ∧ ∃ x y, d.out = x ++ .pin .slotPwrEn n false :: y ++ d₀.out
    let trips (c : Instr) (f : Fld) (retriable strong : Bool) := Completes c s fun d =>
      on d f = true ∧ off d ∧ SMap.get false d.slot.strong n = strong ∧
      (retriable = true → again → on d SLOT.PWR_STATUS.LATCHED = on d₀ SLOT.PWR_STATUS.LATCHED ∧ SMap.get false d.slot.retry n = true) ∧
      (retriable = false ∨ ¬ again → on d SLOT.PWR_STATUS.LATCHED = true ∧ rd d SLOT.PWR_STATUS.STATE = 4) ∧
      ∀ p, d₀.portOfSlot n = some p → d.frozen p = true
    let inp (d : Dev) (f : Fld) := d.on f i
    let fixed := i.val = 129 ∨ i.val = 130
    (d₀.coreUp = true →
      (active → trips (.faultTimerExpiry n sense) SLOT.PWR_STATUS.FLT_TIMER true true) ∧
      (¬ active → NoEffect (.faultTimerExpiry n sense) s) ∧
      (beyond → active → trips (.hardShort n sense) SLOT.PWR_STATUS.HARD_SHORT true true) ∧
      (beyond → ¬ active → Completes (.hardShort n sense) s fun d => on d SLOT.PWR_STATUS.HARD_SHORT = true ∧
        SMap.get false d.slot.strong n = true ∧ d.out = .pin .gate2A n true :: d₀.out ∧
        d₀.fieldsKept [SLOT.PWR_STATUS.HARD_SHORT.key n] d) ∧
      (¬ beyond → NoEffect (.hardShort n sense) s) ∧
      (active → 4 * vgs.val < 3000 → trips (.gateFail n vgs) SLOT.PWR_STATUS.GATE_FAIL false true) ∧
      (¬ (active ∧ 4 * vgs.val < 3000) → Completes (.gateFail n vgs) s fun d => rd d SLOT.PWR_MEAS1.VGS = vgs ∧
        d₀.fieldsKept [SLOT.PWR_MEAS1.VGS.key n] d ∧ { d with regs := d₀.regs } = d₀) ∧
      (¬ active → vin.val < 2 * src.val → trips (.fetShort n vin src) SLOT.PWR_STATUS.FET_SHORT false false) ∧
      (active ∨ 2 * src.val ≤ vin.val → Completes (.fetShort n vin src) s fun d =>
        d₀.fieldsKept [SLOT.PWR_MEAS0.VIN.key n, SLOT.PWR_MEAS0.SRC.key n] d ∧ { d with regs := d₀.regs } = d₀)) ∧
    (d₀.power ≠ .vaux →
      (inp d₀ SBIN.STATUS.MASKED = true ∨ inp d₀ SBIN.STATUS.LEVEL = level → Completes (.sidebandEdge i level) s fun d =>
        inp d SBIN.STATUS.RAW = level ∧ d₀.fieldsKept [SBIN.STATUS.RAW.key i] d ∧ { d with regs := d₀.regs } = d₀) ∧
      (inp d₀ SBIN.STATUS.MASKED = false → inp d₀ SBIN.STATUS.LEVEL ≠ level →
        (i.val < 128 → Completes (.sidebandEdge i level) s fun d =>
          inp d SBIN.STATUS.RAW = level ∧ inp d SBIN.STATUS.LEVEL = level ∧ inp d SBIN.STATUS.EDGE = true ∧
          (i.val = 64 + n → d₀.coreUp = true → on d SLOT.PWR_STATUS.PRSNT_STABLE = false ∧
            (level = false → on d₀ SLOT.PWR_CTL.PRSNT_GATE = true → active → off d ∧ on d SLOT.PWR_CTL.ON = on d₀ SLOT.PWR_CTL.ON) ∧
            (level = false → ∀ p, d₀.portOfSlot n = some p → d.frozen p = true))) ∧
        (i.val = 128 → level = true → Completes (.sidebandEdge i level) s fun d => inp d SBIN.STATUS.LEVEL = true ∧
          (d₀.coreUp = true → (d₀.rd SLOT.WARN_SHED.MASK).testBit n = true → active → on d SLOT.PWR_STATUS.SHED = true ∧ off d)) ∧
        (i.val = 129 → level = true → Completes (.sidebandEdge i level) s fun d => d.power = .cold) ∧
        (i.val = 130 → level = false → Completes (.sidebandEdge i level) s fun d => d.power = .cold)) ∧
      (¬ fixed → inp d₀ SBIN.CFG.STUCK_EN = true → inp d₀ SBIN.STATUS.LEVEL = true → inp d₀ SBIN.STATUS.MASKED = false →
        Completes (.stuck i) s fun d => inp d SBIN.STATUS.MASKED = true ∧ inp d SBIN.STATUS.STUCK = true ∧
          inp d SBIN.STATUS.LEVEL = true ∧ d.mem = d₀.mem) ∧
      (¬ fixed → inp d₀ SBIN.CFG.CHAT_EN = true → max 1 (d₀.rd SBIN.CFG.CHAT_EDGES i) < edges → inp d₀ SBIN.STATUS.MASKED = false →
        Completes (.chatter i edges raw) s fun d => inp d SBIN.STATUS.MASKED = true ∧ inp d SBIN.STATUS.CHATTER = true ∧
          d.rd SBIN.STATUS.EDGES i = min edges 255 ∧ inp d SBIN.STATUS.LEVEL = inp d₀ SBIN.STATUS.LEVEL ∧ d.mem = d₀.mem) ∧
      (i.val < 128 → Completes (.rearm m i) s fun d => inp d SBIN.STATUS.MASKED = false ∧
        (inp d₀ SBIN.STATUS.MASKED = true → inp d SBIN.STATUS.LEVEL = inp d₀ SBIN.STATUS.RAW ∧
          (inp d₀ SBIN.STATUS.RAW ≠ inp d₀ SBIN.STATUS.LEVEL → inp d SBIN.STATUS.EDGE = true)))) ∧
    (fixed → NoEffect (.stuck i) s ∧ NoEffect (.chatter i edges raw) s ∧ NoEffect (.rearm m i) s) ∧
    (inp d₀ SBIN.CFG.STUCK_EN = false ∨ inp d₀ SBIN.STATUS.LEVEL = false ∨ inp d₀ SBIN.STATUS.MASKED = true → NoEffect (.stuck i) s)

/-- Power-on, cold resets and their causes, the boot of the island and of Foothill (R17, R19, R375, R376, R378, R393, R397, R418,
R421, R442, R446, R447). Power-on leaves VAUX reset for cold reset and boots the island: with an accepted Summit and policy image
STAGE is 2, else 15 with FAIL 1 or 2. A loss of the root PLL's lock (cause 3) and a supply fault under PWR_OK (cause 4) start a
cold reset from any state but VAUX and cold reset: cores, queues, memories and registers are as at reset, the cause and count are
recorded, flash and fuses stay. Cold reset ends when SYS_RST_N is high, PWR_OK is high and every rail is in range. The core phase,
or a later retry after FAIL 4, locks the root clock, and with an accepted Foothill image in its slot the device runs: every
segment of the image stands in the memories of all nine cores and in image area 0, cores 0 to 7 run at pc 0 with roles 0 to 7,
core 8 is the spare, STAGE is 4; with none, FAIL is 3 and the device runs with its cores held. A lock that fails is FAIL 4. Every
row has no effect outside its state. The end of a Cairn save stores the ring and re-arms the recorder, or, failed, leaves it
frozen. -/
def Obligations.ColdResetAndBoot : Prop :=
  ∀ (s : State) (lock : Bool) (hbm : BitVec 4) (rails : BitVec 9) (r : Fin 9) (hi : Bool) (mv : Fin 4096),
    let d₀ := s.dev
    let sup := if d₀.dirBit 3 = 1 then 1 - d₀.dirBit 0 else d₀.dirBit 0
    let boots (d : Dev) : Prop :=
      (d₀.chooseSlot 0 1 sup = none → d.rd SUMMIT.BOOT_STATUS.STAGE = 15 ∧ d.rd SUMMIT.BOOT_STATUS.FAIL = 1) ∧
      (∀ a, d₀.chooseSlot 0 1 sup = some a →
        (d₀.chooseSlot 2 2 (d₀.dirBit 1) = none → d.rd SUMMIT.BOOT_STATUS.STAGE = 15 ∧ d.rd SUMMIT.BOOT_STATUS.FAIL = 2) ∧
        ∀ b, d₀.chooseSlot 2 2 (d₀.dirBit 1) = some b → d.rd SUMMIT.BOOT_STATUS.STAGE = 2 ∧
          d.rd SUMMIT.BOOT_STATUS.SUMMIT_SLOT = a.1 % 2 ∧ d.rd SUMMIT.BOOT_STATUS.POLICY_SLOT = b.1 % 2 ∧
          d.summit.policy = some (Policy.ofImage b.2.1))
    let cold (i : Instr) (cause : Nat) := Completes i s fun d =>
      d.power = .cold ∧ d.rd DEV.RST_STATUS.COLD_CAUSE = cause ∧
      d.rd DEV.RST_STATUS.COLD_COUNT = min (d₀.rd DEV.RST_STATUS.COLD_COUNT + 1) 255 ∧ d.mem = [] ∧ d.spur = {} ∧ d.sad = {} ∧
      d.notch = {} ∧ d.trv = {} ∧ d.tarn = {} ∧ d.summit.flash = d₀.summit.flash ∧ d.summit.fuseSvn = d₀.summit.fuseSvn ∧
      d.on DEV.CLK_STATUS.ROOT_LOCK = false ∧ boots d
    let runs (d : Dev) : Prop := d.power = .run ∧ d.on DEV.CLK_STATUS.ROOT_LOCK = true ∧
      (d₀.chooseSlot 4 3 (d₀.dirBit 2) = none → d.rd SUMMIT.BOOT_STATUS.STAGE = 15 ∧ d.rd SUMMIT.BOOT_STATUS.FAIL = 3) ∧
      (∀ a, d₀.chooseSlot 4 3 (d₀.dirBit 2) = some a → d.rd SUMMIT.BOOT_STATUS.STAGE = 4 ∧
        d.rd SUMMIT.BOOT_STATUS.FOOTHILL_SLOT = a.1 % 2 ∧
        (∀ g ∈ a.2.1.segs, ∀ j, j < g.data.length → ∀ c, c < 9 → g.target < 3 →
          some (d.byte ((if g.target = 0 then coreBase c else if g.target = 1 then coreBase c + 0x20000 else spurBase) + g.dest + j)) =
            g.data[j]?) ∧
        (d₀.rd SPUR.HANDOVER.FAILED = 0 → d.rd SPUR.HANDOVER.SPARE = 8 ∧
          ∀ c, c < 9 → (d.core c).mode = .running ∧ (d.core c).pc = 0 ∧ (d.core c).role = if c < 8 then c else 15))
    (d₀.power = .vaux → Completes .vauxPowerOn s fun d => d.power = .cold ∧ boots d ∧ d.mem = d₀.mem ∧ d.out = d₀.out) ∧
    (d₀.power ≠ .vaux → NoEffect .vauxPowerOn s) ∧
    (Completes .vauxLoss s fun d => d.power = .vaux ∧ d.regs = [] ∧ d.mem = [] ∧ d.spur = {} ∧ d.cairn = {} ∧
      d.summit.flash = d₀.summit.flash ∧ d.summit.fuseSvn = d₀.summit.fuseSvn) ∧
    (d₀.power ≠ .vaux → d₀.power ≠ .cold →
      (d₀.on DEV.CLK_STATUS.ROOT_LOCK = true → cold .rootPllLossOfLock 3) ∧
      (r.val ≠ 0 → d₀.on SBIN.STATUS.LEVEL 130 = true → cold (.supplyMonitorFault r hi mv) 4)) ∧
    (d₀.on DEV.CLK_STATUS.ROOT_LOCK = false → NoEffect .rootPllLossOfLock s) ∧
    (d₀.power ≠ .vaux → r.val ≠ 0 → d₀.on SBIN.STATUS.LEVEL 130 = false → Completes (.supplyMonitorFault r hi mv) s fun d =>
      d.rd SUP.MEAS.MV r = mv ∧ (d.rd SUP.STATUS.IN_RANGE).testBit r = false ∧ d.power = d₀.power) ∧
    (d₀.power = .cold → Completes (.coldResetEnd rails) s fun d =>
      d.rd SUP.STATUS.IN_RANGE = rails.toNat ∧ d₀.fieldsKept [SUP.STATUS.IN_RANGE.key 0] d ∧
      d.power = if d₀.on SBIN.STATUS.LEVEL 129 = false ∧ d₀.on SBIN.STATUS.LEVEL 130 = true ∧ rails.toNat = 511 then .waitCore else .cold) ∧
    (d₀.power ≠ .cold → NoEffect (.coldResetEnd rails) s) ∧
    (d₀.power = .waitCore → d₀.rd SUMMIT.BOOT_STATUS.STAGE = 2 → d₀.summit.pdRun = false →
      (Completes (.corePhaseStart true hbm) s fun d => runs d ∧ d.summit.tarnInit = true) ∧
      (Completes (.corePhaseStart false hbm) s fun d => d.power = .waitCore ∧ d.rd SUMMIT.BOOT_STATUS.FAIL = 4 ∧
        d₀.fieldsKept [SUMMIT.BOOT_STATUS.FAIL.key 0] d ∧ { d with regs := d₀.regs } = d₀) ∧
      (d₀.rd SUMMIT.BOOT_STATUS.FAIL = 4 → Completes (.pllLockRetry true hbm) s runs)) ∧
    (d₀.power ≠ .waitCore → NoEffect (.corePhaseStart lock hbm) s ∧ NoEffect (.pllLockRetry lock hbm) s) ∧
    NoEffect (.pllLockRetry false hbm) s ∧
    (∀ n, d₀.summit.saving = some n →
      (d₀.on CAIRN.STATUS.FROZEN = true → Completes (.cairnSaveDone true) s fun d =>
        SMap.get none d.summit.saves n = some ⟨d₀.cairn.seq, d₀.cairn.ring⟩ ∧ d.summit.saving = none ∧ d.on CAIRN.STATUS.FROZEN = false) ∧
      Completes (.cairnSaveDone false) s fun d => d.summit.saving = none ∧ d.summit.saves = d₀.summit.saves ∧ d.cairn = d₀.cairn ∧
        d.on CAIRN.STATUS.FROZEN = d₀.on CAIRN.STATUS.FROZEN) ∧
    (d₀.summit.saving = none → ∀ ok, NoEffect (.cairnSaveDone ok) s)

/-- Warm reset, tile reset, the powered-down state, temperatures (R13, R20, R21, R22, R190, R322, R377, R448, R450, R452, R468, R469).
A write of RST_CTL by a manager port's management function with WARM and the key starts a warm reset from the running device, with
cause 2; any other write while VAUX is up only adds to REFUSED. In warm reset cores and queues are gone, the pool's ownership and
colours stay. Its end with the root clock locked loads Foothill and releases the cores. A tile reset freezes the tile's eight
ports, starts when asked for, and then no packet, run or trap of the tile is left and its ports are disabled, and ends. When the
drained cores acknowledge a power-down the device is down: every port frozen, every channel off, PWRDN and ACKED set; if
PWR_WARN_N deasserted meanwhile a warm reset of cause 4 follows at once. The temperature row records die and hottest stack, keeps
the peak, sets HOT above 105 or 95 degrees, and doubles the refresh of each stack above 85; the tile references are recorded under
lock; the Tarn initialisation ends. -/
def Obligations.WarmAndTileResetPowerDown : Prop :=
  ∀ (s : State) (m : Master) (v : W32) (t : Fin 16) (die s0 s1 s2 s3 : Fin 256) (ok : BitVec 16),
    let d₀ := s.dev
    let asks := ∃ p, m = .mgmt p ∧ d₀.mgrPort p = true ∧ v.toNat % 2 = 1 ∧ bits v.toNat 16 16 = 0x5752
    let warm (cause : Nat) (d : Dev) := d.power = .warm ∧ d.rd DEV.RST_STATUS.WARM_CAUSE = cause ∧
      d.rd DEV.RST_STATUS.WARM_COUNT = min (d₀.rd DEV.RST_STATUS.WARM_COUNT + 1) 255 ∧ d.spur.cores = [] ∧ d.sad = {} ∧ d.notch = {} ∧
      d.trv = {} ∧ d.tarn.own = d₀.tarn.own ∧ d.tarn.colour = d₀.tarn.colour ∧ d.tarn.dir = [] ∧ d.summit.mbx = [] ∧
      d.summit.flash = d₀.summit.flash
    let all (P : Nat → Prop) := ∀ k, k < 8 → P (8 * t + k)
    (d₀.power = .run → d₀.summit.grant = none → asks → Completes (.rstCtlWrite m v) s (warm 2)) ∧
    (d₀.power ≠ .vaux → ¬ asks → Completes (.rstCtlWrite m v) s fun d =>
      d.rd DEV.RST_STATUS.REFUSED = min (d₀.rd DEV.RST_STATUS.REFUSED + 1) 255 ∧ d₀.fieldsKept [DEV.RST_STATUS.REFUSED.key 0] d ∧
      { d with regs := d₀.regs } = d₀) ∧
    (d₀.power = .warm → d₀.on DEV.CLK_STATUS.ROOT_LOCK = true → d₀.summit.pdRun = false → Completes .warmResetEnd s fun d =>
      d.power = .run ∧ d.tarn.own = d₀.tarn.own ∧ d.tarn.colour = d₀.tarn.colour ∧
      (∀ a, d₀.chooseSlot 4 3 (d₀.dirBit 2) = some a → d.rd SUMMIT.BOOT_STATUS.STAGE = 4 ∧ (d₀.rd SPUR.HANDOVER.FAILED = 0 →
        ∀ c, c < 9 → (d.core c).mode = .running ∧ (d.core c).pc = 0 ∧ (d.core c).role = if c < 8 then c else 15))) ∧
    (d₀.power = .warm → d₀.on DEV.CLK_STATUS.ROOT_LOCK = false → Completes .warmResetEnd s fun d => d = { d₀ with power := .waitCore }) ∧
    (d₀.power ≠ .warm → NoEffect .warmResetEnd s) ∧
    (let st := d₀.tileRst t
     (d₀.coreUp = true → st = 0 ∨ st = 3 → Completes (.tileReset t) s fun d =>
       d.tileRst t = 1 ∧ all fun p => d.frozen p = true ∧ (d₀.frozen p = false → d.rd PORT.CTN_STATUS.CAUSE p = 9)) ∧
     (d₀.coreUp = false ∨ st = 1 ∨ st = 2 ∨ st = 4 → NoEffect (.tileReset t) s) ∧
     (d₀.coreUp = true → st = 1 → Completes (.tileResetStart t) s fun d => d.tileRst t = 2 ∧
       (∀ k ∈ d.sad.pkts, k.port / 8 = t.val → k.crossed = true) ∧ (∀ x ∈ d.sad.staged, x.port / 8 ≠ t.val) ∧
       (∀ n ∈ d.notch.runs, n.tile ≠ t.val) ∧ (∀ x ∈ d.notch.traps, x.tile ≠ t.val) ∧
       (all fun p => d.on PORT.CFG.ENABLE p = false ∧ d.on PORT.THX_CTL.ENABLE p = false) ∧ d.spur = d₀.spur ∧ d.mem = d₀.mem) ∧
     (st ≠ 1 → NoEffect (.tileResetStart t) s) ∧
     (d₀.coreUp = true → st = 2 → Completes (.tileResetEnd t) s fun d => d.tileRst t = 3 ∧
       { d with ctn := { d.ctn with tileReset := d₀.ctn.tileReset } } = d₀) ∧
     (st ≠ 2 → NoEffect (.tileResetEnd t) s)) ∧
    (d₀.summit.pdRun = true → d₀.coreUp = true → d₀.drained = true →
      (d₀.summit.pdEnd = false → Completes .powerDownAck s fun d => d.power = .down ∧ d.summit.pdRun = false ∧
        d.on SUP.STATUS.PWRDN = true ∧ d.on SPUR.PWRDN.ACKED = true ∧ d.on COL.CTL.JOIN = false ∧
        (∀ p, p < 128 → d.frozen p = true) ∧ ∀ n, n < 32 → d.on SLOT.PWR_CTL.ON n = false ∧ d.on SLOT.PWR_STATUS.PG n = false) ∧
      (d₀.summit.pdEnd = true → d₀.summit.grant = none → Completes .powerDownAck s (warm 4))) ∧
    (d₀.summit.pdRun = false ∨ d₀.coreUp = false ∨ d₀.drained = false → NoEffect .powerDownAck s) ∧
    (d₀.coreUp = true → Completes (.tempUpdate die s0 s1 s2 s3) s fun d =>
      let h := max (max s0.val s1.val) (max s2.val s3.val)
      d.rd DEV.TEMP.DIE = die ∧ d.rd DEV.TEMP.HBM = h ∧
      d.rd DEV.TEMP.DIE_PEAK = max die.val (d₀.rd DEV.TEMP.DIE_PEAK) % 256 ∧
      d.on DEV.TEMP.HOT = (d₀.on DEV.TEMP.HOT || decide (105 < die.val) || decide (95 < h)) ∧
      d.tarn.refresh2.getLsbD 0 = decide (85 < s0.val) ∧ d.tarn.refresh2.getLsbD 1 = decide (85 < s1.val) ∧
      d.tarn.refresh2.getLsbD 2 = decide (85 < s2.val) ∧ d.tarn.refresh2.getLsbD 3 = decide (85 < s3.val) ∧ d.mem = d₀.mem) ∧
    (d₀.coreUp = false → NoEffect (.tempUpdate die s0 s1 s2 s3) s) ∧
    (d₀.on DEV.CLK_STATUS.ROOT_LOCK = true → Completes (.tileRefCheck ok) s fun d =>
      d.rd DEV.CLK_STATUS.TILE_REF_OK = ok.toNat ∧ d₀.fieldsKept [DEV.CLK_STATUS.TILE_REF_OK.key 0] d ∧ { d with regs := d₀.regs } = d₀) ∧
    (d₀.on DEV.CLK_STATUS.ROOT_LOCK = false → NoEffect (.tileRefCheck ok) s) ∧
    (Completes .tarnInitialisationDone s fun d => d = { d₀ with summit := { d₀.summit with tarnInit := false } })

/-- A pool access: the checks in their order, what a refusal leaves, what a write, a read and an AtomicOp do (R143, R144, R145, R146,
R147, R148, R151, R153, R158, R159, R163, R166). While the core domain is up, for an access that has come to its pool port with
sound metadata: the first of the checks of R147 that fails (descriptor 1, tenant 2, host 3, ejection 4, permission 5, key 6, span
7, ownership 8, frozen 11, colour 9, poisoned partial write 10) refuses it: it is gone, FLT_COUNT rises, an empty fault log takes
cause, descriptor and, but for span and colour, the first byte, a memory read is completed with Completer Abort, and no byte of
the pool changes. An access that passes, in a region that is not shared, with no snoop and no waiting access in its way, is
scheduled and changes nothing else. A scheduled write writes exactly its enabled bytes; a read is completed with the bytes at its
place and their poison, and changes no byte; a FetchAdd (its type code is the model's, log entry 31) leaves the sum and is
completed with the old value. An access that is not scheduled is not performed. -/
def Obligations.TarnAccessCheckedAndPerformed : Prop :=
  ∀ (s : State) (k : Nat) (r : TarnReq) (miss : Bool), s.dev.coreUp = true → s.dev.tarnReq? k = some r → r.frame.fabric = false →
    let d₀ := s.dev
    let x := d₀.desc r.desc
    let f := r.frame
    let pool := x.pbase * 2097152 + (r.addr - x.hbase)
    let ls := linesOf pool r.len
    let checks : List (Nat × Prop) := [(1, x.valid = false), (2, r.pkt.tenant ≠ x.tenant),
      (3, ∀ h, r.host = some h → x.hosts.testBit h = false), (4, ∃ h, r.host = some h ∧ x.ejected.testBit h = true),
      (5, (r.op.reads = true ∧ x.read = false) ∨ (r.op.writes = true ∧ x.write = false)), (6, r.key ≠ x.key),
      (7, x.covers r.addr = false ∨ x.covers (r.addr + r.len - 1) = false),
      (8, ∃ l ∈ ls, (d₀.own (l / 32768)).owned = false ∨ (d₀.own (l / 32768)).owner ≠ r.desc),
      (11, ∃ l ∈ ls, d₀.lineFrozen l = true), (9, ∃ l ∈ ls, d₀.colour l ≠ x.key ∨ d₀.metaBad l = true),
      (10, r.op.writes = true ∧ ∃ l ∈ ls, d₀.linePoison l = true ∧ ¬ (pool ≤ l * 64 ∧ l * 64 + 64 ≤ pool + r.len))]
    let answer (st : Nat) (ep : Bool) (data : List Byte) := Out.completion r.pkt.port (frameRid f) (frameTag f) st ep data
    let at_ (i : Nat) := tarnBase + r.pool + i
    let old := d₀.loadBytes (tarnBase + r.pool) r.len
    let perform := Instr.tarnAccessPerform k .good
    (r.phase = .arrived → poolFrame f = true →
      (∀ (i c : Nat) (p : Prop), checks[i]? = some (c, p) → p → (∀ (j : Nat) (q : Nat × Prop), j < i → checks[j]? = some q → ¬ q.2) →
        Completes (.tarnAccess k .good miss) s fun d =>
          d.tarnReq? k = none ∧ d.rd TARN.FLT_COUNT.COUNT = min (d₀.rd TARN.FLT_COUNT.COUNT + 1) (2 ^ 32 - 1) ∧
          (d₀.on TARN.FLT_INFO.VALID = false → d.on TARN.FLT_INFO.VALID = true ∧ d.rd TARN.FLT_INFO.CAUSE = c ∧
            d.rd TARN.FLT_INFO.DESC = r.desc % 4096 ∧ d.rd TARN.FLT_INFO.TENANT = r.pkt.tenant % 512 ∧
            (c ≠ 7 → c ≠ 9 → d.rd TARN.FLT_ADDR_LO.ADDR = r.addr % 2 ^ 32 ∧ d.rd TARN.FLT_ADDR_HI.ADDR = r.addr / 2 ^ 32 % 2 ^ 32)) ∧
          (f.ftype = 0 → ∃ y, d.out = answer 4 false [] :: y) ∧ ∀ b, tarnBase ≤ b → d.byte b = d₀.byte b) ∧
      ((∀ q ∈ checks, ¬ q.2) → x.shared = false → (∀ l ∈ ls, d₀.tracked l = false) → (∀ q ∈ d₀.tarn.reqs, q.phase ≠ .waiting) →
        Completes (.tarnAccess k .good false) s fun d => d.tarnReq? k = some { r with pool := pool, phase := .sched } ∧
          { d with tarn := { d.tarn with reqs := d₀.tarn.reqs } } = d₀)) ∧
    (r.phase = .sched → d₀.writesBefore r = false →
      (f.ftype = 1 → Completes perform s fun d => d.tarnReq? k = none ∧
        (∀ i, i < r.len → d.byte (at_ i) = if byteOn f r.len i then f.data.getD (f.h5.toNat % 4 + i) 0 else d₀.byte (at_ i)) ∧
        (∀ b, b < at_ 0 ∨ at_ r.len ≤ b → d.byte b = d₀.byte b) ∧ d.out = d₀.out) ∧
      (f.ftype = 0 → Completes perform s fun d => d.tarnReq? k = none ∧ d.mem = d₀.mem ∧
        d.out = answer 0 ((linesOf r.pool r.len).any fun l => d₀.linePoison l) old :: d₀.out) ∧
      (f.ftype = 2 → f.typeCode % 32 = 12 → (∀ l ∈ linesOf r.pool r.len, d₀.linePoison l = false) →
        Completes perform s fun d => d.tarnReq? k = none ∧ d.out = answer 0 false old :: d₀.out ∧
          d.load (at_ 0) r.len = (bytesNat old + bytesNat (f.data.take r.len)) % 256 ^ r.len ∧
          ∀ b, b < at_ 0 ∨ at_ r.len ≤ b → d.byte b = d₀.byte b)) ∧
    (r.phase ≠ .sched → ∀ e, NoEffect (.tarnAccessPerform k e) s)

/-- Snoops and their answers, ejection, readahead, scrub, retirement, the end of an evacuation (R152, R153, R155, R156, R160, R162,
R163, R164, R165, R166, R167). While the core domain is up: a read of a line of a shared region that another live host owns opens
the next tracker, sends it BISnpData and waits. The last BIRsp of a tracker closes it: an owner that was asked for data keeps the
line as a sharer, and the access it held is scheduled. A BIRsp nobody waits for is only counted; a timeout nobody waits for has no
effect. A timeout ejects the host: its bit in EJECTED is set and every line of the region it held alone is poisoned. A readahead
line expires alone. A corrected line of the scrub raises its block's count, saturating at 255, and queues the block at the limit;
an uncorrectable data line is poisoned, an uncorrectable metadata line condemns the block, and either queues it; a period of 0
stops the scrub. Retirement takes the next spare of the pseudo-channel, or with none freezes it. An evacuation ends with STATE 2
and one more counted. -/
def Obligations.TarnDirectoryAndService : Prop :=
  ∀ (s : State) (k : Nat) (r : TarnReq) (h : Fin 64) (tag l : Nat) (de : Fin 4096) (blk : Fin 140624896) (j : Fin 16), s.dev.coreUp = true →
    let d₀ := s.dev
    let lone (r : TarnReq) (q : Nat) := linesOf q r.len = [l]
    (d₀.tarnReq? k = some r →
      (let x := d₀.desc r.desc
       let pool := x.poolOf r.addr
       r.phase = .arrived → poolFrame r.frame = true → r.op = .read → d₀.poolCheck r.acc = none → x.shared = true → lone r pool →
       d₀.dirEnt l = ⟨.e, [h.val]⟩ → x.ejected.testBit h = false → r.host ≠ some h.val → d₀.tarn.trackers = [] →
       (∀ q ∈ d₀.tarn.reqs, q.phase ≠ .waiting) → Completes (.tarnAccess k .good false) s fun d =>
         d.tarnReq? k = some { r with pool := pool, phase := .tracked } ∧
         d.tarn.trackers = [⟨d₀.tarn.nextTag, l, r.desc, [h.val], false, .req r.pkt.id⟩] ∧ d.tarn.nextTag = d₀.tarn.nextTag + 1 ∧
         d.out = .bisnp h d₀.tarn.nextTag l false :: d₀.out ∧ d.dirEnt l = d₀.dirEnt l ∧ d.mem = d₀.mem) ∧
      (∀ t, d₀.tarn.trackers = [t] → t.tag = tag → t.line = l → t.pending = [h.val] → t.inv = false → t.owner = .req k → r.op = .read →
        lone r r.pool → d₀.dirEnt l = ⟨.e, [h.val]⟩ → Completes (.birsp h tag) s fun d =>
          d.tarn.trackers = [] ∧ d.tarnReq? k = some { r with phase := .sched } ∧ d.dirEnt l = ⟨.s, [h.val]⟩ ∧ d.mem = d₀.mem ∧
          d.out = d₀.out)) ∧
    ((∀ t ∈ d₀.tarn.trackers, t.tag ≠ tag ∨ h.val ∉ t.pending) →
      (Completes (.birsp h tag) s fun d => d = { d₀ with tarn := { d₀.tarn with lateBirsp := d₀.tarn.lateBirsp + 1 } }) ∧
      NoEffect (.biTimeout h tag) s) ∧
    (∀ t, (d₀.tarn.trackers.find? fun t => t.tag == tag && t.pending.contains h.val) = some t → Completes (.biTimeout h tag) s fun d =>
      (d.desc t.desc).ejected.testBit h = true ∧
      (l / 32768 ∈ (d₀.desc t.desc).granules → d₀.dirEnt l = ⟨.e, [h.val]⟩ → d.linePoison l = true)) ∧
    (Completes (.readaheadExpiry h de l) s fun d => d = { d₀ with tarn := { d₀.tarn with
      ra := d₀.tarn.ra.filter fun x => x ≠ ⟨h, de, l⟩ } }) ∧
    (let hours := d₀.rd TARN.ECC_CTL.SCRUB_HOURS
     let queued (d : Dev) := ∃ x ∈ d.tarn.retireQ, x.1 = blk.val
     let n := min 255 (SMap.get 0 d₀.tarn.ce blk + 1)
     (hours = 0 → ∀ e first, NoEffect (.patrolScrub blk j e first) s) ∧
     (hours ≠ 0 →
       (∀ i, Completes (.patrolScrub blk j (.corrected i) false) s fun d => SMap.get 0 d.tarn.ce blk = n ∧
         (max 1 (d₀.rd TARN.ECC_CTL.CE_LIMIT) ≤ n → queued d) ∧ d.mem = d₀.mem) ∧
       (Completes (.patrolScrub blk j .good true) s fun d => d = { d₀ with tarn := { d₀.tarn with ce := [] } }) ∧
       (∀ i, Completes (.patrolScrub blk j (.bad i) false) s fun d => queued d ∧
         (j.val < 15 → d.linePoison (blk * 15 + j) = true) ∧ (j.val = 15 → SMap.get false d.tarn.metaBad blk = true)))) ∧
    (∀ x, (d₀.tarn.retireQ.find? fun x => x.1 == blk.val) = some x →
      let g := blk.val % 256
      let n := SMap.get 0 d₀.tarn.spares g
      (n < min 1024 (d₀.rd TARN.PART.SPARE) → Completes (.blockRetire blk) s fun d =>
        SMap.get 0 d.tarn.remap blk = n + 1 ∧ SMap.get 0 d.tarn.spares g = n + 1 ∧ (∀ y ∈ d.tarn.retireQ, y.1 ≠ blk.val) ∧
        d.mem = d₀.mem) ∧
      (min 1024 (d₀.rd TARN.PART.SPARE) ≤ n → Completes (.blockRetire blk) s fun d =>
        d.pcFrozen g = true ∧ d.tarn.remap = d₀.tarn.remap ∧ ∀ y ∈ d.tarn.retireQ, y.1 ≠ blk.val)) ∧
    ((∀ y ∈ d₀.tarn.retireQ, y.1 ≠ blk.val) → NoEffect (.blockRetire blk) s) ∧
    (∀ g b, d₀.tarn.evac = some (g, b) → Completes .evacuationDone s fun d =>
      d.rd TARN.EVAC_STATUS.STATE = 2 ∧ d.rd TARN.EVAC_STATUS.COUNT = min (d₀.rd TARN.EVAC_STATUS.COUNT + 1) 15 ∧
      d.tarn.evac = none ∧ d.tarn.evacuated = d₀.tarn.evacuated ++ [g] ∧ d.mem = d₀.mem) ∧
    (d₀.tarn.evac = none → NoEffect .evacuationDone s)

/-- The direct mailbox commands, a deadline's arming and clearing, and the read that consumes a reply (R381, R382, R384, R385, R386,
R451). While Summit works, a command waits in mailbox m of role r and it has no reply yet: PING, DEADLINE_ARM, DEADLINE_DONE and
SHUTDOWN reply OK and an opcode that no rule lists replies UNKNOWN_OP, each with the posted SEQ echoed and RESULT 0, and a core
that holds the role gets its EVENT bit. DEADLINE_ARM sets the timer of the named tenant or VF to the deadline plus 10 ms,
DEADLINE_DONE clears it, SHUTDOWN starts the power-down: PWRDN events on the cores that run or are halted, and the grace period.
Nothing else changes. Without such a command the row has no effect. A core that holds the role reads the upper half of a reply and
so frees the mailbox; without a reply, or from a core of another role, the read returns zero and consumes nothing. -/
def Obligations.SummitDirectCommands : Prop :=
  ∀ (s : State) (r : Fin 8) (m : Fin 4) (c : Fin 9),
    let d₀ := s.dev
    let b := r.val * 4 + m.val
    let w := (d₀.mbx b).word.toNat
    let op := w % 256
    let arg := w / 2 ^ 32
    let target := arg % 512 + arg / 512 % 2 * 512
    let ready := d₀.summitUp = true ∧ (d₀.mbx b).full = true ∧ (d₀.mbx b).reply = none
    let replies (status : Nat) (d : Dev) :=
      d.mbx b = { d₀.mbx b with reply := some (status + w / 256 % 256 * 256) } ∧ (∀ b', b' ≠ b → d.mbx b' = d₀.mbx b') ∧
      ∀ k, d₀.coreOfRole r = some k → (d.core k).event.getLsbD m = true
    let only (d : Dev) :=
      { d with summit := { d.summit with mbx := d₀.summit.mbx, timers := d₀.summit.timers }, spur := { d.spur with cores := d₀.spur.cores } } =
        d₀ ∧ ∀ k, { d.core k with event := (d₀.core k).event } = d₀.core k
    let timer (d : Dev) (t : Nat) := SMap.get 0 d.summit.timers t
    let timerOnly (v : Nat) (d : Dev) := timer d target = v ∧ ∀ t, t ≠ target → timer d t = timer d₀ t
    (ready →
      (op = 0x00 → Completes (.ping r m) s fun d => replies 0 d ∧ only d ∧ d.summit.timers = d₀.summit.timers) ∧
      (0x0C < op → (op < 0x20 ∨ 0x24 < op) →
        Completes (.unknownOp r m) s fun d => replies 6 d ∧ only d ∧ d.summit.timers = d₀.summit.timers) ∧
      (op = 0x06 → Completes (.deadlineArm r m) s fun d =>
        replies 0 d ∧ only d ∧ timerOnly (d₀.timeBase + (arg / 65536 % 65536 + 10) * 250000) d) ∧
      (op = 0x07 → Completes (.deadlineDone r m) s fun d => replies 0 d ∧ only d ∧ timerOnly 0 d) ∧
      (op = 0x09 → d₀.power = .run → d₀.summit.pdRun = false → Completes (.shutdown r m) s fun d =>
        replies 0 d ∧ d.summit.pdRun = true ∧ d.spur.grace = true ∧ d.mem = d₀.mem ∧ d.regs = d₀.regs ∧
        ∀ k, k < 9 → (d₀.core k).mode = .running ∨ (d₀.core k).mode = .halted → (d.core k).event.getLsbD 10 = true)) ∧
    (¬ (ready ∧ op = 0x00) → NoEffect (.ping r m) s) ∧
    (¬ (ready ∧ 0x0C < op ∧ (op < 0x20 ∨ 0x24 < op)) → NoEffect (.unknownOp r m) s) ∧
    (¬ (ready ∧ op = 0x06) → NoEffect (.deadlineArm r m) s) ∧
    (¬ (ready ∧ op = 0x07) → NoEffect (.deadlineDone r m) s) ∧
    (¬ (ready ∧ op = 0x09) → NoEffect (.shutdown r m) s) ∧
    (d₀.vauxUp = true →
      (∀ v, (d₀.core c).role = r.val → (d₀.mbx b).reply = some v → Completes (.mbxRplyRead (.core c) r m) s fun d =>
        d.mbx b = {} ∧ (∀ b', b' ≠ b → d.mbx b' = d₀.mbx b') ∧ d.out = .access (.core c) .ok (v / 2 ^ 32) :: d₀.out ∧
        { d with out := d₀.out, summit := { d.summit with mbx := d₀.summit.mbx } } = d₀) ∧
      ((d₀.core c).role ≠ r.val ∨ (d₀.mbx b).reply = none → Completes (.mbxRplyRead (.core c) r m) s fun d =>
        d = { d₀ with out := .access (.core c) .ok 0 :: d₀.out })) ∧
    (d₀.vauxUp = false → NoEffect (.mbxRplyRead (.core c) r m) s)

/-- The commands of Summit's state queue: register writes, commits, recolours, the partition, evacuations, the warm reset (R141, R145,
R146, R150, R157, R167, R384, R385, R388, R448). When the command at the front of the state queue waits in mailbox m of role r,
Summit works and no state command runs: RWL_WRITE with a count of 0 or above 16 replies BAD_ARG, with an address that is TARN.PART
or outside the allow-list REFUSED, both changing no register; one pair that names a register without an action of its own writes
its fields as Summit. REGION_COMMIT of an unlocked descriptor is accepted exactly under the conditions of R145, of a locked one
only with its key; LOCKED stores the key and zeroes the key block. The commit point puts the descriptor, the ownership of its
granules and of those it releases. RECOLOUR is BUSY during the initialisation of Tarn, BAD_ARG for colour 0 (the model's choice,
log entry 32), REFUSED for an owned granule or a range beyond REGION_TOP, and its end recolours exactly its granules, with zeroing
also their bytes, CLEAN bits and poison. PARTITION is refused while live, else sets PART and REGION_TOP. EVACUATE is refused as
R167 says, else lowers REGION_TOP and starts the copy. WARM_RESET starts a warm reset of cause 1 without a reply. Commands that
end leave the queue and reply. Out of turn none has an effect. -/
def Obligations.SummitStateQueue : Prop :=
  ∀ (s : State) (r : Fin 8) (m : Fin 4),
    let d₀ := s.dev
    let b := r.val * 4 + m.val
    let w := (d₀.mbx b).word.toNat
    let arg := w / 2 ^ 32
    let off := w / 65536 % 65536 * 64
    let par (i : Nat) := d₀.load (spurAt (off + 4 * i)) 4
    let turn (op : Nat) := d₀.summitUp = true ∧ (d₀.mbx b).full = true ∧ (d₀.mbx b).reply = none ∧ w % 256 = op ∧
      d₀.summit.stateRun = false ∧ ∃ q, d₀.summit.stateQ.head? = some q ∧ q.box = b
    let replied (status : Nat) (d : Dev) := d.mbx b = { d₀.mbx b with reply := some (status + w / 256 % 256 * 256) } ∧
      d.summit.stateRun = false ∧ d.summit.stateQ = d₀.summit.stateQ.tail
    let goesOn (d : Dev) := d.mbx b = d₀.mbx b ∧ d.summit.stateRun = true ∧ d.summit.stateQ = d₀.summit.stateQ
    let same (d : Dev) := d.regs = d₀.regs ∧ d.tarn = d₀.tarn ∧ d.mem = d₀.mem ∧ d.summit.lockKeys = d₀.summit.lockKeys
    let init := d₀.summit.tarnInit = true
    let part := 0x2200000
    let allowed (a : Nat) := a ≠ part ∧ ∃ p, d₀.summit.policy = some p ∧ ∃ x ∈ p.allow, x.1 ≤ a ∧ a ≤ x.2
    (turn 0x01 →
      (par 0 = 0 ∨ 16 < par 0 → Completes (.rwlWrite r m) s fun d => replied 1 d ∧ same d) ∧
      (1 ≤ par 0 → par 0 ≤ 16 → (∃ i, i < par 0 ∧ ¬ allowed (par (2 * i + 1))) →
        Completes (.rwlWrite r m) s fun d => replied 2 d ∧ same d) ∧
      (∀ x i, par 0 = 1 → allowed (par 1) → par 1 % 4 = 0 → d₀.place .summit (par 1) = .reg x i →
        d₀.tileWrite .summit x i (par 2) = none → d₀.coreWrite .summit x i (par 2) = none → d₀.islandWrite .summit x i (par 2) = none →
        Completes (.rwlWrite r m) s fun d => replied 0 d ∧ d.regs = (d₀.writeFields true x i (par 2)).regs ∧ d.mem = d₀.mem)) ∧
    (turn 0x02 →
      let i := arg % 4096
      let x := Desc.ofWords fun i => d₀.rd TARN.DESC_STAGE.W i
      let old := d₀.desc i
      let key := d₀.keyBlock off
      let conds := x.key ≠ 0 ∧ 21 ≤ x.subLog2 ∧ x.subLog2 ≤ 34 ∧ x.hbase % x.span = 0 ∧
        x.pbase * 2097152 + x.span ≤ d₀.rd TARN.REGION_TOP.GRANULES * 2097152 ∧ x.hosts ≠ 0 ∧
        (x.shared = true ∨ (maskHosts x.hosts).length = 1) ∧
        (d₀.tarn.descs.filter fun e => e.1 != i && e.2.valid && e.2.tenant == x.tenant).length < 16 ∧
        ∀ g ∈ x.granules, ((d₀.own g).owned = false ∨ (d₀.own g).owner = i) ∧ ((d₀.own g).clean = true ∨ (d₀.own g).tenant = x.tenant)
      let accepted (d : Dev) := goesOn d ∧ d.tarn.commit = some ⟨b, i, x, []⟩ ∧ d.tarn.descs = d₀.tarn.descs ∧ d.tarn.own = d₀.tarn.own
      (init → Completes (.regionCommit r m) s fun d => replied 3 d ∧ same d) ∧
      (¬ init → old.locked = true → d₀.lockKey i ≠ some key → Completes (.regionCommit r m) s fun d => replied 2 d ∧ same d) ∧
      (¬ init → old.locked = false ∨ d₀.lockKey i = some key →
        (x.valid = false → Completes (.regionCommit r m) s fun d => accepted d ∧ d.mem = d₀.mem) ∧
        (x.valid = true → ¬ conds → Completes (.regionCommit r m) s fun d => replied 2 d ∧ same d) ∧
        (x.valid = true → conds → x.locked = false → Completes (.regionCommit r m) s fun d => accepted d ∧ d.mem = d₀.mem) ∧
        (x.valid = true → conds → x.locked = true →
          (d₀.lockKey i ≠ none ∨ d₀.summit.lockKeys.length < 512 → Completes (.regionCommit r m) s fun d =>
            accepted d ∧ d.lockKey i = some key ∧ ∀ j, j < 32 → d.byte (spurAt (off + j)) = 0) ∧
          (d₀.lockKey i = none → 512 ≤ d₀.summit.lockKeys.length → Completes (.regionCommit r m) s fun d => replied 2 d ∧ same d)))) ∧
    (∀ x, d₀.coreUp = true → d₀.tarn.commit = some x → d₀.sweepDone x = true → Completes .commitPoint s fun d =>
      let old := d₀.desc x.index
      d.desc x.index = { x.desc with ejected := 0 } ∧ (∀ i, i ≠ x.index → d.desc i = d₀.desc i) ∧ d.tarn.commit = none ∧ d.mem = d₀.mem ∧
      ∀ g, d.own g =
        if x.desc.valid = true ∧ g ∈ x.desc.granules then
          { d₀.own g with owner := x.index, owned := true, tenant := x.desc.tenant }
        else if old.valid = true ∧ g ∈ old.granules then { d₀.own g with owned := false, clean := false } else d₀.own g) ∧
    (d₀.coreUp = false ∨ (∀ x, d₀.tarn.commit = some x → d₀.sweepDone x = false) → NoEffect .commitPoint s) ∧
    (turn 0x03 →
      let top := d₀.rd TARN.REGION_TOP.GRANULES
      let owned := ∃ x ∈ d₀.tarn.own, par 0 ≤ x.1 ∧ x.1 < par 0 + par 1 ∧ x.2.owned = true
      (init → Completes (.recolour r m) s fun d => replied 3 d ∧ same d) ∧
      (¬ init → par 2 % 16 = 0 → Completes (.recolour r m) s fun d => replied 1 d ∧ same d) ∧
      (¬ init → par 2 % 16 ≠ 0 → owned ∨ top < par 0 + par 1 → Completes (.recolour r m) s fun d => replied 2 d ∧ same d) ∧
      (¬ init → par 2 % 16 ≠ 0 → ¬ owned → par 0 + par 1 ≤ top → Completes (.recolour r m) s fun d => goesOn d ∧
        d.tarn.recolour = some ⟨b, par 0, par 1, par 2 % 16, decide (par 3 % 2 = 1)⟩ ∧
        { d.tarn with recolour := d₀.tarn.recolour } = d₀.tarn ∧ d.mem = d₀.mem)) ∧
    (∀ x, d₀.coreUp = true → d₀.tarn.recolour = some x → Completes .recolourDone s fun d =>
      let hit (g : Nat) := x.first ≤ g ∧ g < x.first + x.count
      d.tarn.recolour = none ∧
      (∀ g, SMap.get 0 d.tarn.colour g = if hit g then x.colour else SMap.get 0 d₀.tarn.colour g) ∧
      (x.zero = false → d.mem = d₀.mem ∧ d.tarn.own = d₀.tarn.own ∧ d.tarn.poison = d₀.tarn.poison) ∧
      (x.zero = true →
        (∀ a, d.byte a = if tarnBase ≤ a ∧ hit ((a - tarnBase) / 2097152) then 0 else d₀.byte a) ∧
        (∀ g, d.own g = if hit g then { d₀.own g with clean := true } else d₀.own g) ∧
        ∀ l, d.linePoison l = if hit (l / 32768) then false else d₀.linePoison l)) ∧
    (d₀.coreUp = false ∨ d₀.tarn.recolour = none → NoEffect .recolourDone s) ∧
    (turn 0x04 →
      let live := (∃ x ∈ d₀.tarn.descs, x.2.valid = true) ∨ 0 < d₀.screeUsed
      (init → Completes (.partition r m) s fun d => replied 3 d ∧ same d) ∧
      (¬ init → live → Completes (.partition r m) s fun d => replied 2 d ∧ same d) ∧
      (¬ init → ¬ live → Completes (.partition r m) s fun d => replied 0 d ∧ d.rd TARN.PART.SPARE = arg % 2048 ∧
        d.rd TARN.PART.SCREE_GIB = arg / 2048 % 32 ∧ d.rd TARN.REGION_TOP.GRANULES = d.regionTop (d₀.rd TARN.EVAC_STATUS.COUNT) % 131072 ∧
        (arg % 65536 = 64 → d₀.rd TARN.EVAC_STATUS.COUNT = 0 → d.rd TARN.REGION_TOP.GRANULES = 64365) ∧ d.tarn = d₀.tarn ∧
        d.mem = d₀.mem)) ∧
    (turn 0x05 →
      let g := arg % 256
      let n := d₀.rd TARN.EVAC_STATUS.COUNT
      let top := d₀.regionTop (n + 1)
      let no := d₀.tarn.evac ≠ none ∨ 8 ≤ n ∨ g ∈ d₀.tarn.evacuated ∨ ∃ x ∈ d₀.tarn.own, top ≤ x.1 ∧ x.2.owned = true
      (init → Completes (.evacuate r m) s fun d => replied 3 d ∧ same d) ∧
      (¬ init → no → Completes (.evacuate r m) s fun d => replied 2 d ∧ d.rd TARN.EVAC_STATUS.STATE = 3 ∧ d.rd TARN.EVAC_STATUS.PC = g ∧
        d.rd TARN.REGION_TOP.GRANULES = d₀.rd TARN.REGION_TOP.GRANULES ∧ d.tarn = d₀.tarn ∧ d.mem = d₀.mem) ∧
      (¬ init → ¬ no → Completes (.evacuate r m) s fun d => goesOn d ∧ d.rd TARN.EVAC_STATUS.STATE = 1 ∧ d.rd TARN.EVAC_STATUS.PC = g ∧
        d.rd TARN.REGION_TOP.GRANULES = top % 131072 ∧ d.tarn.evac = some (g, b) ∧ d.mem = d₀.mem)) ∧
    (turn 0x08 → d₀.power = .run → d₀.summit.grant = none → Completes (.warmReset r m) s fun d => d.power = .warm ∧
      d.rd DEV.RST_STATUS.WARM_CAUSE = 1 ∧ d.summit.mbx = [] ∧ d.spur.cores = [] ∧ d.tarn.own = d₀.tarn.own) ∧
    (¬ turn 0x01 → NoEffect (.rwlWrite r m) s) ∧ (¬ turn 0x02 → NoEffect (.regionCommit r m) s) ∧ (¬ turn 0x03 → NoEffect (.recolour r m) s) ∧
    (¬ turn 0x04 → NoEffect (.partition r m) s) ∧ (¬ turn 0x05 → NoEffect (.evacuate r m) s) ∧ (¬ turn 0x08 → NoEffect (.warmReset r m) s)

/-- Staging and activating firmware, committing a security version, a flash slot written over I3C (R372, R373, R380, R384, R393, R394,
R395, R396, R397). A flash command at the front of its queue while Summit works and none runs: FW_STAGE replies BAD_ARG for a type
other than 1 and 3, a length of 0 or beyond the image bound (the model's choice, log entry 32), REFUSED when the pool refuses the
read or a line is poisoned; else the bytes of the region go to the slot that does not run, which is empty until programming ends:
then the slot holds the image, a verified Summit image is pending and the reply is OK, a failure leaves the slot empty, and both
failures reply REFUSED with the directory unchanged. FW_ACTIVATE is REFUSED when the slot fails R372, its STATE_MIN exceeds
STATE_VER, there is no spare, or a handover runs; else the image stands in the spare and the other image area and the first role's
core is asked to hand over. A freed core that is reloaded gets the image and the next role's core is asked; with no role left the
directory names the slot, STATE_FMT is the new image's on every core and the reply is OK with RESULT 8. A reload that fails, or
one in an update that is to abort, ends it ABORTED with the roles moved. SVN_COMMIT raises the fuse version of its type to the
running image's, never lowers it (type 0: BAD_ARG, log entry 32). A flash slot is written over I3C only with I3C_FLASH or at STAGE
15 and is named only if it verifies. Without their conditions none has an effect. -/
def Obligations.FirmwareUpdate : Prop :=
  ∀ (s : State) (r : Fin 8) (m : Fin 4) (slot : Fin 6) (data : List Byte),
    let d₀ := s.dev
    let b := r.val * 4 + m.val
    let w := (d₀.mbx b).word.toNat
    let arg := w / 2 ^ 32
    let par (i : Nat) := d₀.load (spurAt (w / 65536 % 65536 * 64 + 4 * i)) 4
    let front (op : Nat) := (d₀.mbx b).full = true ∧ (d₀.mbx b).reply = none ∧ w % 256 = op ∧
      d₀.summit.flashRun = false ∧ ∃ q, d₀.summit.flashQ.head? = some q ∧ q.box = b ∧ q.wanted = true
    let turn (op : Nat) := d₀.summitUp = true ∧ front op
    let flash (d : Dev) (n : Nat) := SMap.get none d.summit.flash n
    let others (d : Dev) (n : Nat) := ∀ k, k ≠ n → flash d k = flash d₀ k
    let replied (status : Nat) (d : Dev) := d.mbx b = { d₀.mbx b with reply := some (status + w / 256 % 256 * 256) } ∧
      d.summit.flashRun = false ∧ d.summit.flashQ = d₀.summit.flashQ.tail
    let ended (status result : Nat) (d : Dev) := d.summit.flashRun = false ∧ d.summit.flashQ = d₀.summit.flashQ.tail ∧
      ∀ q, d₀.summit.flashQ.head? = some q → q.wanted = true → q.box < 32 → (d₀.mbx q.box).full = true → (d₀.mbx q.box).reply = none →
        (d.mbx q.box).reply = some (status + (d₀.mbx q.box).word.toNat / 256 % 256 * 256 + result % 2 ^ 32 * 2 ^ 32)
    let loaded (d : Dev) (im : Image) (c : Nat) := ∀ g ∈ im.segs, ∀ j, j < g.data.length → g.target < 2 →
      some (d.byte (coreBase c + g.target * 0x20000 + g.dest + j)) = g.data[j]?
    let finished (d : Dev) (im : Image) (slot : Nat) := d.summit.fw = none ∧ d.dirBit 2 = slot % 2 ∧
      d.rd SUMMIT.BOOT_STATUS.FOOTHILL_SLOT = slot % 2 ∧ (∀ c, c < 9 → d.rd SPUR.IMG_AREA.STATE_FMT c = im.stateVer % 65536) ∧
      d.summit.stateVer = im.stateVer ∧ SMap.get 0 d.summit.svnRun 3 = im.svn ∧ ended 0 8 d
    let asked (d : Dev) (c : Nat) := d.rd SPUR.HANDOVER.STATE = 1 ∧ (d.core c).outgoing = true ∧ d.spur.moving = some (c, false)
    (turn 0x0A →
      let type := par 0
      let i := par 1 % 4096
      let len := par 3
      let x := d₀.desc i
      let acc : PoolAcc :=
        { desc := i, tenant := none, key := none, host := none, device := true, addr := x.hbase + par 2, len := len, op := .read }
      let pool := x.poolOf acc.addr
      let bad := (type ≠ 1 ∧ type ≠ 3) ∨ len = 0 ∨ (if type = 1 then 262144 else 2097152) < len
      let target := if type = 1 then 1 - d₀.rd SUMMIT.BOOT_STATUS.SUMMIT_SLOT else 5 - d₀.dirBit 2
      (bad → Completes (.fwStage r m) s fun d => replied 1 d ∧ d.summit.flash = d₀.summit.flash) ∧
      (¬ bad → d₀.poolCheck acc ≠ none → Completes (.fwStage r m) s fun d => replied 2 d ∧ d.summit.flash = d₀.summit.flash) ∧
      (¬ bad → d₀.poolCheck acc = none → x.shared = false → (∀ l ∈ linesOf pool len, d₀.tracked l = false) →
        ((∃ l ∈ linesOf pool len, d₀.linePoison l = true) → Completes (.fwStage r m) s fun d =>
          replied 2 d ∧ d.summit.flash = d₀.summit.flash) ∧
        ((∀ l ∈ linesOf pool len, d₀.linePoison l = false) → Completes (.fwStage r m) s fun d =>
          d.summit.staging = some ⟨target, Image.ofBytes (d₀.loadBytes (tarnBase + pool) len), true⟩ ∧ flash d target = none ∧
          others d target ∧ d.summit.flashRun = true ∧ d.summit.flashQ = d₀.summit.flashQ ∧ d.mbx b = d₀.mbx b ∧
          d.summit.dir = d₀.summit.dir))) ∧
    (∀ x, d₀.summit.staging = some x → x.byMailbox = true → ∀ ok : Bool,
      let good := ok = true ∧ d₀.imageOk (x.slot / 2 + 1) x.image = true
      Completes (.fwStageDone ok) s fun d => d.summit.staging = none ∧ flash d x.slot = (if ok then some x.image else none) ∧
        others d x.slot ∧ (good → ended 0 0 d ∧ (x.slot < 2 → d.dirBit 3 = 1) ∧ (2 ≤ x.slot → d.summit.dir = d₀.summit.dir)) ∧
        (¬ good → ended 2 0 d ∧ d.summit.dir = d₀.summit.dir)) ∧
    (d₀.summit.staging = none → ∀ ok, NoEffect (.fwStageDone ok) s) ∧
    (d₀.coreUp = true → front 0x0B →
      let slot := arg % 2
      (d₀.slotImage (4 + slot) 3 = none → Completes (.fwActivate r m) s fun d => replied 2 d ∧ d.mem = d₀.mem ∧
        d.summit.fw = d₀.summit.fw) ∧
      ∀ im, d₀.slotImage (4 + slot) 3 = some im →
        (d₀.summit.stateVer < im.stateMin ∨ d₀.spare = 15 ∨ d₀.spur.moving ≠ none → Completes (.fwActivate r m) s fun d =>
          replied 2 d ∧ d.mem = d₀.mem ∧ d.summit.fw = d₀.summit.fw) ∧
        (∀ k c, im.stateMin ≤ d₀.summit.stateVer → d₀.spare < 9 → d₀.spur.moving = none → d₀.nextRole 0 = some k →
          d₀.coreOfRole k = some c → Completes (.fwActivate r m) s fun d =>
            let area := 1 - d₀.rd SPUR.IMG_AREA.AREA c
            loaded d im d₀.spare ∧ d.rd SPUR.IMG_AREA.AREA d₀.spare = area ∧
            (∀ g ∈ im.segs, ∀ j, j < g.data.length → g.target = 2 →
              some (d.byte (spurBase + 0x100000 * area + g.dest + j)) = g.data[j]?) ∧
            asked d c ∧ d.summit.fw = some ⟨b, slot, k, area, false, none⟩ ∧ d.summit.flashRun = true ∧ d.mbx b = d₀.mbx b ∧
            d.summit.dir = d₀.summit.dir)) ∧
    (∀ f c, d₀.summit.fw = some f → f.reloading = some c →
      (Completes (.spareReloadDone false) s fun d => d.summit.fw = none ∧ ended 5 f.moved d ∧ (d.core c).unfit = true ∧
        d.summit.dir = d₀.summit.dir ∧ d.mem = d₀.mem) ∧
      (d₀.slotImage (4 + f.slot) 3 = none → Completes (.spareReloadDone true) s fun d => d.summit.fw = none ∧ ended 5 f.moved d ∧
        (d.core c).unfit = true) ∧
      (∀ im, d₀.slotImage (4 + f.slot) 3 = some im → c < 9 →
        (f.aborted = true → Completes (.spareReloadDone true) s fun d => d.summit.fw = none ∧ ended 5 f.moved d ∧ loaded d im c ∧
          d.summit.dir = d₀.summit.dir) ∧
        (f.aborted = false → ∀ k c', d₀.nextRole f.moved = some k → d₀.coreOfRole k = some c' → Completes (.spareReloadDone true) s fun d =>
          loaded d im c ∧ d.rd SPUR.IMG_AREA.AREA c = f.area % 2 ∧ asked d c' ∧ d.summit.fw = some { f with moved := k, reloading := none } ∧
          d.summit.dir = d₀.summit.dir) ∧
        (f.aborted = false → d₀.nextRole f.moved = none → Completes (.spareReloadDone true) s fun d =>
          loaded d im c ∧ finished d im f.slot))) ∧
    (d₀.summit.fw = none ∨ (∃ f, d₀.summit.fw = some f ∧ f.reloading = none) → ∀ ok, NoEffect (.spareReloadDone ok) s) ∧
    (turn 0x0C →
      let type := arg % 4
      (type = 0 → Completes (.svnCommit r m) s fun d => replied 1 d ∧ d.summit.fuseSvn = d₀.summit.fuseSvn) ∧
      (type ≠ 0 → Completes (.svnCommit r m) s fun d => replied 0 d ∧
        SMap.get 0 d.summit.fuseSvn type = max (SMap.get 0 d₀.summit.fuseSvn type) (SMap.get 0 d₀.summit.svnRun type) ∧
        (∀ t, t ≠ type → SMap.get 0 d.summit.fuseSvn t = SMap.get 0 d₀.summit.fuseSvn t) ∧
        d.rd SUMMIT.BOOT_STATUS.FOOTHILL_SVN = SMap.get 0 d.summit.fuseSvn 3 % 64 ∧ d.mem = d₀.mem)) ∧
    (let may := d₀.vauxUp = true ∧ ((∃ p, d₀.summit.policy = some p ∧ p.i3cFlash = true) ∨ d₀.rd SUMMIT.BOOT_STATUS.STAGE = 15)
     (may → Completes (.i3cFlashWrite slot data) s fun d =>
       let im := Image.ofBytes data
       flash d slot = some im ∧ others d slot ∧
       (d₀.imageOk (slot.val / 2 + 1) im = true → d.dirBit (slot.val / 2) = slot.val % 2) ∧
       (d₀.imageOk (slot.val / 2 + 1) im = false → d.summit.dir = d₀.summit.dir) ∧ d.regs = d₀.regs ∧ d.mem = d₀.mem) ∧
     (¬ may → NoEffect (.i3cFlashWrite slot data) s)) ∧
    (¬ turn 0x0A → NoEffect (.fwStage r m) s) ∧ (¬ turn 0x0C → NoEffect (.svnCommit r m) s) ∧
    (¬ (d₀.coreUp = true ∧ front 0x0B) → NoEffect (.fwActivate r m) s)

/-- A read or a write of a register of the management space, by any master (R2, R4, R7, R471, R472, R473, R476, R478). While VAUX is
up: an access by a host port's management function that its port does not have ends in Unsupported Request, one that is not an
aligned 32-bit access or lies at a reserved offset (a core block while the core domain is down among them) ends with the status
its master gets, and none changes anything but that the debug port's are counted. An aligned access to an unoccupied offset of a
block reads zero and writes nothing. A write of a register without an action of its own gives every field the written bits as its
access code says, RWL fields only from Summit, and no other field and nothing else changes; a read of a register without an effect
on reading returns its fields at their places, write-only ones as zero, and changes nothing. Reading SUMMIT.DBG_NONCE_LO latches
the upper half for its master: a later read of the upper half by it returns what stood then, whatever the half is by now. While
VAUX is down neither row has an effect. -/
def Obligations.RegisterReadsAndWrites : Prop :=
  ∀ (s : State) (m : Master) (off : Fin 268435456) (sz : Size) (v : W64) (c : Fin 9),
    let d₀ := s.dev
    let write := Instr.registerWrite m off sz v
    let read := Instr.halfLatchRead m off sz
    let ends (st : AccStatus) (data : Nat) (i : Instr) := Completes i s fun d => d = { d₀ with out := .access m st data :: d₀.out }
    let both (st : AccStatus) := ends st 0 write ∧ ends st 0 read
    let may := (∀ p, m = .mgmt p → d₀.mgrPort p = true) ∧ m ≠ .debug
    let wide := sz = .w ∧ off.val % 4 = 0
    (d₀.vauxUp = true →
      (∀ p, m = .mgmt p → d₀.mgrPort p = false → both .ur) ∧
      (may → ¬ wide → both (match m with | .mgmt _ => .ur | .core _ => .devErr 0 | .debug => .denied | .summit => .accErr)) ∧
      (may → wide → d₀.place m off = .reserved ∨ (0x100000 ≤ off.val ∧ d₀.coreUp = false) →
        both (match m with | .mgmt _ => .ur | .core _ => .devErr 2 | .debug => .denied | .summit => .accErr)) ∧
      (may → wide → d₀.place m off = .blank → both .ok) ∧
      (∀ x i, may → wide → d₀.place m off = .reg x i →
        let w := v.toNat % 2 ^ 32
        (d₀.tileWrite m x i w = none → d₀.coreWrite m x i w = none → d₀.islandWrite m x i w = none →
          m = .summit ∨ d₀.rwlTouched x i w = false →
          Completes write s fun d =>
            (∀ f ∈ x.flds, d.rd f i = if f.acc = .ro ∨ f.acc = .wo then d₀.rd f i
              else f.written (m == .summit) (d₀.rd f i) (bits w f.lsb f.width) % 2 ^ f.width) ∧
            (∀ f j, (∀ g ∈ x.flds, f.key j ≠ g.key i) → d.rd f j = d₀.rd f j) ∧
            d.out = .access m .ok 0 :: d₀.out ∧ { d with regs := d₀.regs, out := d₀.out } = d₀) ∧
        (m ≠ .summit → (∀ f ∈ x.flds, f.acc = .rwl) → d₀.tileWrite m x i w = none → d₀.coreWrite m x i w = none →
          d₀.islandWrite m x i w = none → d₀.rwlTouched x i w = true → d₀.on CAIRN.STATUS.FROZEN = false →
          Completes write s fun d => d.rwlRefused = d₀.rwlRefused + 1 ∧ (∀ f ∈ x.flds, d.rd f i = d₀.rd f i % 2 ^ f.width) ∧
            d.mem = d₀.mem) ∧
        (d₀.cnt64 x i = none → latches x = [] → latchOf x = none → d₀.refresh x i = d₀ →
          x ∉ [.CAIRN_RD_DATA, .TARN_DESC_READ, .CNT_BW_VAL, .CNT_BW_PEAK, .SUMMIT_MBX_RPLY_LO, .SUMMIT_MBX_RPLY_HI] →
          ends .ok ((x.flds.map fun f => if f.acc = .wo then 0 else d₀.rd f i * 2 ^ f.lsb).sum) read)) ∧
      Completes (.halfLatchRead (.core c) 0x20010 .w) s fun d =>
        d.out = .access (.core c) .ok (d₀.rd SUMMIT.DBG_NONCE_LO.V) :: d₀.out ∧ d.regs = d₀.regs ∧
        ∀ t : State, t.dev.latch = d.latch → t.dev.vauxUp = true → Completes (.halfLatchRead (.core c) 0x20014 .w) t fun e =>
          e = { t.dev with out := .access (.core c) .ok (d₀.rd SUMMIT.DBG_NONCE_HI.V % 2 ^ 32) :: t.dev.out }) ∧
    (d₀.vauxUp = false → NoEffect write s ∧ NoEffect read s)

/-- Tokens, grants and what a grant lets the debug port do (R387, R389, R390, R391, R392). While Summit works, SUBMIT with a token
that passes replaces any active grant by the token's scope, locked regions and duration and clears REFUSED; one that fails sets
REFUSED with its reason and leaves the grant. END and the end of DURATION end a grant: the cores the debugger halted run again and
ACTIVE, SCOPE and REMAIN read zero; after a scan shift a cold reset of cause 5 follows. Without a grant a request outside the open
registers is denied with zero data, counted, and changes no core, memory or register but the count of records the Cairn discards.
With scope SPUR the debugger halts, steps and resumes a core and reads and writes its SRAM; with TARN it reads and writes through
a descriptor that is not locked, under the checks of R147, and a locked one is denied; with SCAN a shift zeroises the lock keys,
the IDE keys and the Notch key tables first. Without a grant END has no effect, before its time the end of DURATION has none, and
while Summit does not work no request has one. -/
def Obligations.DebugGrantsAndRequests : Prop :=
  ∀ (s : State) (m : Master) (c : Fin 9) (a v : W64) (sz : Size) (i : Fin 4096) (off : Nat) (bs : List Byte) (len : Nat)
    (o : Fin 268435456) (wr : Option W64) (wb : Option (List Byte)),
    let d₀ := s.dev
    let tok := d₀.token
    let g₀ := d₀.summit.grant
    let ask (x : DebugReq) := Completes (.debugAccess x) s
    let scope (n : Nat) := ∃ g, g₀ = some g ∧ g.scope.testBit n = true
    let denied (x : DebugReq) := ask x fun d => d.summit.denied = d₀.summit.denied + 1 ∧ d.out = .access .debug .denied 0 :: d₀.out ∧
      d.spur = d₀.spur ∧ d.mem = d₀.mem ∧ d.tarn = d₀.tarn ∧ d₀.fieldsKept [CAIRN.COUNT.DISCARDED.key 0] d
    let gone (i : Instr) := (d₀.summit.scanned = false → Completes i s fun d => d.summit.grant = none ∧ d.summit.halted = [] ∧
        d.on SUMMIT.GRANT_STATUS.ACTIVE = false ∧ d.rd SUMMIT.GRANT_STATUS.SCOPE = 0 ∧ d.rd SUMMIT.GRANT_STATUS.REMAIN = 0 ∧
        d.mem = d₀.mem ∧ d.power = d₀.power ∧
        ∀ k, (d.core k).mode = if k ∈ d₀.summit.halted ∧ (d₀.core k).mode = .halted then .running else (d₀.core k).mode) ∧
      (d₀.summit.scanned = true → d₀.power = .run → Completes i s fun d =>
        d.power = .cold ∧ d.rd DEV.RST_STATUS.COLD_CAUSE = 5 ∧ d.summit.grant = none)
    (d₀.summitUp = true →
      (∀ k, d₀.tokenBad tok = some k → Completes (.submit m) s fun d => d.on SUMMIT.GRANT_STATUS.REFUSED = true ∧
        d.rd SUMMIT.GRANT_STATUS.REASON = k ∧ d.summit = d₀.summit ∧ d.free = d₀.free + 1 ∧ d.spur = d₀.spur ∧ d.mem = d₀.mem) ∧
      (fieldAt tok 0 8 ≠ Config.serial → d₀.tokenBad tok = some 1) ∧
      (d₀.tokenBad tok = none → d₀.summit.scanned = false → Completes (.submit m) s fun d =>
        d.summit.grant = some { scope := fieldAt tok 16 4, locked := (List.range (fieldAt tok 24 2)).map fun i => fieldAt tok (32 + 36 * i) 4,
                                ends := d₀.timeBase + fieldAt tok 20 4 * 250000000 } ∧
        d.on SUMMIT.GRANT_STATUS.ACTIVE = true ∧ d.rd SUMMIT.GRANT_STATUS.SCOPE = fieldAt tok 16 4 % 32 ∧
        d.on SUMMIT.GRANT_STATUS.REFUSED = false ∧ d.rd SUMMIT.GRANT_STATUS.REASON = 0 ∧
        d.rd SUMMIT.GRANT_STATUS.REMAIN = fieldAt tok 20 4 % 2 ^ 17 ∧ d.mem = d₀.mem) ∧
      (g₀ ≠ none → gone (.endGrant m)) ∧ (g₀ = none → NoEffect (.endGrant m) s) ∧
      (g₀ = none → denied (.halt c) ∧ denied (.step c) ∧ denied (.resume c) ∧ denied (.sram c a sz wr) ∧ denied (.tarn i off wb len) ∧
        denied .scan ∧ (o.val % 4 = 0 → debugOpen o = false → denied (.reg o .w wr))) ∧
      (scope 1 → d₀.coreUp = true →
        let core (x : DebugReq) (f : SpurCore → SpurCore) (halted stepping : Bool) := ask x fun d => d.core c = f (d₀.core c) ∧
          (∀ k, k ≠ c.val → d.core k = d₀.core k) ∧ (c.val ∈ d.summit.halted ↔ halted = true) ∧
          (stepping = true → c.val ∈ d.summit.stepping) ∧ d.mem = d₀.mem ∧ d.regs = d₀.regs
        ((d₀.core c).mode = .running → core (.halt c) (fun k => { k with mode := .halted }) true false) ∧
        ((d₀.core c).mode = .halted → c.val ∈ d₀.summit.halted → core (.step c) (fun k => { k with mode := .running }) true true ∧
          core (.resume c) (fun k => { k with mode := .running }) false false) ∧
        ((d₀.core c).mode ≠ .running → NoEffect (.debugAccess (.halt c)) s) ∧ ((d₀.core c).mode ≠ .halted → NoEffect (.debugAccess (.step c)) s) ∧
        (let sram := a.toNat % sz.bytes = 0 ∧ (a.toNat < 0x10000 ∨ (0x20000 ≤ a.toNat ∧ a.toNat < 0x40000))
         let at_ := coreBase c + a.toNat
         (sram → (ask (.sram c a sz none) fun d => d = { d₀ with out := .access .debug .ok (d₀.load at_ sz.bytes) :: d₀.out }) ∧
           ask (.sram c a sz (some v)) fun d => d.load at_ sz.bytes = v.toNat % 256 ^ sz.bytes ∧
             (∀ b, b < at_ ∨ at_ + sz.bytes ≤ b → d.byte b = d₀.byte b) ∧ d.spur.cores = d₀.spur.cores) ∧
         (¬ sram → denied (.sram c a sz wr)))) ∧
      (let x := d₀.desc i
       let acc (op : TarnOp) (n : Nat) : PoolAcc :=
         { desc := i, tenant := none, key := none, host := none, device := true, addr := x.hbase + off, len := n, op := op }
       let pool := x.poolOf (x.hbase + off)
       (scope 2 → d₀.coreUp = true → x.locked = false → x.shared = false →
         (0 < len → d₀.poolCheck (acc .read len) = none → (∀ l ∈ linesOf pool len, d₀.tracked l = false ∧ d₀.linePoison l = false) →
           ask (.tarn i off none len) fun d =>
             d.out = .access .debug .ok (bytesNat (d₀.loadBytes (tarnBase + pool) len)) :: d₀.out ∧ d.mem = d₀.mem) ∧
         (bs ≠ [] → 0 < len → d₀.poolCheck (acc .write bs.length) = none → (∀ l ∈ linesOf pool bs.length, d₀.tracked l = false) →
           ask (.tarn i off (some bs) len) fun d => d.loadBytes (tarnBase + pool) bs.length = bs ∧
             ∀ b, b < tarnBase + pool ∨ tarnBase + pool + bs.length ≤ b → d.byte b = d₀.byte b)) ∧
       (x.locked = true → (∀ g, g₀ = some g → i.val ∉ g.locked) → denied (.tarn i off wb len))) ∧
      (scope 4 → ask .scan fun d => d.summit.lockKeys = [] ∧ d.summit.ideKeys = [] ∧ d.notch.range = [] ∧ d.notch.tenant = [] ∧
        d.summit.scanned = true ∧ d.mem = d₀.mem)) ∧
    (d₀.summitUp = false → NoEffect (.submit m) s ∧ NoEffect (.endGrant m) s ∧ ∀ x, NoEffect (.debugAccess x) s) ∧
    (∀ g, g₀ = some g → (g.ends ≤ d₀.timeBase → gone .grantExpiry) ∧ (d₀.timeBase < g.ends → NoEffect .grantExpiry s)) ∧
    (g₀ = none → NoEffect .grantExpiry s)

/-- What Foothill does for each manager command but QUIESCE and RELEASE, and the two registers with a refusal of their own (R116,
R145, R150, R196, R198, R203, R206, R207, R210, R214, R294, R388). While Foothill runs, for a command that stands in the page of a
manager port and has not been taken, or that the board management controller (with I3C_MGR) or a task of Foothill's own brings: it
is carried out whole and answered with its SEQ, or refused with its status and changes nothing but its page. TENANT_CREATE makes a
tenant of an existing host domain; TENANT_DESTROY removes one that is quiesced, with no VF bound and no valid descriptor; VF_ALLOT
writes TOTALVFS and BAR2_LOG2; VF_BIND binds an unbound VF of the tenant's domain; VF_UNBIND frees a quiesced one; SHARE_SET,
WEIGHT_SET and CTX_CAP_SET write the tenant's shares, weights and cap; REGION_SET and RECOLOUR become Summit's commit and recolour
while its state queue is empty; FUNC_ASSIGN writes VDSP_MAP under R294; TRVQ_SET sets a queue's windows and descriptors; QUERY
shows the tenant's state and counts (its result word is free). Which status names a bad target is the model's reading (log entry
33), that of colour 0 too (log entry 32). PF_VFS is refused and counted while VF Enable is 1 or above a sum of 512, VOQ_TEN_MIN
when the minimums would not fit. A command that stands nowhere has no effect. -/
def Obligations.ManagerCommands : Prop :=
  ∀ (s : State) (src : Fin 130) (seq : BitVec 16) (n v : Fin 512) (h : Fin 64) (total : Fin 1024) (log2 : Fin 64) (tiles : BitVec 16)
    (mn cap : Fin 131072) (wa wb : Fin 256) (cc : Fin 32768) (i : Fin 4096) (w : Vector W32 6) (first count : Fin 131072)
    (colour : Fin 16) (zero : Bool) (k : Fin 32) (dev : Fin 256) (p : Fin 128) (lo hi : BitVec 16)
    (wins : List (W64 × W64 × Bool × Fin 128)) (descs : List (Fin 4096)) (m : Master) (t : Fin 16) (x : W32),
    let d₀ := s.dev
    let pg (d : Dev) := d.mgrPage src
    let asked (op : Nat) := d₀.coreUp = true ∧ d₀.rd SUMMIT.BOOT_STATUS.STAGE = 4 ∧
      if src.val < 128 then d₀.mgrPort src = true ∧ (pg d₀).busy = true ∧ (pg d₀).taken = false ∧
        (pg d₀).cmd.headD 0 % 256 = op ∧ (pg d₀).cmd.headD 0 / 65536 % 65536 = seq.toNat
      else (pg d₀).busy = false ∧ (src.val = 129 ∨ ∃ q, d₀.summit.policy = some q ∧ q.i3cMgr = true)
    let answered (st : Nat) (d : Dev) := (pg d).busy = false ∧ (pg d).resp0 = st + seq.toNat * 65536 ∧ (pg d).resp1 = 0 ∧
      (∀ j, j ≠ src.val → d.mgrPage j = d₀.mgrPage j) ∧ ∃ y, d.out = .mgrResp src (st + seq.toNat * 65536) 0 :: y
    let rest (d : Dev) : Dev := { d with trv := { d.trv with mgr := d₀.trv.mgr }, out := d₀.out }
    let refused (c : Instr) (st : Nat) := Completes c s fun d => answered st d ∧ rest d = d₀
    let sets (c : Instr) (fs : List (Fld × Nat × Nat)) := Completes c s fun d => answered 0 d ∧
      (∀ f ∈ fs, d.rd f.1 f.2.1 = f.2.2) ∧ d₀.fieldsKept (fs.map fun f => f.1.key f.2.1) d ∧ { rest d with regs := d₀.regs } = d₀
    let goesOn (d : Dev) := (pg d).busy = true ∧ (pg d).taken = true ∧ d.summit.stateRun = true ∧ d.regs = d₀.regs
    let lives := (d₀.tenant n).exists_ = true
    let tenant (d : Dev) := d.tenant n
    let sum := (List.range 64).foldl (fun a j => if j = h.val then a else a + d₀.rd FN.PF_VFS.TOTALVFS j) 0
    let on_ := (d₀.fn (d₀.rd FN.PF_VFS.PORT h)).vfEnable = true ∧ d₀.on FN.PF_VFS.VALID h = true
    let tooMuch (t n v : Nat) := 65536 - d₀.tileLanding t - d₀.rd TILE.VOQ_SHARE.MIN t < d₀.sumMin t - d₀.rd TILE.VOQ_TEN_MIN.MIN (t * 512 + n) + v
    (asked 0x01 →
      (lives → refused (.tenantCreate src seq n h) 1) ∧
      (¬ lives → d₀.on FN.PF_VFS.VALID h = false → refused (.tenantCreate src seq n h) 2) ∧
      (¬ lives → d₀.on FN.PF_VFS.VALID h = true → Completes (.tenantCreate src seq n h) s fun d => answered 0 d ∧
        tenant d = { exists_ := true, domain := h, st := 0 } ∧ (∀ j, j ≠ n.val → d.tenant j = d₀.tenant j) ∧ d.regs = d₀.regs)) ∧
    (asked 0x02 →
      let free := (d₀.tenant n).st = 2 ∧ d₀.vfsOf n = [] ∧ ∀ y ∈ d₀.tarn.descs, ¬ (y.2.valid = true ∧ y.2.tenant = n.val)
      (¬ lives → refused (.tenantDestroy src seq n) 2) ∧ (lives → ¬ free → refused (.tenantDestroy src seq n) 5) ∧
      (lives → free → Completes (.tenantDestroy src seq n) s fun d => answered 0 d ∧ tenant d = {} ∧
        (∀ j, j ≠ n.val → d.tenant j = d₀.tenant j) ∧ d.regs = d₀.regs)) ∧
    (asked 0x03 →
      (on_ ∨ 512 < sum + total → Completes (.vfAllot src seq h total log2) s fun d => answered 1 d ∧
        d.rd FN.REFUSED.COUNT = min (d₀.rd FN.REFUSED.COUNT + 1) 65535 ∧ d.rd FN.PF_VFS.TOTALVFS h = d₀.rd FN.PF_VFS.TOTALVFS h) ∧
      (¬ on_ → sum + total ≤ 512 → Completes (.vfAllot src seq h total log2) s fun d => answered 0 d ∧ d.rd FN.PF_VFS.TOTALVFS h = total ∧
        d.rd FN.PF_VFS.BAR2_LOG2 h = log2 ∧ (∀ j, j ≠ h.val → d.rd FN.PF_VFS.TOTALVFS j = d₀.rd FN.PF_VFS.TOTALVFS j))) ∧
    (asked 0x04 →
      (¬ lives → refused (.vfBind src seq v n) 2) ∧
      (lives → d₀.on FN.VF_BIND.BOUND v = true ∨ d₀.domainOfVf v ≠ some (d₀.tenant n).domain → refused (.vfBind src seq v n) 1) ∧
      (lives → d₀.on FN.VF_BIND.BOUND v = false → d₀.domainOfVf v = some (d₀.tenant n).domain →
        sets (.vfBind src seq v n) [(FN.VF_BIND.TENANT, v.val, n.val), (FN.VF_BIND.BOUND, v.val, 1)])) ∧
    (asked 0x0F →
      (d₀.on FN.VF_BIND.BOUND v = false → refused (.vfUnbind src seq v) 2) ∧
      (d₀.on FN.VF_BIND.BOUND v = true → d₀.rd FN.VF_BIND.STATE v ≠ 2 → refused (.vfUnbind src seq v) 5) ∧
      (d₀.on FN.VF_BIND.BOUND v = true → d₀.rd FN.VF_BIND.STATE v = 2 → sets (.vfUnbind src seq v) [(FN.VF_BIND.BOUND, v.val, 0)])) ∧
    (asked 0x05 →
      (¬ lives → refused (.shareSet src seq n tiles mn cap) 2) ∧
      (lives → (∃ t, t < 16 ∧ tiles.getLsbD t = true ∧ tooMuch t n mn) → refused (.shareSet src seq n tiles mn cap) 1) ∧
      (lives → (∀ t, t < 16 → tiles.getLsbD t = true → ¬ tooMuch t n mn) → Completes (.shareSet src seq n tiles mn cap) s fun d =>
        answered 0 d ∧ (∀ t, t < 16 → tiles.getLsbD t = true → d.rd TILE.VOQ_TEN_MIN.MIN (t * 512 + n) = mn ∧
          d.rd TILE.VOQ_TEN_CAP.CAP (t * 512 + n) = cap) ∧
        (∀ t j, (j ≠ n.val ∨ tiles.getLsbD t = false) → j < 512 → d.rd TILE.VOQ_TEN_MIN.MIN (t * 512 + j) = d₀.rd TILE.VOQ_TEN_MIN.MIN (t * 512 + j) ∧
          d.rd TILE.VOQ_TEN_CAP.CAP (t * 512 + j) = d₀.rd TILE.VOQ_TEN_CAP.CAP (t * 512 + j)) ∧ { rest d with regs := d₀.regs } = d₀)) ∧
    (asked 0x06 →
      (¬ lives → refused (.weightSet src seq n wa wb) 2) ∧
      (lives → sets (.weightSet src seq n wa wb) [(SADDLE.TEN_WT.WEIGHT, n.val, wa.val), (TRV.TEN_CFG.WEIGHT, n.val, wb.val)])) ∧
    (asked 0x07 →
      (¬ lives → refused (.ctxCapSet src seq n cc) 2) ∧ (lives → sets (.ctxCapSet src seq n cc) [(CTX.TEN_CAP.CAP, n.val, cc.val)])) ∧
    (asked 0x08 → d₀.stateIdle = true →
      let y := Desc.ofWords fun k => (w.toList.getD k 0).toNat
      let ok := d₀.commitOk i y false = true ∧ ¬ (y.valid = true ∧ y.locked = true)
      (d₀.summit.tarnInit = true → refused (.regionSet src seq i w) 3) ∧
      (d₀.summit.tarnInit = false → ¬ ok → refused (.regionSet src seq i w) 4) ∧
      (d₀.summit.tarnInit = false → ok → Completes (.regionSet src seq i w) s fun d => d.tarn.commit = some ⟨1000 + src, i, y, []⟩ ∧
        (pg d).busy = true ∧ (pg d).taken = true ∧ d.summit.stateRun = true ∧ d.tarn.descs = d₀.tarn.descs ∧ d.tarn.own = d₀.tarn.own)) ∧
    (asked 0x09 → d₀.stateIdle = true →
      let owned := ∃ y ∈ d₀.tarn.own, first.val ≤ y.1 ∧ y.1 < first.val + count.val ∧ y.2.owned = true
      let above := d₀.rd TARN.REGION_TOP.GRANULES < first.val + count.val
      let c := Instr.mgrRecolour src seq first count colour zero
      (d₀.summit.tarnInit = true → refused c 3) ∧ (d₀.summit.tarnInit = false → colour.val = 0 → refused c 1) ∧
      (d₀.summit.tarnInit = false → colour.val ≠ 0 → owned ∨ above → refused c 4) ∧
      (d₀.summit.tarnInit = false → colour.val ≠ 0 → ¬ owned → ¬ above → Completes c s fun d =>
        d.tarn.recolour = some ⟨1000 + src, first, count, colour, zero⟩ ∧ goesOn d ∧ d.mem = d₀.mem)) ∧
    (asked 0x0A →
      let j := h.val * 32 + k.val
      let others := ∃ y ∈ d₀.vdspsAt dev p, y ≠ j
      let near := ∃ y ∈ d₀.vdspsAt dev p, y ≠ j ∧ y / 32 = h.val
      let here := dev.val = d₀.rd FABRIC.ID.DEV
      let own := d₀.on VSW.VDSP_MAP.VALID j = false ∨ (d₀.rd VSW.VDSP_MAP.PORT j = p.val ∧ d₀.rd VSW.VDSP_MAP.DEV j = dev.val)
      let ok := 1 ≤ k.val ∧ own ∧ (here → d₀.downstream p = true) ∧
        (if here ∧ d₀.on PORT.CFG.TRANSPARENT p = true then ¬ others else ¬ near) ∧ lo.toNat ≤ hi.toNat
      let c := Instr.funcAssign src seq h k dev p lo hi
      (d₀.on FN.PF_VFS.VALID h = false → refused c 2) ∧ (d₀.on FN.PF_VFS.VALID h = true → ¬ ok → refused c 1) ∧
      (d₀.on FN.PF_VFS.VALID h = true → ok → d₀.host.intx = [] →
        sets c [(VSW.VDSP_MAP.PORT, j, p.val), (VSW.VDSP_MAP.DEV, j, dev.val), (VSW.VDSP_MAP.VALID, j, 1)])) ∧
    (asked 0x0B →
      (4 < wins.length ∨ 4 < descs.length → refused (.trvqSet src seq i wins descs) 1) ∧
      (wins.length ≤ 4 → descs.length ≤ 4 → Completes (.trvqSet src seq i wins descs) s fun d => answered 0 d ∧
        d.queue i = { d₀.queue i with wins := wins.map fun w => ⟨w.1.toNat, w.2.1.toNat, w.2.2.1, w.2.2.2⟩, descs := descs.map (·.val) } ∧
        (∀ q, q ≠ i.val → d.queue q = d₀.queue q) ∧ d.regs = d₀.regs)) ∧
    (asked 0x0E →
      (¬ lives → refused (.query src seq n) 2) ∧
      (lives → Completes (.query src seq n) s fun d => (pg d).busy = false ∧ (pg d).resp0 = seq.toNat * 65536 ∧
        (pg d).query = [(d₀.tenant n).st, (d₀.vfsOf n).length, (d₀.tarn.descs.filter fun y => y.2.valid && y.2.tenant == n.val).length,
          ((d₀.vfsOf n).flatMap fun v => d₀.queuesOf v).length, d₀.rd CTX.TEN_USE.USED n] ∧ d.regs = d₀.regs ∧ d.mem = d₀.mem)) ∧
    (∀ c ∈ [(Instr.tenantCreate src seq n h, 0x01), (.tenantDestroy src seq n, 0x02), (.vfAllot src seq h total log2, 0x03),
        (.vfBind src seq v n, 0x04), (.shareSet src seq n tiles mn cap, 0x05), (.weightSet src seq n wa wb, 0x06),
        (.ctxCapSet src seq n cc, 0x07), (.regionSet src seq i w, 0x08), (.mgrRecolour src seq first count colour zero, 0x09),
        (.funcAssign src seq h k dev p lo hi, 0x0A), (.trvqSet src seq i wins descs, 0x0B), (.query src seq n, 0x0E),
        (.vfUnbind src seq v, 0x0F)], ¬ asked c.2 → NoEffect c.1 s) ∧
    (d₀.stateIdle = false → NoEffect (.regionSet src seq i w) s ∧ NoEffect (.mgrRecolour src seq first count colour zero) s) ∧
    (d₀.coreUp = true →
      (on_ ∨ 512 < sum + bits x.toNat 0 10 → Completes (.pfVfsWrite m h x) s fun d =>
        d.rd FN.REFUSED.COUNT = min (d₀.rd FN.REFUSED.COUNT + 1) 65535 ∧ d₀.fieldsKept [FN.REFUSED.COUNT.key 0] d ∧
        { d with regs := d₀.regs } = d₀) ∧
      (¬ on_ → sum + bits x.toNat 0 10 ≤ 512 → Completes (.pfVfsWrite m h x) s fun d =>
        (∀ f ∈ Reg.FN_PF_VFS.flds, d.rd f h = bits x.toNat f.lsb f.width) ∧ { d with regs := d₀.regs } = d₀) ∧
      (let j := d₀.rd TILE.VOQ_TEN_IDX.TENANT t
       let y := bits x.toNat 0 17
       (tooMuch t j y → Completes (.voqTenMinWrite m t x) s fun d => d.on TILE.VOQ_STATUS.MIN_REFUSED t = true ∧
         d₀.fieldsKept [TILE.VOQ_STATUS.MIN_REFUSED.key t] d ∧ { d with regs := d₀.regs } = d₀) ∧
       (¬ tooMuch t j y → Completes (.voqTenMinWrite m t x) s fun d => d.rd TILE.VOQ_TEN_MIN.MIN (t * 512 + j) = y ∧
         d₀.fieldsKept [TILE.VOQ_TEN_MIN.MIN.key (t * 512 + j)] d ∧ { d with regs := d₀.regs } = d₀))) ∧
    (d₀.coreUp = false → NoEffect (.pfVfsWrite m h x) s ∧ NoEffect (.voqTenMinWrite m t x) s)

/-- Queue registers, Bus Master Enable, function level resets, QUIESCE and RELEASE, the deadline and the forced quiesce (R199, R201,
R209, R214, R216, R217, R218, R219, R220, R268, R386). While the core domain is up: ENABLE written 1 on a disabled queue of an
enabled VF takes a context and runs, or waits with STATE 4; written 0 it cancels the transfer, frees the context and disables.
RESUME runs a stopped queue whose function may work; TAIL is kept unless STATE is 0. Clearing Bus Master Enable stops the VF's
queues with CAUSE 1 at the stopped descriptor, without a record, shows STATE 3 and signals the managers; of a PF it clears all its
VFs. An FLR puts a VF in reset-pending, its queues in STATE 3, and arms Summit's timer at 90 ms; a second is absorbed; of a PF it
runs for every VF; its completion resets function and queues and keeps binding, windows and descriptors. QUIESCE of what exists
holds its queues and, when nothing of it runs or is outstanding, with CANCEL at once, shows CAUSE 4 and answers OK; else it waits,
and at its deadline answers DEADLINE_MISSED and cancels. RELEASE lets the queues take work again. Summit's timer, when it expires,
cancels everything, quarantines a tenant's outstanding contexts, freezes a tenant with cause 4 and signals the managers. Each row
has no effect where its condition fails (the status of a missing target: log entry 33). -/
def Obligations.QueuesFunctionsAndQuiesce : Prop :=
  ∀ (s : State) (q : Fin 4096) (w : BitVec 16) (p : Fin 128) (v : Fin 512) (src : Fin 130) (seq ms : BitVec 16) (t : Fin 1024)
    (cancel : Bool),
    let d₀ := s.dev
    let k := d₀.queue q
    let vf := q.val / 8
    let fn (d : Dev) := d.fn (128 + v)
    let pg (d : Dev) := d.mgrPage src
    let others (d : Dev) := ∀ j, j ≠ q.val → d.queue j = d₀.queue j
    let signalled (d : Dev) := ∀ m ∈ d₀.mgrPorts, ∃ x y, d.out = x ++ .msix m 0 0 :: y ++ d₀.out
    let asked (op : Nat) := d₀.coreUp = true ∧ d₀.rd SUMMIT.BOOT_STATUS.STAGE = 4 ∧
      if src.val < 128 then d₀.mgrPort src = true ∧ (pg d₀).busy = true ∧ (pg d₀).taken = false ∧
        (pg d₀).cmd.headD 0 % 256 = op ∧ (pg d₀).cmd.headD 0 / 65536 % 65536 = seq.toNat
      else (pg d₀).busy = false ∧ (src.val = 129 ∨ ∃ y, d₀.summit.policy = some y ∧ y.i3cMgr = true)
    let answered (st : Nat) (d : Dev) := (pg d).busy = false ∧ (pg d).resp0 = st + seq.toNat * 65536 ∧ (pg d).resp1 = 0
    let there := if t.val < 512 then (d₀.tenant t).exists_ = true else d₀.on FN.VF_BIND.BOUND (t - 512) = true
    let vfs := if t.val < 512 then d₀.vfsOf t else [t.val - 512]
    let ofTarget (j : Nat) := j / 8 ∈ vfs
    let timer (d : Dev) := SMap.get 0 d.summit.timers t
    let marked (d : Dev) := timer d = 0 ∧ (t.val < 512 → (d.tenant t).st = 2) ∧
      (∀ j, ofTarget j → (d₀.queue j).st ≠ 0 → (d₀.queue j).st ≠ 3 → (d.queue j).st = 2 ∧ (d.queue j).cause = 4) ∧
      ∀ u ∈ vfs, d.rd FN.VF_BIND.STATE u = if d₀.rd FN.VF_BIND.STATE u = 1 then 1 else 2
    let cancelled (d : Dev) := ∀ j, ofTarget j → (d.queue j).xfer = none
    let z : Quiesce := { target := t, cancel := cancel, source := src, seq := seq.toNat, deadline := d₀.timeBase + ms.toNat * 250000 }
    (d₀.coreUp = true →
      (k.st = 0 → k.enable = false → k.holdNew = false → d₀.vfEnabled vf = true →
        ((d₀.allocCtx (d₀.queueCtx q)).isSome = true → Completes (.enable q true) s fun d => others d ∧ ∃ i e,
          d.queue q = { k with enable := true, st := 1, ctx := some i } ∧ d₀.ctx? i = none ∧ d.ctx? i = some e ∧ e.user = .queue ∧
          e.tenant = d₀.queueTenant q ∧ d.mem = d₀.mem) ∧
        (d₀.allocCtx (d₀.queueCtx q) = none → Completes (.enable q true) s fun d =>
          let pt := (d₀.vfPort vf).getD 0
          d.queue q = { k with enable := true, st := 4 } ∧ others d ∧
          d.rd CTX.PORT_USE.WAITING pt = min (d₀.rd CTX.PORT_USE.WAITING pt + 1) (2 ^ CTX.PORT_USE.WAITING.width - 1) ∧
          d₀.fieldsKept [CTX.PORT_USE.WAITING.key pt] d)) ∧
      (k.st = 1 → k.enable = true → Completes (.enable q false) s fun d => others d ∧
        d.queue q = { k with enable := false, st := 0, ctx := none, xfer := none,
                             head := match k.xfer with | some x => x.index | none => k.head } ∧
        (∀ i, k.ctx = some i → d.ctx? i = none) ∧ d.out = d₀.out ∧ d.mem = d₀.mem) ∧
      (k.st = 3 ∨ k.enable = true → NoEffect (.enable q true) s) ∧ (k.st = 3 ∨ k.enable = false → NoEffect (.enable q false) s) ∧
      (let may := k.st = 2 ∧ d₀.vfRuns vf = true ∧ k.holdNew = false ∧ d₀.tenFrozen (d₀.queueTenant q) = false
       (may → k.ctx ≠ none → Completes (.resume q) s fun d => d = d₀.setQueue q { k with st := 1, cause := 0 }) ∧
       (¬ may → NoEffect (.resume q) s)) ∧
      (k.st ≠ 0 → Completes (.tailWrite q w) s fun d => d = d₀.setQueue q { k with tail := w.toNat }) ∧
      (k.st = 0 → NoEffect (.tailWrite q w) s) ∧
      ((fn d₀).flr = false → (fn d₀).bme = true → Completes (.busMasterEnableClear p (some v)) s fun d => (fn d).bme = false ∧
        (∀ j, j / 8 = v.val → (d₀.queue j).st ≠ 0 → (d₀.queue j).st ≠ 3 → (d.queue j).st = 2 ∧ (d.queue j).cause = 1 ∧
          (d.queue j).xfer = none ∧
          (d.queue j).stopIndex = match (d₀.queue j).xfer with | some x => x.index | none => (d₀.queue j).head) ∧
        (∀ j, j / 8 ≠ v.val → d.queue j = d₀.queue j) ∧
        d.rd FN.VF_BIND.STATE v = (if d₀.rd FN.VF_BIND.STATE v = 0 then 3 else d₀.rd FN.VF_BIND.STATE v) ∧ signalled d ∧ d.mem = d₀.mem) ∧
      ((fn d₀).flr = true ∨ (fn d₀).bme = false → NoEffect (.busMasterEnableClear p (some v)) s) ∧
      (Completes (.busMasterEnableClear p none) s fun d => (d.fn p).bme = false ∧ ∀ h, d₀.domainOfPort p = some h → ∀ u ∈ d₀.vfsOfPf h,
        (d₀.fn (128 + u)).flr = false → (d.fn (128 + u)).bme = false) ∧
      ((fn d₀).flr = false → Completes (.functionLevelReset p (some v)) s fun d => fn d = { fn d₀ with flr := true } ∧
        d.rd FN.VF_BIND.STATE v = 1 ∧ (∀ i, i < 8 → d.queue (8 * v + i) = { d₀.queue (8 * v + i) with st := 3 }) ∧
        SMap.get 0 d.summit.timers (512 + v) = d₀.timeBase + 22500000 ∧ signalled d ∧ d.mem = d₀.mem) ∧
      ((fn d₀).flr = true → NoEffect (.functionLevelReset p (some v)) s) ∧
      (∀ h, d₀.domainOfPort p = some h → Completes (.functionLevelReset p none) s fun d => (d.fn p).bme = false ∧ (d.fn p).vfEnable = false ∧
        ∀ u ∈ d₀.vfsOfPf h, (d.fn (128 + u)).flr = true) ∧
      (d₀.domainOfPort p = none → Completes (.functionLevelReset p none) s fun d => d = d₀.setFn p {}) ∧
      ((fn d₀).flr = true → Completes (.flrComplete v) s fun d => fn d = {} ∧ d.rd FN.VF_BIND.STATE v = 0 ∧
        d.rd FN.VF_BIND.TENANT v = d₀.rd FN.VF_BIND.TENANT v ∧ SMap.get 0 d.summit.timers (512 + v) = 0 ∧
        (∀ i, i < 8 → d.queue (8 * v + i) = { wins := (d₀.queue (8 * v + i)).wins, descs := (d₀.queue (8 * v + i)).descs }) ∧
        d.out = d₀.out ∧ d.mem = d₀.mem) ∧
      ((fn d₀).flr = false → NoEffect (.flrComplete v) s)) ∧
    (d₀.coreUp = false → NoEffect (.enable q cancel) s ∧ NoEffect (.resume q) s ∧ NoEffect (.tailWrite q w) s ∧
      NoEffect (.busMasterEnableClear p (some v)) s ∧ NoEffect (.functionLevelReset p (some v)) s ∧ NoEffect (.flrComplete v) s) ∧
    (asked 0x0C → d₀.trv.quiesces = [] →
      (¬ there → Completes (.quiesce src seq t cancel ms) s fun d => answered 2 d ∧ d.trv.queues = d₀.trv.queues ∧ d.regs = d₀.regs) ∧
      (there →
        let quiet := d₀.targetQuiet t = true ∧ (cancel = true ∨ ∀ j, ofTarget j → (d₀.queue j).idle false = true)
        (quiet → Completes (.quiesce src seq t cancel ms) s fun d => answered 0 d ∧ marked d ∧ cancelled d ∧ d.trv.quiesces = [] ∧
          ∀ u ∈ vfs, ∀ i, i < 8 → (d.queue (8 * u + i)).holdNew = true) ∧
        (¬ quiet → Completes (.quiesce src seq t cancel ms) s fun d => d.trv.quiesces = [z] ∧ (pg d).busy = true ∧
          (t.val < 512 → (d.tenant t).st = 1) ∧ (src.val < 129 → timer d = d₀.timeBase + (ms.toNat + 10) * 250000) ∧
          (cancel = true → cancelled d) ∧ ∀ u ∈ vfs, ∀ i, i < 8 → (d.queue (8 * u + i)).holdNew = true))) ∧
    (∀ y, d₀.coreUp = true → d₀.trv.quiesces = [y] → y.target = t.val → y.source ≠ 999 → y.deadline ≤ d₀.timeBase →
      let page (d : Dev) := d.mgrPage y.source
      let cmd := (d₀.mgrPage y.source).cmd.headD 0 / 65536 % 65536 * 65536
      (d₀.quiesced y = true → Completes (.quiesceDeadline t) s fun d => marked d ∧ d.trv.quiesces = [] ∧ (page d).busy = false ∧
        (page d).resp0 = cmd) ∧
      (d₀.quiesced y = false → Completes (.quiesceDeadline t) s fun d => (page d).busy = false ∧ (page d).resp0 = 6 + cmd ∧ cancelled d)) ∧
    ((∀ y ∈ d₀.trv.quiesces, y.target ≠ t.val ∨ d₀.timeBase < y.deadline) → NoEffect (.quiesceDeadline t) s) ∧
    (asked 0x0D →
      (¬ there → Completes (.release src seq t) s fun d => answered 2 d ∧ d.trv.queues = d₀.trv.queues ∧ d.regs = d₀.regs) ∧
      (there → Completes (.release src seq t) s fun d => answered 0 d ∧ (t.val < 512 → (d.tenant t).st = 0 ∧ d.tenFrozen t = false) ∧
        (∀ u ∈ vfs, ∀ i, i < 8 → d.queue (8 * u + i) = { d₀.queue (8 * u + i) with holdNew := false }) ∧
        ∀ u ∈ vfs, d₀.rd FN.VF_BIND.STATE u = 2 → d.rd FN.VF_BIND.STATE u = if (d₀.fn (128 + u)).bme then 0 else 3)) ∧
    (¬ asked 0x0C → NoEffect (.quiesce src seq t cancel ms) s) ∧ (¬ asked 0x0D → NoEffect (.release src seq t) s) ∧
    (let due := d₀.coreUp = true ∧ timer d₀ ≠ 0 ∧ timer d₀ ≤ d₀.timeBase
     (due → Completes (.forcedQuiesce t) s fun d => marked d ∧ cancelled d ∧ signalled d ∧ (∀ y ∈ d.trv.quiesces, y.target ≠ t.val) ∧
       (t.val < 512 → d.tenFrozen t = true ∧ (d₀.tenFrozen t = false → d.rd CTN.TEN_STATUS.CAUSE t = 4) ∧
         ∀ i e, d₀.ctx? i = some e → e.tenant = t.val → e.user ≠ .queue → ∃ e', d.ctx? i = some e' ∧ e'.quarantined = true)) ∧
     (¬ due → NoEffect (.forcedQuiesce t) s))

/-- A descriptor starts, its reads go out and come back, its writes are issued, its record is written (R147, R204, R205, R206, R207,
R209, R210, R211, R212, R213). While the core domain is up: an idle engine in service starts the descriptor at HEAD of a running
queue with work whose VF may issue and whose tenant has a weight and is not frozen: HEAD goes on; a bad descriptor moves nothing,
is recorded with status 9 and stops the queue with CAUSE 2; a NOP without FLUSH has succeeded; a COPY from HOST sends reads of at
most 512 bytes that cross no 4 KiB boundary and cover its segment in order, with the engine's tags; a port that is dead ends it
with status 1. A completion places its data, an unsuccessful or poisoned one ends the transfer with its status, one whose transfer
has ended frees the late entry and is counted. Once all data of a segment is there, its writes are issued: to HOST or PEER in
pieces of at most 512 bytes and the port's maximum payload, to Tarn under R147, for FILL the pattern; COMPARE writes nothing and
ends with status 8 at the first difference; a dead port ends it with 7, a refusal with 5 or 6, an uncorrectable buffer with 10 and
the engine out of service. The record of an ended transfer is one 32-byte write, if asked and if the function may write, then its
MSI-X; a status other than 0 and 8 stops the queue with CAUSE 3. Where a condition fails the row has no effect. -/
def Obligations.TraverseTransfers : Prop :=
  ∀ (s : State) (q : Fin 4096) (e : Fin 32) (en : Fin 256) (w : Vector W64 8) (ue ep : Bool) (st : Fin 3) (data : List Byte),
    let d₀ := s.dev
    let k := d₀.queue q
    let ten := d₀.queueTenant q
    let port := d₀.vfPort (q.val / 8)
    let rid := (d₀.vfRid (q.val / 8)).getD 0
    let others (d : Dev) := ∀ j, j ≠ q.val → d.queue j = d₀.queue j
    let run (d : Dev) (x : Xfer) := (d.queue q).xfer = some x ∧ (d.queue q).st = k.st ∧ others d
    let ends (d : Dev) (x : Xfer) (st err : Nat) := run d { x with reads := [], status := some st, errAddr := err, flushing := false } ∧
      d.mem = d₀.mem
    let stops (d : Dev) (cause index : Nat) := (d.queue q).st = 2 ∧ (d.queue q).cause = cause ∧ (d.queue q).stopIndex = index ∧
      (d.queue q).xfer = none ∧ others d
    let record (x : Xfer) (p st err : Nat) := Out.hostWrite p rid x.recAddr
      (natBytes 8 (st + (1 - k.wraps % 2) * 256 + x.userTag * 2 ^ 32) ++ natBytes 8 (x.done % 2 ^ 32 + x.index % 65536 * 2 ^ 32) ++
        natBytes 8 err ++ natBytes 8 d₀.timeBase)
    let recorded (d : Dev) (x : Xfer) (st err : Nat) := (∀ p, port = some p → d₀.frozen p = false → (d₀.fn (128 + q.val / 8)).bme = true →
        d.out = (if x.irq then [Out.msix p (q / 8 + 1) (q % 8)] else []) ++ (if x.record then [record x p st err] else []) ++ d₀.out) ∧
      ((∀ p, port = some p → d₀.frozen p = true ∨ (d₀.fn (128 + q.val / 8)).bme = false) → d.out = d₀.out) ∧ d.mem = d₀.mem
    let dead (p : Nat) := d₀.portDead p = true
    -- a descriptor starts
    (let ring := 2 ^ min 15 (max 4 k.size)
     let may := d₀.coreUp = true ∧ k.st = 1 ∧ k.xfer = none ∧ k.head ≠ k.tail % ring ∧ d₀.vfRuns (q / 8) = true ∧
       (d₀.rd TRV.ENG_STATUS.FAULTED).testBit e = false ∧ (∀ y ∈ d₀.trv.queues, ∀ x, y.2.xfer = some x → x.engine ≠ e.val) ∧
       d₀.tenFrozen ten = false
     let x : Xfer := { engine := e, index := k.head, words := w.toList.map (·.toNat), done := 0, reads := [], nextEntry := 0,
                       status := none, errAddr := 0, flushing := false }
     let go (P : Dev → Prop) := Completes (.descriptorStart q e w) s fun d => (d.queue q).head = (k.head + 1) % ring ∧ P d
     (may → d₀.rd TRV.TEN_CFG.WEIGHT ten ≠ 0 →
       (x.bad k.descs = true → go fun d => stops d 2 k.head ∧ recorded d x 9 0) ∧
       (x.bad k.descs = false →
         (x.op = 0 → x.flush = false → go fun d => run d { x with status := some 0 } ∧ d.out = d₀.out ∧ d.mem = d₀.mem) ∧
         (x.op = 2 → x.dstSpace ≠ 1 → go fun d => run d x ∧ d.out = d₀.out ∧ d.mem = d₀.mem) ∧
         (∀ p, x.op = 1 → x.srcSpace = 0 → x.dstSpace ≠ 1 → port = some p →
           (dead p → go fun d => ends d x 1 x.src) ∧
           (¬ dead p → 14 ≤ SMap.get 14 d₀.trv.tagBits p → go fun d => ∃ rs, run d { x with reads := rs, nextEntry := rs.length % 256 } ∧
             (rs.map (·.len)).sum = min x.len (4096 - x.dst % 4096) ∧ d.mem = d₀.mem ∧
             ∀ j r, rs[j]? = some r → r.entry = j % 256 ∧ r.port = some p ∧ r.off = ((rs.take j).map (·.len)).sum ∧ r.data = none ∧
               1 ≤ r.len ∧ r.len ≤ 512 ∧ (x.src + r.off) % 4096 + r.len ≤ 4096 ∧
               .hostRead p rid (e * 512 + r.entry * 2) (x.src + r.off) r.len ∈ d.out)))) ∧
     (¬ may → NoEffect (.descriptorStart q e w) s)) ∧
    -- a completion of a read
    (∀ x r, d₀.queueOfEngine e = some q.val → k.xfer = some x → x.flushing = false →
      (x.reads.find? fun r => r.entry == en.val && r.data.isNone && !d₀.readWaits r) = some r →
      let comp := Instr.engineReadCompletion e en st ep data
      let err := (if r.ofDst then x.dst else x.src) + x.done + r.off
      (∀ p, r.port = some p → r.ctx = none →
        (st.val = 0 → ep = false → data.length = r.len → Completes comp s fun d =>
          run d { x with reads := x.reads.map fun y => if y.entry = r.entry then { r with data := some data, ctx := none } else y } ∧
          d.mem = d₀.mem ∧ d.out = d₀.out) ∧
        (st.val ≠ 0 → Completes comp s fun d => ends d x st err) ∧ (st.val = 0 → ep = true → Completes comp s fun d => ends d x 3 err)) ∧
      (r.port = none →
        let i := if r.ofDst then x.dstDesc else x.srcDesc
        let acc : PoolAcc := { desc := i, tenant := some ten, key := none, host := none, device := true,
                               addr := (d₀.desc i).hbase + err, len := max 1 r.len, op := .read }
        let pool := (d₀.desc i).poolOf acc.addr
        (∀ c a, d₀.poolCheck acc = some (c, a) → Completes comp s fun d => (d.queue q).xfer = some
          { x with reads := [], status := some (if c = 9 then 6 else 5), errAddr := a, flushing := false }) ∧
        (d₀.poolCheck acc = none → (d₀.desc i).shared = false → (∀ l ∈ linesOf pool (max 1 r.len), d₀.tracked l = false) →
          (∀ l ∈ linesOf pool r.len, d₀.linePoison l = false) → Completes comp s fun d =>
            run d { x with reads := x.reads.map fun y =>
              if y.entry = r.entry then { y with data := some (d₀.loadBytes (tarnBase + pool) r.len), ctx := none } else y } ∧
            d.mem = d₀.mem))) ∧
    (let comp := Instr.engineReadCompletion e en st ep data
     let key := e.val * 256 + en.val
     (d₀.queueOfEngine e = none →
       (∀ l p, (d₀.trv.late.find? fun l => l.key == key) = some l → l.port = some p → l.ctx = none → Completes comp s fun d =>
         d.trv.late = (d₀.trv.late.filter fun l => l.key != key) ∧
         d.rd PORT.CTN_COUNT.LATE_ENGINE p = min (d₀.rd PORT.CTN_COUNT.LATE_ENGINE p + 1) 65535 ∧ d.mem = d₀.mem ∧ d.out = d₀.out) ∧
       ((∀ l ∈ d₀.trv.late, l.key ≠ key) → NoEffect comp s))) ∧
    -- the writes of a segment
    (∀ x, k.xfer = some x →
      let n := min (x.len - x.done) (4096 - (x.dst + x.done) % 4096)
      let may := d₀.coreUp = true ∧ k.st = 1 ∧ x.status = none ∧ (∀ r ∈ x.reads, r.data ≠ none) ∧ d₀.vfRuns (q / 8) = true
      let bytes := if x.op = 2 then (List.range n).map fun i => BitVec.ofNat 8 (x.src / 256 ^ ((x.done + i) % 8))
        else (x.reads.filter fun r => r.ofDst == false).flatMap fun r => r.data.getD []
      let against := (x.reads.filter fun r => r.ofDst == true).flatMap fun r => r.data.getD []
      let last := x.len ≤ x.done + n ∧ x.flush = false
      let beyond (d : Dev) := run d { x with done := x.done + n, status := some 0, reads := [] }
      (may →
        (Completes (.segmentWrite q true) s fun d => ends d x 10 (x.dst + x.done) ∧
          (d.rd TRV.ENG_STATUS.FAULTED).testBit x.engine = decide (x.engine < 32)) ∧
        (x.op = 3 → last → (bytes = against → Completes (.segmentWrite q false) s fun d => beyond d ∧ d.mem = d₀.mem ∧ d.out = d₀.out) ∧
          ∀ i, bytes.length = against.length → i < bytes.length → bytes[i]? ≠ against[i]? → (∀ j, j < i → bytes[j]? = against[j]?) →
            Completes (.segmentWrite q false) s fun d => ends d x 8 (x.done + i) ∧ d.out = d₀.out) ∧
        (x.op = 1 ∨ x.op = 2 →
          (∀ p, x.dstSpace = 0 → port = some p →
            (dead p → Completes (.segmentWrite q false) s fun d => ends d x 7 (x.dst + x.done) ∧ d.out = d₀.out) ∧
            (¬ dead p → last → bytes.length = n → d₀.theox p = false → 128 ≤ SMap.get 128 d₀.host.mps p →
              Completes (.segmentWrite q false) s fun d => beyond d ∧ d.mem = d₀.mem ∧ ∃ ws : List (Nat × List Byte),
                d.out = (ws.map fun w => Out.hostWrite p rid w.1 w.2).reverse ++ d₀.out ∧ ws.flatMap (·.2) = bytes ∧
                ∀ j w, ws[j]? = some w → w.1 = x.dst + x.done + ((ws.take j).map (·.2.length)).sum ∧ w.2.length ≤ 512 ∧
                  w.2.length ≤ SMap.get 128 d₀.host.mps p)) ∧
          (x.dstSpace = 2 →
            let acc : PoolAcc := { desc := x.dstDesc, tenant := some ten, key := none, host := none, device := true,
                                   addr := (d₀.desc x.dstDesc).hbase + (x.dst + x.done), len := n, op := .write }
            let pool := (d₀.desc x.dstDesc).poolOf acc.addr
            (∀ c a, d₀.poolCheck acc = some (c, a) → Completes (.segmentWrite q false) s fun d => (d.queue q).xfer = some
              { x with reads := [], status := some (if c = 9 then 6 else 5), errAddr := a, flushing := false }) ∧
            (d₀.poolCheck acc = none → (d₀.desc x.dstDesc).shared = false → (∀ l ∈ linesOf pool n, d₀.tracked l = false) → last →
              bytes.length = n → Completes (.segmentWrite q false) s fun d => beyond d ∧ d.loadBytes (tarnBase + pool) n = bytes ∧
                ∀ b, b < tarnBase + pool ∨ tarnBase + pool + n ≤ b → d.byte b = d₀.byte b)))) ∧
      (¬ may → NoEffect (.segmentWrite q ue) s) ∧
      -- the record
      (∀ st, x.status = some st → st < 256 → d₀.coreUp = true → x.flushing = false → Completes (.completionRecord q) s fun d =>
        recorded d x st x.errAddr ∧ (st ≠ 0 → st ≠ 8 → k.st = 1 → stops d 3 x.index) ∧
        (st = 0 ∨ st = 8 → (d.queue q).xfer = none ∧ (d.queue q).st = k.st ∧ others d)) ∧
      (x.status = none ∨ d₀.coreUp = false ∨ x.flushing = true → NoEffect (.completionRecord q) s)) ∧
    (k.xfer = none → NoEffect (.segmentWrite q ue) s ∧ NoEffect (.completionRecord q) s)

/-- A Theox port: its control register, training, flits, replay, sparing (R222, R223, R224, R225, R229, R230, R231, R233, R234, R235,
R236, R237). While the core domain is up: THX_CTL takes THEOX, RATE128 and SPARED only while ENABLE is 0, and ENABLE starts
training from T.DISABLED or ends it there. Detect, training blocks and timeouts move the port through the states of R223; in
T.CONFIG an identity fault refuses the link and a matching block records the partner; T.ACTIVE begins with sequence numbers at 0
and the credits of R231; a recovery that fails freezes the port with cause 6. A flit that is not good or out of sequence is
answered with NAK; a good one acknowledges, returns credits, and NAK replays, four times the same flit leads to T.RECOVERY, more
than 64 replays in 1 ms freeze the port with cause 6; control and payload flits advance the sequence; a payload of one whole frame
delivers that frame, one of a reserved KIND is discarded and counted, a stomped continuation too. Sparing asks the partner,
switches at the next good flit with an acknowledgement, and freezes the port with cause 7 when exhausted; a request drives the
lane on lane 15 until the acknowledgement. Rows out of their state have no effect. -/
def Obligations.TheoxLinksTrainFlitsSpares : Prop :=
  ∀ (s : State) (m : Master) (p : Fin 128) (v : W32) (lanes : Fin 17) (b : List Byte) (crcOk reversed inverted done : Bool)
    (lane width : Fin 16) (lost : Option (Fin 16)) (x : Flit),
    let d₀ := s.dev
    let t := d₀.thx p
    let state (d : Dev) := d.rd PORT.THX_STATUS.STATE p
    let st := state d₀
    let th := d₀.coreUp = true ∧ d₀.theox p = true
    let used := d₀.on PORT.THX_STATUS.SPARE_USED p = true
    let froze (cause : Nat) (d : Dev) := d.frozen p = true ∧ (d₀.frozen p = false → d.rd PORT.CTN_STATUS.CAUSE p = cause)
    let begun (rate : Bool) (d : Dev) := state d = 5 ∧ d.on PORT.THX_STATUS.RATE p = rate ∧ (d.thx p).tx = 0 ∧ (d.thx p).rx = 0 ∧
      (d.thx p).flight = [] ∧ (∀ i, i < 24 → SMap.get 0 d.sad.thxCredit (p * 32 + i) = 16) ∧ SMap.get 0 d.sad.thxCredit (thxShared p) = 2048
    let ctl (d : Dev) (f : Fld) := d.rd f p
    (d₀.coreUp = true → v.toNat.testBit 16 = false → Completes (.thxCtlWrite m p v) s fun d =>
      (∀ f ∈ [PORT.THX_CTL.THEOX, PORT.THX_CTL.RATE128, PORT.THX_CTL.SPARED],
        ctl d f = if d₀.on PORT.THX_CTL.ENABLE p then ctl d₀ f else bits v.toNat f.lsb f.width) ∧
      (∀ f ∈ [PORT.THX_CTL.ENABLE, PORT.THX_CTL.SPARE_THR, PORT.THX_CTL.SPARE_LANE], ctl d f = bits v.toNat f.lsb f.width) ∧
      (d.theox p = false → state d = st) ∧
      (d.theox p = true → v.toNat.testBit 3 = true → state d = if st = 0 then 1 else st) ∧
      (d.theox p = true → v.toNat.testBit 3 = false → state d = 0 ∧ (st = 5 ∨ st = 6 → d.frozen p = true))) ∧
    (d₀.coreUp = false → NoEffect (.thxCtlWrite m p v) s) ∧
    (th → st = 1 → 4 ≤ lanes.val → Completes (.theoxDetect p lanes) s fun d => state d = 2 ∧ d.mem = d₀.mem ∧ d.out = d₀.out) ∧
    (¬ (th ∧ st = 1 ∧ 4 ≤ lanes.val) → NoEffect (.theoxDetect p lanes) s) ∧
    (let block := Instr.trainingBlock p b crcOk lane width reversed inverted done lost
     let w := width.val % 4
     let settled := done = true ∧ w ≠ 0
     let alien := fieldAt b 4 1 ≠ d₀.rd FABRIC.ID.FABRIC ∨ fieldAt b 5 1 = d₀.rd FABRIC.ID.DEV
     let fast := d₀.on PORT.THX_CTL.RATE128 p = true ∧ (fieldAt b 2 1).testBit 1 = true
     (th → crcOk = true →
       (st = 2 → Completes block s fun d => (settled → state d = 3) ∧ (¬ settled → state d = 2)) ∧
       (st = 3 → alien → Completes block s fun d => state d = 7 ∧ d.on PORT.THX_STATUS.ID_FAULT p = true) ∧
       (st = 3 → ¬ alien → Completes block s fun d => d.rd PORT.THX_STATUS.PEER_DEV p = fieldAt b 5 1 ∧
         d.rd PORT.THX_STATUS.PEER_PORT p = fieldAt b 6 1 % 128 ∧
         (lane.val < 2 ^ d₀.maxWidth p → d.on LANE.ADAPT_STATUS.RX_POL_AUTO (laneOf p lane) = inverted ∧
           d.on PORT.PHY_STATUS.REVERSED p = reversed) ∧
         (settled → d.rd PORT.THX_STATUS.WIDTH p = w ∧ (fast → state d = 4) ∧ (¬ fast → begun false d)) ∧ (¬ settled → state d = 3)) ∧
       (st = 4 → Completes block s fun d => (done = true → begun true d) ∧ (done = false → state d = 4)) ∧
       (st = 6 → lost = none → Completes block s fun d => state d = if done then 5 else 6) ∧
       (∀ l, st = 6 → lost = some l →
         (t.spared = true → ¬ used → Completes block s fun d => d.on PORT.THX_STATUS.SPARE_USED p = true ∧
           d.rd PORT.THX_STATUS.SPARED_LANE p = l ∧ state d = if done then 5 else 6) ∧
         (t.spared = false ∨ used → Completes block s (froze 7)))) ∧
     (¬ th ∨ crcOk = false ∨ st = 0 ∨ st = 1 ∨ st = 5 ∨ st = 7 → NoEffect block s)) ∧
    (th →
      (st = 2 ∨ st = 3 → Completes (.theoxTrainingTimeout p) s fun d => state d = 1 ∧ d.mem = d₀.mem) ∧
      (st = 4 → Completes (.theoxTrainingTimeout p) s (begun false)) ∧
      (st = 6 → Completes (.theoxTrainingTimeout p) s fun d => state d = 1 ∧ froze 6 d)) ∧
    (¬ th ∨ st = 0 ∨ st = 1 ∨ st = 5 ∨ st = 7 → NoEffect (.theoxTrainingTimeout p) s) ∧
    (th → st = 5 → x.corrected = [] →
      let lc := fieldAt x.bytes 236 6
      let ack := lc / 4096 % 4096
      let ltype := lc / 2 ^ 25 % 8
      let key := if lc / 2 ^ 31 % 4 = 3 then thxShared p else p * 32 + lc / 2 ^ 28 % 8 * 3 + lc / 2 ^ 31 % 4
      let inOrder := lc % 4096 = t.rx
      let flit := Completes (.theoxFlit p x) s
      let refused (d : Dev) := d.out = .nak p ((t.rx + 4095) % 4096) :: d₀.out ∧ (d.thx p).rx = t.rx ∧ d.sad.pkts = d₀.sad.pkts ∧
        state d = 5 ∧ d.mem = d₀.mem
      let quiet := t.sparing = 0 ∧ lc.testBit 24 = false
      (x.good = false → flit refused) ∧
      (x.good = true → quiet → ltype ≠ 0 → ltype ≠ 3 → flit fun d => d.out = d₀.out ∧ (d.thx p).rx = t.rx ∧
        (d.thx p).flight = (t.flight.filter fun f => decide (2048 ≤ (ack + 4096 - f.last) % 4096)) ∧
        SMap.get 0 d.sad.thxCredit key = SMap.get 0 d₀.sad.thxCredit key + lc / 2 ^ 33 % 2048 ∧ d.sad.pkts = d₀.sad.pkts ∧ d.regs = d₀.regs) ∧
      (x.good = true → quiet → ltype = 0 ∨ ltype = 3 → ¬ inOrder → flit refused) ∧
      (x.good = true → quiet → ltype = 3 → inOrder → flit fun d => (d.thx p).rx = (t.rx + 1) % 4096 ∧ d.out = d₀.out ∧
        d.sad.pkts = d₀.sad.pkts) ∧
      (∀ n, x.good = true → t.sparing = n + 1 → lc.testBit 24 = false → ltype = 1 → flit fun d => d.out = .spare p true n :: d₀.out ∧
        d.on PORT.THX_STATUS.SPARE_USED p = true ∧ d.rd PORT.THX_STATUS.SPARED_LANE p = n % 16 ∧ (d.thx p).sparing = 0) ∧
      (x.good = true → t.sparing = 0 → lc.testBit 24 = true → ltype = 1 →
        let seq := (ack + 1) % 4096
        let recent := (t.replays.filter fun r => decide (d₀.timeBase - r ≤ 250000)).length
        (recent < 64 → t.nakSeq ≠ seq ∨ t.naks < 3 → flit fun d => d.out = .replay p seq :: d₀.out ∧ state d = 5) ∧
        (recent < 64 → t.nakSeq = seq → 3 ≤ t.naks → flit fun d => state d = 6) ∧ (64 ≤ recent → flit (froze 6))) ∧
      (x.good = true → quiet → ltype = 0 → inOrder →
        let h := fieldAt x.bytes 224 8
        let valid := h.testBit 0
        let cont := h.testBit 1
        let kind := fieldAt x.bytes 0 2 % 8
        let len := fieldAt x.bytes 0 2 / 8
        let next := (len + 3) / 2 * 2
        let one := valid = true ∧ cont = false ∧ t.rest = 0 ∧ kind ≠ 0 ∧ 0 < len ∧ len ≤ 222 ∧
          (224 < next + 2 ∨ fieldAt x.bytes next 2 % 8 = 0)
        (valid = false → t.rest = 0 → flit fun d => (d.thx p).rx = (t.rx + 1) % 4096 ∧ d.sad.pkts = d₀.sad.pkts ∧ d.out = d₀.out) ∧
        (valid = false → 0 < t.rest → cont = false → h.testBit 2 = true → flit fun d => d.fab.stomped = d₀.fab.stomped + 1 ∧
          d.fab.badFrames = d₀.fab.badFrames ∧ (d.thx p).rest = 0 ∧ d.sad.pkts = d₀.sad.pkts) ∧
        (one → 4 < kind → flit fun d => d.fab.badFrames = d₀.fab.badFrames + 1 ∧ d.sad.pkts = d₀.sad.pkts ∧ (d.thx p).rest = 0) ∧
        (∀ f, one → kind ≤ 4 → x.frames = [f] → flit fun d => ∃ e : Dev, e.regs = d₀.regs ∧ e.sad.pkts = d₀.sad.pkts ∧ e.out = d₀.out ∧
          (e.thx p).rx = (t.rx + 1) % 4096 ∧ d = e.frameIn p { f with fabric := true, h14 := BitVec.ofNat 64 h,
                                                                      h15 := BitVec.ofNat 64 (fieldAt x.bytes 232 4) } .good))) ∧
    (¬ (th ∧ st = 5) → NoEffect (.theoxFlit p x) s) ∧
    (th →
      let now := Completes (.spareNow p lane) s
      let written (d : Dev) := ctl d PORT.THX_CTL.SPARE_LANE = lane
      (st = 5 → lane.val < 15 → t.spared = true → ¬ used → t.sparing = 0 → now fun d => written d ∧ (d.thx p).sparing = lane + 1 ∧
        d.out = .spare p false lane :: d₀.out ∧ d.mem = d₀.mem) ∧
      (st = 5 → lane.val < 15 → t.spared = false ∨ used → now fun d => written d ∧ froze 7 d) ∧
      (st ≠ 5 ∨ lane.val = 15 → now fun d => written d ∧ d₀.fieldsKept [PORT.THX_CTL.SPARE_LANE.key p] d ∧ { d with regs := d₀.regs } = d₀)) ∧
    (th → st = 5 → lane.val < 15 → Completes (.spareReq p lane) s fun d => d = d₀.setThx p { t with driving := lane + 1 }) ∧
    (¬ (th ∧ st = 5 ∧ lane.val < 15) → NoEffect (.spareReq p lane) s) ∧
    (th → t.driving = lane.val + 1 → Completes (.spareAck p lane) s fun d => d.on PORT.THX_STATUS.SPARE_USED p = true ∧
      d.rd PORT.THX_STATUS.SPARED_LANE p = lane ∧ (d.thx p).driving = 0 ∧
      d₀.fieldsKept [PORT.THX_STATUS.SPARE_USED.key p, PORT.THX_STATUS.SPARED_LANE.key p] d ∧ d.out = d₀.out ∧ d.mem = d₀.mem) ∧
    (¬ (th ∧ t.driving = lane.val + 1) → NoEffect (.spareAck p lane) s) ∧ (¬ th → NoEffect (.spareNow p lane) s)

/-- Fabric identity, routes and holds, notices, Col messages and rings, fabric time (R221, R245, R249, R250, R251, R252, R255, R257,
R258, R260, R262, R420). While the core domain is up: a write of FABRIC.ID that changes DEV or FABRIC while a Theox port is active
keeps both and sets REFUSED. A route write with DRAIN, or during a hold, starts the hold; the hold ends when DRAIN_WAIT has passed
and no earlier segment is outstanding, and what waited may go. A gathered notice goes when its 10 µs end, with the payload of
R250, or is counted without a route. A notice received is counted and reported, and ends the running descriptor its write belongs
to with WRITE_DISCARDED. Slot messages set EVENT.SLOT and reach the vDSPs of the sending port. A Col message goes to its unit, to
the receive ring and its role's doorbell, or is counted. A ring frame is dropped on a bad CRC, spent hops or its own source,
delivered if it is for this member, sent on with one hop less otherwise. The transmit ring sends up to TAIL by byte 7. CAIRN_REQ
is answered in messages of 7 records. An exchange of TIME_SYNC measures the delay and, on the source's link, shows the offset and
moves the time base by at most one tick or, when due, sets it; STEP sets it; a lost source means holdover. JOIN opens or closes
the bypass. While the core domain is down none has an effect. -/
def Obligations.FabricColAndTime : Prop :=
  ∀ (s : State) (w : Master) (v : W32) (dev dest : Fin 256) (port p : Fin 128) (tenant : Fin 512) (a : Fin 3) (k : Fin 2)
    (bs : List Byte) (from_ : Option (Fin 256 × Fin 128)) (ev : BitVec 8) (cause : Fin 8) (first count : BitVec 16)
    (rtt : Fin 131072) (ahead : Int) (on_ : Bool),
    let d₀ := s.dev
    let n := v.toNat
    let regsOnly (ks : List Nat) (d : Dev) := d₀.fieldsKept ks d ∧ { d with regs := d₀.regs } = d₀
    let counted (e : Dev) := d₀.fieldsKept [] e ∧ { e with regs := d₀.regs, cnt := { e.cnt with count := d₀.cnt.count } } = d₀
    let told (f : Fld) (b : Nat) (d : Dev) := ∀ c, c < 9 → d₀.on f c = true → (d.core c).event.getLsbD b = true
    let link (j : Nat) := d₀.rd COL.LINK_STATUS.STATE j
    let thxUp (q : Nat) := d₀.on PORT.THX_CTL.THEOX q = true ∧ (d₀.rd PORT.THX_STATUS.STATE q = 5 ∨ d₀.rd PORT.THX_STATUS.STATE q = 6)
    let ringed (j hops : Nat) (m : List Byte) (e d : Dev) := (link j = 2 → d.out = .ring j (ringFrame j hops m) :: e.out) ∧
      (link j ≠ 2 → d.out = e.out)
    let hold := SMap.get 0 d₀.fab.holds dev
    let slave := d₀.on FABRIC.TIME_CTL.ENABLE = true ∧ d₀.on FABRIC.TIME_CTL.MASTER = false
    let source (src : Nat) := slave ∧ d₀.rd FABRIC.TIME_CTL.SOURCE = src ∧ (src < 2 ∨ d₀.rd FABRIC.TIME_CTL.THX_PORT = p)
    let lost (d : Dev) := d.on FABRIC.TIME_STATUS.HOLDOVER = true ∧ d.on FABRIC.TIME_STATUS.LOCKED = false
    (d₀.coreUp = true →
      -- identity and routes
      (let c := Instr.fabricIdWrite w v
       let moved := bits n 0 8 ≠ d₀.rd FABRIC.ID.DEV ∨ bits n 8 8 ≠ d₀.rd FABRIC.ID.FABRIC
       let refused := moved ∧ ∃ q, q < 128 ∧ thxUp q
       (refused → Completes c s fun d => d.rd FABRIC.ID.DEV = d₀.rd FABRIC.ID.DEV % 256 ∧ d.rd FABRIC.ID.FABRIC = d₀.rd FABRIC.ID.FABRIC % 256 ∧
         d.on FABRIC.ID.REFUSED = true) ∧
       (¬ refused → Completes c s fun d => d.rd FABRIC.ID.DEV = bits n 0 8 ∧ d.rd FABRIC.ID.FABRIC = bits n 8 8 ∧
         (n.testBit 21 = true → d.on FABRIC.ID.REFUSED = false)) ∧
       Completes c s fun d => d.rd FABRIC.ID.HOPS_INIT = bits n 16 5 ∧
         regsOnly ([FABRIC.ID.DEV, FABRIC.ID.FABRIC, FABRIC.ID.HOPS_INIT, FABRIC.ID.REFUSED].map (·.key 0)) d) ∧
      (Completes (.fabricRouteWrite w dev v) s fun d => (∀ f ∈ Reg.FABRIC_ROUTE.flds, d.rd f dev = bits n f.lsb f.width) ∧
        (n.testBit 31 = true ∨ hold ≠ 0 → SMap.get 0 d.fab.holds dev = d₀.timeBase + 1 ∧ d.on FABRIC.ROUTE_CTL.DRAINING = true) ∧
        (n.testBit 31 = false ∧ hold = 0 → regsOnly (Reg.FABRIC_ROUTE.flds.map (·.key dev)) d) ∧ d.sad = d₀.sad ∧ d.out = d₀.out) ∧
      (let beyond := hold ≠ 0 ∧ max 1 (d₀.rd FABRIC.ROUTE_CTL.DRAIN_WAIT) * 250 ≤ d₀.timeBase - (hold - 1) ∧ d₀.oldSegments dev = false
       (beyond → Completes (.routeDrainEnd dev) s fun d => SMap.get 0 d.fab.holds dev = 0 ∧
         (∀ q : Nat, q ≠ dev → SMap.get 0 d.fab.holds q = SMap.get 0 d₀.fab.holds q) ∧
         d.sad.pkts = (d₀.sad.pkts.map fun x => if x.held = some dev.val then { x with held := none } else x) ∧
         d.on FABRIC.ROUTE_CTL.DRAINING = !d.fab.holds.isEmpty ∧ d₀.fieldsKept [FABRIC.ROUTE_CTL.DRAINING.key 0] d ∧ d.out = d₀.out) ∧
       (¬ beyond → NoEffect (.routeDrainEnd dev) s)) ∧
      -- posted-discard notices
      (let send := Instr.pdNoticeSend dev port tenant
       let key := d₀.fab.pd.find? fun x => x.same dev port tenant
       (∀ x, key = some x → 2500 ≤ d₀.timeBase - x.sentAt →
         (x.count = 0 → Completes send s fun d => (d.fab.pd.find? fun x => x.same dev port tenant) = none ∧ d.out = d₀.out ∧ d.regs = d₀.regs) ∧
         (0 < x.count → Completes send s fun d =>
           (d.fab.pd.find? fun x => x.same dev port tenant) = some { x with count := 0, sentAt := d₀.timeBase } ∧
           (d₀.routeTo dev = true → (∃ m, d.out = .fabric dev port 7 4 none m :: d₀.out ∧ msgType m = 1 ∧ msgDst m = dev ∧
             msgPayload m = natBytes 8 x.addr ++ natBytes 2 x.rid ++ natBytes 2 (min x.count 0xFFFF) ++ natBytes 1 x.reason ++
               natBytes 1 port ++ natBytes 2 tenant ++ natBytes 1 (d₀.rd FABRIC.ID.DEV) ++ natBytes 1 (x.dport % 128)) ∧
             d.rd FABRIC.PD_COUNT.SENT = min (d₀.rd FABRIC.PD_COUNT.SENT + 1) 65535) ∧
           (d₀.routeTo dev = false → d.out = d₀.out ∧ d.rd FABRIC.DROP.NOROUTE = min (d₀.rd FABRIC.DROP.NOROUTE + 1) 65535))) ∧
       (key = none ∨ (∃ x, key = some x ∧ d₀.timeBase - x.sentAt < 2500) → NoEffect send s)) ∧
      (Completes (.pdNotice bs) s fun d =>
        let addr := fieldAt bs 0 8
        let rid := fieldAt bs 8 2
        let src := fieldAt bs 13 1 % 128
        let b := d₀.bump FABRIC.PD_COUNT.RCVD 0
        let e := b.report { type := 16, kind := 0, index := fieldAt bs 17 1 % 128, addr := addr, rid := rid, tenant := fieldAt bs 14 2 % 512,
                            port := src, dev := fieldAt bs 16 1 } (b.domainsAt src)
        (e.vfOfRid rid = none → d = e) ∧
        (∀ f, e.vfOfRid rid = some f →
          (e.xferAt f addr = none → d = e.bump TRV.TEN_DISCARD_LATE.COUNT (e.rd FN.VF_BIND.TENANT f)) ∧
          (∀ q x, e.xferAt f addr = some q → (e.queue q).xfer = some x →
            (d.queue q).xfer = some { x with reads := [], status := some 7, errAddr := addr, flushing := false }))) ∧
      -- slot messages and other Col messages
      (Completes (.slotEvt dev port ev) s fun d => told SPUR.EVSEL.SLOT 7 d ∧
        (∀ i, i ∈ d₀.vdspsAt dev port → d.vdsp i = (d₀.vdsp i).slotEvt ev.toNat) ∧ (∀ i, i ∉ d₀.vdspsAt dev port → d.vdsp i = d₀.vdsp i) ∧
        d.regs = d₀.regs ∧ d.mem = d₀.mem) ∧
      (Completes (.pwrAlert dev port cause) s fun d => told SPUR.EVSEL.SLOT 7 d ∧
        (∀ i, d.vdsp i = if i ∈ d₀.vdspsAt dev port ∧ cause.val < 5 then (d₀.vdsp i).slotFault else d₀.vdsp i) ∧
        d.regs = d₀.regs ∧ d.mem = d₀.mem) ∧
      (let c := Instr.colMessageReceive a from_ bs
       let t := msgType bs
       let pl := msgPayload bs
       let ring := 2 ^ min 8 (max 4 (d₀.rd COL.RX_CTL.SIZE))
       let tail := d₀.rd COL.RX_STATUS.TAIL % ring
       let full := (tail + 1) % ring = d₀.rd COL.RX_STATUS.HEAD % ring
       let foothill := t = 6 ∨ t = 7 ∨ t = 8 ∨ t = 10 ∨ 128 ≤ t
       (t = 1 → exec c s = exec (.pdNotice pl) s) ∧
       (∀ x, from_ = some x → t = 2 → exec c s = exec (.slotEvt x.1 x.2 (BitVec.ofNat 8 (fieldAt pl 1 1))) s) ∧
       (∀ x, from_ = some x → t = 3 → fieldAt pl 1 1 = cause → exec c s = exec (.pwrAlert x.1 x.2 cause) s) ∧
       (t = 4 → NoEffect c s) ∧
       (t = 9 → msgSrc bs = dest → fieldAt pl 0 2 = first.toNat → fieldAt pl 2 2 = count.toNat →
         exec c s = exec (.cairnReq a dest first count) s) ∧
       (foothill → full → Completes c s fun d => d.on COL.RX_STATUS.OVERFLOW = true ∧ regsOnly [COL.RX_STATUS.OVERFLOW.key 0] d) ∧
       (foothill → ¬ full → 8 ≤ bs.length → bs.length ≤ 256 → Completes c s fun d =>
         d.loadBytes (spurAt (d₀.rd COL.RX_CTL.BASE * 256 + tail * 256)) bs.length = bs.set 7 (BitVec.ofNat 8 a) ∧
         d.rd COL.RX_STATUS.TAIL = (tail + 1) % ring ∧ d₀.fieldsKept [COL.RX_STATUS.TAIL.key 0] d ∧ d.out = d₀.out ∧
         ∀ r, d₀.coreOfRole (d₀.rd COL.RX_CTL.ROLE) = some r → (d.core r).event.getLsbD 4 = true) ∧
       (t = 0 ∨ t = 5 ∨ (10 < t ∧ t < 128) → Completes c s fun d => d = { d₀ with fab := { d₀.fab with colReserved := d₀.fab.colReserved + 1 } })) ∧
      -- the Col ring
      (let c := Instr.colRingFrame k bs
       let body := (bs.drop 1).take (bs.length - 5)
       let m := body.drop 1
       let hops := fieldAt bs 1 1 / 2
       let good := fieldAt bs 0 1 = 0xC5 ∧ 22 ≤ bs.length ∧ ringCrc body = fieldAt bs (bs.length - 4) 4
       let dead := hops = 0 ∨ msgSrc m = d₀.rd FABRIC.ID.DEV
       let mine := if msgBySerial m then fieldAt m 16 8 = Config.serial else msgDst m = d₀.rd FABRIC.ID.DEV
       (link k = 2 → ¬ good → Completes c s fun d =>
         d.rd COL.LINK_STATUS.CRC_ERR k = min (d₀.rd COL.LINK_STATUS.CRC_ERR k + 1) 255 ∧ regsOnly [COL.LINK_STATUS.CRC_ERR.key k] d) ∧
       (link k = 2 → good → Completes c s fun d => ∃ e, counted e ∧
         (dead → d = e) ∧ (¬ dead → mine → msgBcast m = false → d = e.colIn k none m) ∧
         (¬ dead → ¬ mine → msgBcast m = false → ringed (1 - k) (hops - 1) m e d ∧ { d with out := e.out } = e) ∧
         (¬ dead → msgBcast m = true → d = (e.colIn k none m).ringSend (1 - k) (hops - 1) m)) ∧
       (link k ≠ 2 → NoEffect c s)) ∧
      (Completes (.colTx w v) s fun d =>
        let size := 2 ^ min 8 (max 4 (bits n 14 4))
        let head := d₀.rd COL.TX_STATUS.HEAD % size
        let tail := bits n 18 8 % size
        let x := d₀.loadBytes (spurAt (bits n 0 14 * 256 + head * 256)) 256
        let m := x.take 12 ++ natBytes 4 d₀.timeBase ++ msgPayload x
        d.rd COL.TX_STATUS.HEAD % size = tail ∧ (∀ f ∈ Reg.COL_TX_CTL.flds, d.rd f = bits n f.lsb f.width) ∧ d.mem = d₀.mem ∧
        (head = tail → d.out = d₀.out) ∧
        ((head + 1) % size = tail → (msgRoute x = 0 → ringed 0 31 m d₀ d) ∧ (msgRoute x = 1 → ringed 1 31 m d₀ d) ∧
          (msgRoute x = 2 → link 0 = 2 → link 1 = 2 → d.out = .ring 1 (ringFrame 1 31 m) :: .ring 0 (ringFrame 0 31 m) :: d₀.out) ∧
          (msgRoute x = 3 → d₀.routeTo (msgDst m) = true → d.out = .fabric (msgDst m) 0 7 4 none m :: d₀.out) ∧
          (msgRoute x = 3 → d₀.routeTo (msgDst m) = false → d.out = d₀.out) ∧ (3 < msgRoute x → d.out = d₀.out))) ∧
      (a.val < 2 → link a = 2 → Completes (.cairnReq a dest first count) s fun d =>
        let c := min 8192 count.toNat
        d.mem = d₀.mem ∧ d.regs = d₀.regs ∧ ∃ ms : List (List Byte), ms.length = (c + 6) / 7 ∧
          d.out = (ms.map fun m => Out.ring a (ringFrame a 31 m)).reverse ++ d₀.out ∧
          ∀ j m, ms[j]? = some m → msgType m = 10 ∧ msgDst m = dest ∧
            let r := min 7 (c - 7 * j)
            let i := (first.toNat + 7 * j) % 8192
            (msgPayload m).take (16 + 32 * r) = natBytes 2 i ++ natBytes 1 r ++
              natBytes 1 ((d₀.on CAIRN.STATUS.FROZEN).toNat + if c ≤ 7 * (j + 1) then 2 else 0) ++
              natBytes 2 (d₀.rd CAIRN.STATUS.WR_IDX) ++ List.replicate 10 0 ++ (List.range r).flatMap fun y => (d₀.cairnAt (i + y)).bytes) ∧
      -- fabric time
      (let c := Instr.timeSync a p rtt ahead
       let up := if a.val < 2 then link a = 2 else thxUp p ∧ d₀.theox p = true ∧ d₀.rd PORT.THX_STATUS.STATE p = 5
       let delay : Int := Int.ofNat (rtt.val / 2) + (if a.val < 2 then signed16 (d₀.rd COL.LINK_CTL.ASYM a) else 0)
       let off := ahead + delay
       let sat : Int := max (-32768) (min 32767 off)
       (up → Completes c s fun d =>
         (a.val < 2 → d.rd COL.LINK_STATUS.DELAY a = (max 0 delay).toNat % 65536) ∧
         (source a → d.rd FABRIC.TIME_STATUS.OFFSET = (sat + 65536).toNat % 65536 ∧
           d.on FABRIC.TIME_STATUS.LOCKED = decide (off.natAbs ≤ 2000) ∧ d.on FABRIC.TIME_STATUS.HOLDOVER = false ∧
           (1000000 < off.natAbs → d.on FABRIC.TIME_STATUS.OFFSET_BIG = true) ∧
           (d₀.fab.stepDue = true → d.timeBase = (Int.ofNat d₀.timeBase + off / 4000).toNat % 2 ^ 64 ∧ d.fab.stepDue = false) ∧
           (d₀.fab.stepDue = false → d.timeBase = d₀.timeBase ∨ d.timeBase = (d₀.timeBase + 1) % 2 ^ 64)) ∧
         (¬ source a → d.timeBase = d₀.timeBase ∧ d₀.fieldsKept [COL.LINK_STATUS.DELAY.key a] d) ∧ d.mem = d₀.mem ∧ d.out = d₀.out) ∧
       (¬ up → NoEffect c s)) ∧
      (slave → Completes (.step w ahead) s fun d => d.timeBase = (Int.ofNat d₀.timeBase + ahead / 4000).toNat % 2 ^ 64 ∧ d.regs = d₀.regs ∧
        d.mem = d₀.mem ∧ d.out = d₀.out) ∧
      (¬ slave → NoEffect (.step w ahead) s ∧ NoEffect .timeSourceLoss s) ∧
      (slave → Completes .timeSourceLoss s fun d => lost d ∧
        regsOnly [FABRIC.TIME_STATUS.HOLDOVER.key 0, FABRIC.TIME_STATUS.LOCKED.key 0] d) ∧
      -- the bypass and the Col links
      (let was := d₀.on COL.CTL.JOIN
       (Completes (.join w on_) s fun d => d.on COL.CTL.JOIN = on_ ∧
        (on_ = true → was = false → d.out = .pin .colBypass 1 false :: .pin .colBypass 0 false :: d₀.out ∧
          d.rd COL.LINK_STATUS.STATE 0 = 1 ∧ d.rd COL.LINK_STATUS.STATE 1 = 1) ∧
        (on_ = was → d₀.fieldsKept [COL.CTL.JOIN.key 0] d ∧ d.out = d₀.out) ∧
        (on_ = false → was = true → d.out = .pin .colBypass 1 true :: .pin .colBypass 0 true :: d₀.out ∧ told SPUR.EVSEL.LINK 8 d ∧
          d.rd COL.LINK_STATUS.STATE 0 = 0 ∧ d.rd COL.LINK_STATUS.STATE 1 = 0 ∧
          (slave → d₀.rd FABRIC.TIME_CTL.SOURCE < 2 → lost d)) ∧ d.mem = d₀.mem) ∧
       (was = true → link k = 2 → Completes (.colLossOfSignal k) s fun d => d.rd COL.LINK_STATUS.STATE k = 3 ∧ told SPUR.EVSEL.LINK 8 d ∧
         (source k → lost d) ∧ (¬ source k → d₀.fieldsKept [COL.LINK_STATUS.STATE.key k] d) ∧ d.mem = d₀.mem ∧ d.out = d₀.out) ∧
       (¬ (was = true ∧ link k = 2) → NoEffect (.colLossOfSignal k) s) ∧
       (was = true → link k = 1 ∨ link k = 3 → Completes (.colTrainingDone k) s fun d => d.rd COL.LINK_STATUS.STATE k = 2 ∧
         told SPUR.EVSEL.LINK 8 d ∧ d₀.fieldsKept [COL.LINK_STATUS.STATE.key k] d ∧ d.mem = d₀.mem ∧ d.out = d₀.out) ∧
       (¬ (was = true ∧ (link k = 1 ∨ link k = 3)) → NoEffect (.colTrainingDone k) s))) ∧
    (d₀.coreUp = false → ∀ i ∈ [Instr.fabricIdWrite w v, .fabricRouteWrite w dev v, .routeDrainEnd dev, .pdNoticeSend dev port tenant,
      .pdNotice bs, .slotEvt dev port ev, .pwrAlert dev port cause, .colMessageReceive a from_ bs, .colRingFrame k bs, .colTx w v,
      .cairnReq a dest first count, .timeSync a p rtt ahead, .step w ahead, .timeSourceLoss, .join w on_, .colLossOfSignal k,
      .colTrainingDone k], NoEffect i s)

/-- Freezes by software, context overrun, completion timeouts, quarantine, release (R201, R214, R263, R265, R266, R268, R271, R272,
R277, R278). While the core domain is up: a software freeze of a port takes cause 9, of a tenant cause 5; SEEN gets the cause,
CAUSE only the first; a port that was not frozen reads FROZEN and not READY and every context whose request left through it is
quarantined or gone; the queues of a tenant's bound VFs have no transfer and, if running or waiting, take STATE 2 with CAUSE 4. A
context overrun freezes the tenant with cause 3 only with CTX_TRIG. A timeout of a context completes the request toward its
requester, CA for a host-side and UR for a device-side one, quarantines the context and with CTO_TRIG freezes the port with cause
4; that of an engine read ends the transfer with READ_TIMEOUT. A quarantine's end frees the context or the entry. CTN.RELEASE
releases a domain whose preconditions hold and answers 0, else changes only its own fields and answers 1, 2 or 3. Where a row's
own condition fails, or the core domain is down, it has no effect. -/
def Obligations.ContainmentFreezesTimesOutReleases : Prop :=
  ∀ (s : State) (w : Master) (p : Fin 128) (n index : Fin 512) (k : Nat) (kind : Fin 4) (i : Fin 16384) (e : Fin 32) (en : Fin 256),
    let d₀ := s.dev
    let gone (j : Nat) (d : Dev) := d.ctx? j = none ∨ ∃ c, d.ctx? j = some c ∧ c.quarantined = true
    let froze (q cause : Nat) (d : Dev) := d.frozen q = true ∧ (d.rd PORT.CTN_STATUS.SEEN q).testBit (cause - 1) = true ∧
      (d₀.frozen q = false → d.rd PORT.CTN_STATUS.CAUSE q = cause ∧ d.on PORT.CTN_STATUS.READY q = false ∧
        ∀ j c, d₀.ctx? j = some c → c.user ≠ .queue → c.egress = q → gone j d) ∧
      (d₀.frozen q = true → d.rd PORT.CTN_STATUS.CAUSE q = d₀.rd PORT.CTN_STATUS.CAUSE q)
    let frozeTenant (t cause : Nat) (d : Dev) := d.tenFrozen t = true ∧ (d.rd CTN.TEN_STATUS.SEEN t).testBit (cause - 1) = true ∧
      (d₀.tenFrozen t = false → d.rd CTN.TEN_STATUS.CAUSE t = cause ∧
        ∀ v q, d₀.on FN.VF_BIND.BOUND v = true → d₀.rd FN.VF_BIND.TENANT v = t → q / 8 = v →
          (d.queue q).xfer = none ∧ (d₀.queue q = {} ∨ (d₀.queue q).st = 0 ∨ (d₀.queue q).st = 3 ∨
            (d.queue q).st = 2 ∧ (d.queue q).cause = 4)) ∧
      (d₀.tenFrozen t = true → d.rd CTN.TEN_STATUS.CAUSE t = d₀.rd CTN.TEN_STATUS.CAUSE t)
    let timeout (x : TimedReq) := Instr.completionTimeout x
    (d₀.coreUp = true →
      Completes (.portCtnFreeze w p) s (froze p 9) ∧
      (d₀.frozen p = true → Completes (.portCtnFreeze w p) s fun d => d₀.fieldsKept [PORT.CTN_STATUS.SEEN.key p] d ∧
        { d with regs := d₀.regs } = d₀) ∧
      Completes (.tenantFreeze w n) s (frozeTenant n 5) ∧
      (d₀.tenFrozen n = true → Completes (.tenantFreeze w n) s fun d => d₀.fieldsKept [CTN.TEN_STATUS.SEEN.key n] d ∧
        { d with regs := d₀.regs } = d₀) ∧
      -- context overrun
      (∀ x, d₀.pkt? k = some x → x.phase = .ctxWait → d₀.rd CTX.TEN_CAP.CAP x.tenant ≤ d₀.rd CTX.TEN_USE.USED x.tenant →
        (d₀.on CTN.TEN_CTL.CTX_TRIG x.tenant = true → Completes (.contextOverrun k) s (frozeTenant x.tenant 3)) ∧
        (d₀.on CTN.TEN_CTL.CTX_TRIG x.tenant = false → Completes (.contextOverrun k) s fun d =>
          d.tenFrozen x.tenant = d₀.tenFrozen x.tenant ∧ d.trv.queues = d₀.trv.queues ∧ d.pkt? k = some x)) ∧
      (∀ x, d₀.pkt? k = some x → x.phase ≠ .ctxWait ∨ d₀.rd CTX.TEN_USE.USED x.tenant < d₀.rd CTX.TEN_CAP.CAP x.tenant →
        NoEffect (.contextOverrun k) s) ∧
      -- timeouts
      (∀ c, d₀.ctx? i = some c →
        let timed := c.quarantined = false ∧ c.user ≠ .queue ∧ c.user ≠ .engine ∧ c.egress < 128
        let st := if c.srcHost then 4 else 1
        let trig := d₀.on PORT.CTN_CTL.CTO_TRIG c.egress = true
        (timed → Completes (timeout (.ctx i)) s fun d =>
          (c.origDev = d₀.rd FABRIC.ID.DEV → ∃ x y, d.out = x ++ .completion c.origPort c.origRid c.origTag st false [] :: y ++ d₀.out) ∧
          (c.origDev ≠ d₀.rd FABRIC.ID.DEV → d₀.routeTo c.origDev = true →
            ∃ x y, d.out = x ++ .fabric c.origDev c.origPort 0 1 c.trk [BitVec.ofNat 8 st] :: y ++ d₀.out) ∧
          (trig → froze c.egress 4 d ∧ gone i d) ∧
          (¬ trig → d.frozen c.egress = d₀.frozen c.egress ∧ d.ctx? i = some { c with quarantined := true })) ∧
        (¬ timed → NoEffect (timeout (.ctx i)) s)) ∧
      (d₀.ctx? i = none → NoEffect (timeout (.ctx i)) s) ∧
      (∀ q x r port, d₀.queueOfEngine e = some q → (d₀.queue q).xfer = some x →
        (x.reads.find? fun r => r.entry == en.val && r.data.isNone && !d₀.readWaits r && r.port.isSome) = some r → r.port = some port →
        Completes (timeout (.read e en)) s fun d =>
          (d₀.on PORT.CTN_CTL.CTO_TRIG port = true → froze port 4 d) ∧
          (d₀.on PORT.CTN_CTL.CTO_TRIG port = false → d.frozen port = d₀.frozen port ∧ (d.queue q).xfer = some
            { x with reads := [], status := some 4, flushing := false,
                     errAddr := (if r.ofDst then x.dst else x.src) + (if x.flushing then r.off else x.done + r.off) } ∧
            ∀ j, r.ctx = some j → gone j d)) ∧
      (d₀.queueOfEngine e = none → NoEffect (timeout (.read e en)) s) ∧
      -- the end of a quarantine
      (∀ c, d₀.ctx? i = some c →
        (c.quarantined = true → Completes (.quarantineEnd (.ctx i)) s fun d => d.ctx? i = none ∧ (∀ j : Nat, j ≠ i → d.ctx? j = d₀.ctx? j) ∧
          d.rd CTX.STATUS.QUARANTINED = (d₀.rd CTX.STATUS.QUARANTINED - 1) % 2 ^ CTX.STATUS.QUARANTINED.width ∧ d.out = d₀.out ∧
          d.mem = d₀.mem) ∧
        (c.quarantined = false → NoEffect (.quarantineEnd (.ctx i)) s)) ∧
      (d₀.ctx? i = none → NoEffect (.quarantineEnd (.ctx i)) s) ∧
      (let key := e.val * 256 + en.val
       (∀ l, (d₀.trv.late.find? fun l => l.key == key) = some l → Completes (.quarantineEnd (.read e en)) s fun d =>
         d.trv.late = d₀.trv.late.filter (fun y => y.key != key) ∧ (∀ j, l.ctx = some j → d.ctx? j = none) ∧ d.out = d₀.out ∧ d.mem = d₀.mem) ∧
       ((∀ l ∈ d₀.trv.late, l.key ≠ key) → NoEffect (.quarantineEnd (.read e en)) s)) ∧
      -- release
      (let c (knd : Fin 4) := Instr.ctnRelease w knd index
       let own : List Nat := [CTN.RELEASE.KIND, CTN.RELEASE.INDEX, CTN.RELEASE.STATUS].map (·.key 0)
       let refused (knd : Fin 4) (st : Nat) := Completes (c knd) s fun d => d.rd CTN.RELEASE.STATUS = st ∧ d.rd CTN.RELEASE.KIND = knd ∧
         d.rd CTN.RELEASE.INDEX = index ∧ d₀.fieldsKept own d ∧ { d with regs := d₀.regs } = d₀
       let released (knd : Fin 4) (freed : Dev → Prop) := Completes (c knd) s fun d => d.rd CTN.RELEASE.STATUS = 0 ∧ freed d ∧
         (∀ q, d.frozen q = true → d₀.frozen q = true) ∧ (∀ q, d.tenFrozen q = true → d₀.tenFrozen q = true)
       let ready := SMap.get false d₀.ctn.trained index = true ∧ d₀.linkUp index = true ∧ d₀.portTrig index = false ∧ d₀.dpcClear index = true
       let tile := d₀.on CTN.TILE_STATUS.FROZEN index = true
       let again := d₀.tileRst index = 3 ∧ d₀.testPassed 0 index = true
       let moved := d₀.rd TARN.EVAC_STATUS.STATE = 2 ∧ d₀.rd TARN.EVAC_STATUS.PC = index
       (128 ≤ index.val → refused 0 3) ∧ (index.val < 128 → d₀.frozen index = false → refused 0 1) ∧
       (index.val < 128 → d₀.frozen index = true → ready → released 0 fun d => d.frozen index = false ∧ d.on PORT.CTN_STATUS.READY index = false) ∧
       (index.val < 128 → d₀.frozen index = true → ¬ ready → refused 0 2) ∧
       (d₀.tenFrozen index = false → refused 1 1) ∧ (d₀.tenFrozen index = true → released 1 fun d => d.tenFrozen index = false) ∧
       (16 ≤ index.val → refused 2 3) ∧ (index.val < 16 → ¬ tile → refused 2 1) ∧
       (index.val < 16 → tile → again → released 2 fun d => d.on CTN.TILE_STATUS.FROZEN index = false ∧ d.tileRst index = 0) ∧
       (index.val < 16 → tile → ¬ again → refused 2 2) ∧
       (256 ≤ index.val → refused 3 3) ∧ (index.val < 256 → d₀.pcFrozen index = false → refused 3 1) ∧
       (index.val < 256 → d₀.pcFrozen index = true → moved → released 3 fun d => d.pcFrozen index = false) ∧
       (index.val < 256 → d₀.pcFrozen index = true → ¬ moved → refused 3 2))) ∧
    (d₀.coreUp = false → ∀ c ∈ [Instr.portCtnFreeze w p, .tenantFreeze w n, .contextOverrun k, .ctnRelease w kind index, timeout (.ctx i),
      timeout (.read e en), .quarantineEnd (.ctx i), .quarantineEnd (.read e en)], NoEffect c s) ∧
    (d₀.pkt? k = none → NoEffect (.contextOverrun k) s)

/-- Ports: bifurcation, configuration, links up and down, resets, DLLPs, power states (R263, R274, R275, R283, R284, R285, R286, R287,
R288, R289, R319, R320). While the core domain is up: a change of BIFUR.MODE is refused unless every port of the tile is disabled
and frozen; a write of PORT.CFG takes ROLE, CXL, MAXRATE and TRANSPARENT only while ENABLE is 0, is refused for a 65th upstream
port or a slot another port names, trains a downstream port when it enables it and takes down the link of one it disables. A link
trains only where R285 allows; it comes up at the rate, width and flit mode of R286, with the credits the partner gives, CXL or
fallback as R287 says, and raises a link event. Down: an upstream port resets (cause 11, windows and PTM cleared, transparent
ports below hot reset and frozen), a downstream port freezes with cause 2 and its slot turns off, a Theox port freezes with cause
2. DLLPs return credits, acknowledge, replay (the fourth replay of one TLP retrains the link) and move the power state. L0p,
CLKREQ_N and the replay timer act as R288 and R274 say. A row whose condition fails has no effect. -/
def Obligations.PortsConfiguredLinksUpAndDown : Prop :=
  ∀ (s : State) (m : Master) (t : Fin 16) (p : Fin 128) (v : W32) (rate : Fin 7) (width : Fin 5) (flit tenBit level surprise : Bool)
    (cxl : Fin 3) (fc : List (Nat × Nat)) (phy : Phy) (x : Dllp),
    let d₀ := s.dev
    let n := v.toNat
    let on (d : Dev) (f : Fld) := d.on f p
    let rd (d : Dev) (f : Fld) := d.rd f p
    let state (d : Dev) := rd d PORT.LINK_STATUS.STATE
    let st := state d₀
    let pcie := d₀.coreUp = true ∧ d₀.slotUsed p = true ∧ on d₀ PORT.THX_CTL.THEOX = false
    let active := on d₀ PORT.LINK_STATUS.DL_ACTIVE = true
    let regsOnly (ks : List Nat) (d : Dev) := d₀.fieldsKept ks d ∧ { d with regs := d₀.regs } = d₀
    let froze (q cause : Nat) (d : Dev) := d.frozen q = true ∧ (d₀.frozen q = false → d.rd PORT.CTN_STATUS.CAUSE q = cause)
    let down (next : Nat) (d : Dev) := state d = next ∧ on d PORT.LINK_STATUS.DL_ACTIVE = false ∧ on d PORT.LINK_STATUS.CXL_ACTIVE = false
    let wentDown (next : Nat) (d : Dev) := down next d ∧
      (d₀.upstream p = true → froze p 11 d ∧ ∀ h, d₀.domainOfPort p = some h →
        SMap.get 128 d.host.mps p = 128 ∧
        (∀ f ∈ [PORT.PTM_HOST_LO.V, PORT.PTM_HOST_HI.V, PORT.PTM_LOCAL_LO.V, PORT.PTM_LOCAL_HI.V], rd d f = 0) ∧
        ∀ k q, k ∈ d₀.vdspsOfDomain h → d₀.ownPort (h * 32 + k) = some q →
          d.frozen q = true ∧ d.rd PORT.LINK_STATUS.STATE q = 8 ∧ ∃ x y, d.out = x ++ .hotReset q :: y) ∧
      (d₀.upstream p = false → froze p 2 d ∧ ∀ c, d₀.slotOf p = some c → d.slotActive c = false)
    -- bifurcation
    (d₀.coreUp = true →
      (let mode := bits n 0 2
       let was := d₀.rd TILE.BIFUR.MODE t
       let idle := ∀ i, i < 8 → d₀.on PORT.CFG.ENABLE (8 * t + i) = false ∧ d₀.frozen (8 * t + i) = true
       (mode ≠ was → idle → Completes (.bifurWrite m t v) s fun d => d.rd TILE.BIFUR.MODE t = mode ∧
         (∀ i, i < 8 → i % 2 ^ (3 - mode) ≠ 0 → d.configured (8 * t + i) = false) ∧ d.mem = d₀.mem ∧ d.out = d₀.out) ∧
       (mode ≠ was → ¬ idle → Completes (.bifurWrite m t v) s fun d => d.on TILE.BIFUR.REFUSED t = true ∧ regsOnly [TILE.BIFUR.REFUSED.key t] d) ∧
       (mode = was → Completes (.bifurWrite m t v) s fun d => (n.testBit 2 = true → d.on TILE.BIFUR.REFUSED t = false) ∧
         regsOnly [TILE.BIFUR.REFUSED.key t] d)) ∧
      -- PORT.CFG
      (let was := on d₀ PORT.CFG.ENABLE = true
       let role := if on d₀ PORT.CFG.ENABLE then rd d₀ PORT.CFG.ROLE else bits n 0 2
       let bad := (role = 1 ∧ rd d₀ PORT.CFG.ROLE ≠ 1 ∧
           64 ≤ ((List.range 128).filter fun q => q != p.val && d₀.rd PORT.CFG.ROLE q == 1).length) ∨
         (n.testBit 13 = true ∧ ∃ q, q < 128 ∧ q ≠ p.val ∧ d₀.on PORT.CFG.SLOT_V q = true ∧ d₀.rd PORT.CFG.SLOT q = bits n 8 5)
       let write := Completes (.portCfgWrite m p v) s
       (bad → write fun d => on d PORT.CFG.REFUSED = true ∧ regsOnly [PORT.CFG.REFUSED.key p] d) ∧
       (¬ bad → write fun d =>
         (∀ f ∈ [PORT.CFG.ROLE, PORT.CFG.CXL, PORT.CFG.MAXRATE, PORT.CFG.TRANSPARENT],
           rd d f = if on d₀ PORT.CFG.ENABLE then rd d₀ f else bits n f.lsb f.width) ∧
         (∀ f ∈ [PORT.CFG.L0P_EN, PORT.CFG.SLOT, PORT.CFG.SLOT_V, PORT.CFG.ENABLE, PORT.CFG.DS_SECBUS], rd d f = bits n f.lsb f.width) ∧
         (n.testBit 24 = true → on d PORT.CFG.REFUSED = false) ∧
         (on d₀ PORT.THX_CTL.THEOX = false → was → n.testBit 14 = false → state d = 0 ∧
           (active → on d PORT.LINK_STATUS.DL_ACTIVE = false ∧ d.frozen p = true)) ∧
         (on d₀ PORT.THX_CTL.THEOX = false → ¬ was → n.testBit 14 = true → d.downstream p = true → state d = 1))) ∧
      -- links down
      (on d₀ PORT.THX_CTL.THEOX = true → d₀.linkUp p = true → Completes (.linkDown p) s fun d =>
        d.rd PORT.THX_STATUS.STATE p = 1 ∧ froze p 2 d) ∧
      (on d₀ PORT.THX_CTL.THEOX = false → active → Completes (.linkDown p) s (wentDown 1)) ∧
      (d₀.linkUp p = false → NoEffect (.linkDown p) s)) ∧
    -- links up
    (pcie → d₀.mayTrain p = true → st = 0 → Completes (.linkTrainingStart p) s fun d => state d = 1 ∧ d.sad = d₀.sad ∧ d.mem = d₀.mem) ∧
    (¬ (pcie ∧ d₀.mayTrain p = true ∧ st = 0) → NoEffect (.linkTrainingStart p) s) ∧
    (let may := d₀.mayTrain p = true ∧ st ≠ 0 ∧ st ≠ 4 ∧ st ≠ 9
     let r₀ := min rate.val (min 6 (rd d₀ PORT.CFG.MAXRATE))
     let fl := flit && decide (5 ≤ r₀)
     let wid := min width.val (d₀.maxWidth p)
     let offered := on d₀ PORT.CFG.CXL
     let c := Instr.linkUp p rate width flit cxl tenBit fc phy
     (pcie → may → Completes c s fun d => state d = 4 ∧ rd d PORT.LINK_STATUS.RATE = (if fl then r₀ else min r₀ 4) ∧
       rd d PORT.LINK_STATUS.WIDTH = wid ∧ rd d PORT.LINK_STATUS.L0P_WIDTH = wid ∧ on d PORT.LINK_STATUS.FLIT = fl ∧
       SMap.get false d.ctn.trained p = true ∧ on d PORT.LINK_STATUS.DL_ACTIVE = true ∧
       (active → d.sad = d₀.sad ∧ d.out = d₀.out) ∧
       (¬ active → on d PORT.LINK_STATUS.CXL_ACTIVE = (offered && fl && cxl.val == 2) ∧
         on d PORT.LINK_STATUS.CXL_FALLBACK = (offered && (!fl || cxl.val == 1)) ∧ on d PORT.PHY_STATUS.REVERSED = phy.reversed ∧
         (∀ i, i < 3 → SMap.get 0 d.sad.credit (2 * (p * 3 + i)) = (fc.getD i (0, 0)).1 ∧
           SMap.get 0 d.sad.credit (2 * (p * 3 + i) + 1) = (fc.getD i (0, 0)).2) ∧
         (∀ i, i ∈ d₀.vdspsAt (d₀.rd FABRIC.ID.DEV) p → (d.vdsp i).dllChanged = true) ∧
         ∀ k, k < 9 → d₀.on SPUR.EVSEL.LINK k = true → (d.core k).event.getLsbD 8 = true)) ∧
     (¬ (pcie ∧ may) → NoEffect c s)) ∧
    -- resets and power states
    (let may := d₀.downstream p = true ∧ st ≠ 8
     (pcie → may → Completes (.downstreamPortReset p surprise) s fun d => down 8 d ∧ froze p (if surprise then 2 else 11) d) ∧
     (¬ (pcie ∧ may) → NoEffect (.downstreamPortReset p surprise) s)) ∧
    (∀ f fs, pcie → (d₀.thx p).flight = f :: fs → Completes (.replayTimerTimeout p) s fun d =>
      (∃ x y, d.out = x ++ .replay p f.last :: y ++ d₀.out) ∧ d.thx p = d₀.thx p ∧ state d = st) ∧
    (pcie → (d₀.thx p).flight = [] → NoEffect (.replayTimerTimeout p) s) ∧
    (let may := on d₀ PORT.CFG.L0P_EN = true ∧ on d₀ PORT.LINK_STATUS.FLIT = true ∧ active ∧ 1 ≤ width.val ∧
       width.val ≤ rd d₀ PORT.LINK_STATUS.WIDTH
     (pcie → may → Completes (.l0pWidthChange p width) s fun d => rd d PORT.LINK_STATUS.L0P_WIDTH = width ∧
       regsOnly [PORT.LINK_STATUS.L0P_WIDTH.key p] d) ∧
     (¬ (pcie ∧ may) → NoEffect (.l0pWidthChange p width) s)) ∧
    (pcie → Completes (.clkreqNChange p level) s fun d => SMap.get false d.host.clkreq p = level ∧
      SMap.get false d.host.l1sub p = (level && decide (st = 6)) ∧ d.regs = d₀.regs ∧ d.sad = d₀.sad ∧ d.out = d₀.out) ∧
    -- DLLPs
    (let c := Instr.dllpReceived p x
     (pcie → active →
       (∀ sub hdr data, x = .updateFc sub hdr data → Completes c s fun d =>
         SMap.get 0 d.sad.credit (creditKey p sub) = SMap.get 0 d₀.sad.credit (creditKey p sub) + hdr ∧
         SMap.get 0 d.sad.credit (creditKey p sub + 1) = SMap.get 0 d₀.sad.credit (creditKey p sub + 1) + data ∧ d.regs = d₀.regs ∧
         d.out = d₀.out) ∧
       (∀ seq, x = .ack seq → Completes c s fun d => d = d₀.setThx p ((d₀.thx p).acked seq)) ∧
       (∀ seq, x = .nak seq →
         let first := (seq.val + 1) % 4096
         let fourth := (d₀.thx p).nakSeq = first ∧ 3 ≤ (d₀.thx p).naks
         Completes c s fun d => (∃ x y, d.out = x ++ .replay p first :: y ++ d₀.out) ∧
           (d.thx p).flight = ((d₀.thx p).acked seq).flight ∧ (fourth → state d = 5) ∧ (¬ fourth → state d = st)) ∧
       (x = .pmL1 → st = 4 → Completes c s fun d => state d = 6 ∧ d.sad = d₀.sad) ∧
       (x = .pmL2 → st = 4 → Completes c s fun d => state d = 7 ∧ d.sad = d₀.sad) ∧
       (x = .pmL1 ∨ x = .pmL2 → st ≠ 4 → NoEffect c s)) ∧
     (¬ (pcie ∧ active) → NoEffect c s)) ∧
    (¬ pcie → NoEffect (.replayTimerTimeout p) s ∧ NoEffect (.clkreqNChange p level) s) ∧
    (d₀.coreUp = false → NoEffect (.bifurWrite m t v) s ∧ NoEffect (.portCfgWrite m p v) s ∧ NoEffect (.linkDown p) s)

/-- Configuration requests, ID map, INTx, vDSP controls, PTM and the memory device (R293, R296, R298, R301, R302, R303, R304, R305,
R308, R309, R313, R317). A waiting configuration request that no function answers completes with UR, one to a function in reset
with CRS, a read with the word of the function (the identities of R293), a write of bus numbers takes them and completes when
Foothill acknowledges it or the hold expires (where fields lie inside a standard header or capability is the standard's, log entry
36). An ID map command reads, writes, invalidates or reports a duplicate, holds BUSY until it ends, and one started meanwhile is
refused. Assert_INTx counts a new source and sends a message when the wire's count leaves 0 and the port is not frozen;
Deassert_INTx the reverse. Link Disable, Retrain Link and Secondary Bus Reset act on a transparent local port, else on the host's
view. Power Controller Control freezes the port and turns the channel off, or turns it on; indicators are reported. DPC Software
Trigger freezes the port with cause 12. PTM answers fabric time and latches both times. An HDM decoder commits only under R317; a
mailbox opcode that is not supported returns Unsupported (the numbers are the standard's, log entry 35). -/
def Obligations.PresentedFunctionsAndControls : Prop :=
  ∀ (s : State) (kp : Nat) (ack on_ : Bool) (i : Fin 4096) (h : Fin 64) (k : Fin 32) (dev : Fin 256) (p : Fin 128) (id : BitVec 16)
    (wire attn power : Fin 4) (time : W64) (j : Fin 8) (base size skip : W64) (ways : Fin 16) (op : BitVec 16),
    let d₀ := s.dev
    let v := h.val * 32 + k.val
    let kept (d : Dev) := d.mem = d₀.mem ∧ d.out = d₀.out
    -- configuration requests
    (∀ x, d₀.pkt? kp = some x → x.frame.fabric = false →
      let f := x.frame
      let req := Instr.configRequest kp ack
      let done (st : Nat) (data : List Byte) (d : Dev) := d.pkt? kp = none ∧
        ∃ a b, d.out = a ++ .completion x.port (frameRid f) (frameTag f) st false data :: b ++ d₀.out
      let off := f.h5.toNat % 4096 / 4 * 4
      let new := bytesNat (f.data.take 4)
      (d₀.coreUp = true → x.phase = .cfg → f.isCfg = true →
        (d₀.cfgTarget x.port f = .ur → Completes req s (done 1 [])) ∧ (d₀.cfgTarget x.port f = .crs → Completes req s (done 2 [])) ∧
        (∀ t, d₀.cfgTarget x.port f = .fn t →
          (f.isWrite = false → Completes req s fun d => done 0 (natBytes 4 (d₀.cfgRead x.port t off)) d ∧ d.host = d₀.host ∧ d.mem = d₀.mem) ∧
          (f.isWrite = false → off = 0 → Completes req s (done 0 (natBytes 4 (match t with
            | .usp => 0x25661F4D | .vdsp _ => 0x25671F4D | .pf => 0x25641F4D | .vf _ => 0xFFFFFFFF)))) ∧
          (f.isWrite = true → off = 0x18 → bits f.h2.toNat 24 4 = 15 → t.bridge = true → Completes req s fun d =>
            d.secBus x.port t.num = bits new 8 8 ∧ d.subBus x.port t.num = bits new 16 8 ∧ d.cfg x.port t.num 0x18 % 256 = new % 256 ∧
            (ack = true → done 0 [] d) ∧ (ack = false → d.pkt? kp = some { x with phase := .cfgHold } ∧ d.out = d₀.out))) ∧
        (∀ q e, d₀.cfgTarget x.port f = .shared q e → f.isWrite = false → shadowed off = true →
          Completes req s (done 0 (natBytes 4 (d₀.shadowRead x.port q e off))))) ∧
      (x.phase ≠ .cfg ∨ d₀.coreUp = false → NoEffect req s) ∧
      (x.phase = .cfgHold → Completes (.cfgHoldExpiry kp) s fun d => done 0 [] d ∧ d.host = d₀.host) ∧
      (x.phase ≠ .cfgHold → NoEffect (.cfgHoldExpiry kp) s)) ∧
    (d₀.pkt? kp = none → NoEffect (.configRequest kp ack) s ∧ NoEffect (.cfgHoldExpiry kp) s) ∧
    (d₀.coreUp = true →
      -- the ID map
      (let old := d₀.idEnt i
       let st := d₀.idStaged
       let twice := st.valid = true ∧ ∃ y ∈ d₀.host.idmap, y.1 ≠ i.val ∧ y.2.valid = true ∧
         ((y.2.dsDev = st.dsDev ∧ y.2.dsPort = st.dsPort ∧ y.2.dsId = st.dsId) ∨
           (y.2.domain = st.domain ∧ y.2.vdsp = st.vdsp ∧ y.2.hfn = st.hfn))
       let same := old.dsDev = st.dsDev ∧ old.dsPort = st.dsPort ∧ old.dsId = st.dsId ∧ old.intx = true ∧ st.valid = true
       let runs (status : Nat) (d : Dev) := d.host.idCmd = some ⟨status, false⟩ ∧ d.on IDMAP.CMD.BUSY = true
       let others (d : Dev) := ∀ q : Nat, q ≠ i → d.idEnt q = d₀.idEnt q
       (d₀.host.idCmd = none →
         (Completes (.idmapRead i) s fun d => runs 0 d ∧ d.host.idmap = d₀.host.idmap ∧ kept d ∧ d.on IDMAP.ENTRY_LO.VALID = old.valid ∧
           d.on IDMAP.ENTRY_HI.INTX = old.intx ∧
           ∀ y ∈ [(IDMAP.ENTRY_LO.DS_ID, old.dsId), (IDMAP.ENTRY_LO.DS_DEV, old.dsDev), (IDMAP.ENTRY_LO.DS_PORT, old.dsPort),
             (IDMAP.ENTRY_HI.DOMAIN, old.domain), (IDMAP.ENTRY_HI.VDSP, old.vdsp), (IDMAP.ENTRY_HI.HFN, old.hfn),
             (IDMAP.ENTRY_HI.PIN, old.pin)], d.rd y.1 = y.2 % 2 ^ y.1.width) ∧
         (twice → Completes (.idmapWrite i) s fun d => runs 1 d ∧ d.host.idmap = d₀.host.idmap ∧ kept d) ∧
         (¬ twice → Completes (.idmapWrite i) s fun d => runs 0 d ∧ others d ∧ d.mem = d₀.mem ∧
           (same → d.idEnt i = { st with intx := true, pin := old.pin }) ∧ (¬ same → d.idEnt i = st)) ∧
         (Completes (.idmapInvalidate i) s fun d => runs 0 d ∧ others d ∧ d.mem = d₀.mem ∧
           d.idEnt i = { old with valid := false, intx := false } ∧ ∀ y ∈ d.host.intx, y.src % 65536 ≠ i.val)) ∧
       (∀ c, d₀.host.idCmd = some c → ∀ r ∈ [Instr.idmapRead i, .idmapWrite i, .idmapInvalidate i], Completes r s fun d =>
         d.host.idCmd = some { c with second := true } ∧ d.host.idmap = d₀.host.idmap ∧ kept d)) ∧
      -- INTx
      (∀ x, d₀.intxSource dev p id.toNat wire = some x →
        let told (code : Nat) (d : Dev) := d.out = .message x.up (code + x.wire) (d₀.uspRid x.up) :: d₀.out
        let shown (d : Dev) := (d.rd PORT.INTX_STATUS.WIRE x.up).testBit x.wire
        let alone := ∀ y ∈ d₀.host.intx, y.up = x.up → y.wire = x.wire → y = x
        let fresh := ∀ y ∈ d₀.host.intx, y.up = x.up → y.wire ≠ x.wire
        (x ∈ d₀.host.intx → Completes (.assertIntx dev p id wire) s fun d => d.host.intx = d₀.host.intx ∧ kept d ∧ d.regs = d₀.regs) ∧
        (x ∉ d₀.host.intx → Completes (.assertIntx dev p id wire) s fun d => d.host.intx = d₀.host.intx ++ [x] ∧ shown d = true ∧
          (fresh → d₀.frozen x.up = false → told 0x20 d) ∧ (¬ fresh ∨ d₀.frozen x.up = true → d.out = d₀.out)) ∧
        (x ∉ d₀.host.intx → Completes (.deassertIntx dev p id wire) s fun d => d.host.intx = d₀.host.intx ∧ kept d ∧ d.regs = d₀.regs) ∧
        (x ∈ d₀.host.intx → Completes (.deassertIntx dev p id wire) s fun d => x ∉ d.host.intx ∧ (alone → shown d = false) ∧
          (¬ alone → shown d = true) ∧
          (alone → d₀.frozen x.up = false → told 0x24 d) ∧ (¬ alone ∨ d₀.frozen x.up = true → d.out = d₀.out))) ∧
      (d₀.intxSource dev p id.toNat wire = none → NoEffect (.assertIntx dev p id wire) s ∧ NoEffect (.deassertIntx dev p id wire) s) ∧
      -- vDSP controls
      (∀ q, d₀.ownPort v = some q →
        let state (d : Dev) := d.rd PORT.LINK_STATUS.STATE q
        (Completes (.linkDisable h k true) s fun d => (d.vdsp v).linkDisable = true ∧ state d = 9 ∧
          (d₀.on PORT.LINK_STATUS.DL_ACTIVE q = true → d.frozen q = true ∧ d.on PORT.LINK_STATUS.DL_ACTIVE q = false)) ∧
        (Completes (.linkDisable h k false) s fun d => (d.vdsp v).linkDisable = false ∧ state d =
          if (d₀.vdsp v).linkDisable = true ∧ state d₀ = 9 then (if d₀.mayTrain q then 1 else 0) else state d₀) ∧
        (state d₀ = 4 → Completes (.retrainLink h k) s fun d => state d = 5 ∧ kept d) ∧ (state d₀ ≠ 4 → NoEffect (.retrainLink h k) s) ∧
        (Completes (.secondaryBusReset h k) s fun d => d.frozen q = true ∧ state d = 8 ∧
          (d₀.frozen q = false → d.rd PORT.CTN_STATUS.CAUSE q = 11) ∧ ∃ a b, d.out = a ++ .hotReset q :: b ++ d₀.out)) ∧
      (d₀.ownPort v = none →
        (Completes (.linkDisable h k on_) s fun d => d = d₀.setVdsp v { d₀.vdsp v with linkDisable := on_, viewDown := on_ }) ∧
        NoEffect (.retrainLink h k) s ∧
        (Completes (.secondaryBusReset h k) s fun d => { d with out := d₀.out } = d₀ ∧
          d.out = (((d₀.host.idmap.map (·.2)).filter fun e => e.valid && e.domain == h.val && e.vdsp == k.val).map fun e =>
            Out.funcFlr e.dsDev e.dsPort e.dsId).reverse ++ d₀.out)) ∧
      (∀ q sl, d₀.vdspSlot v = some (q, sl) →
        (Completes (.powerControllerControl h k true) s fun d => d.frozen q = true ∧
          (d₀.frozen q = false → d.rd PORT.CTN_STATUS.CAUSE q = 9) ∧ d.on SLOT.PWR_CTL.ON sl = false ∧ d.on SLOT.PWR_STATUS.PG sl = false ∧
          (d.vdsp v).powerOff = true ∧ (d.vdsp v).cmdCompleted = true) ∧
        (Completes (.powerControllerControl h k false) s fun d => (d.vdsp v).powerOff = false ∧ (d.vdsp v).pccAt = d₀.timeBase + 1 ∧
          (d₀.on SLOT.PWR_CTL.ON sl = true → d.regs = d₀.regs) ∧
          (d₀.on SLOT.PWR_CTL.ON sl = false → d₀.rd SLOT.PWR_LIMIT.ILIM sl ≠ 0 → d₀.rd SLOT.PWR_LIMIT.RSENSE sl ≠ 0 →
            d₀.rd SLOT.PWR_FOLD.LIMIT sl ≠ 0 → d.on SLOT.PWR_CTL.ON sl = true))) ∧
      (d₀.vdspSlot v = none → ∀ o, NoEffect (.powerControllerControl h k o) s) ∧
      (Completes (.indicatorControl h k attn power) s fun d => (d.vdsp v).attnInd = attn ∧ (d.vdsp v).powerInd = power ∧
        (d.vdsp v).cmdCompleted = true ∧ d.mem = d₀.mem ∧ ∃ a sl, d.out = a ++ .indicator sl attn power :: d₀.out) ∧
      (let q := d₀.rd VSW.VDSP_MAP.PORT v
       let may := (d₀.vdsp v).dpcEnable = true ∧ d₀.on VSW.VDSP_MAP.VALID v = true ∧ d₀.rd VSW.VDSP_MAP.DEV v = d₀.rd FABRIC.ID.DEV
       (may → Completes (.dpcSoftwareTrigger h k) s fun d => d.frozen q = true ∧ (d₀.frozen q = false →
         d.rd PORT.CTN_STATUS.CAUSE q = 12 ∧ (d.vdsp v).dpcTrig = true ∧ (d.vdsp v).dpcReason = 3 ∧ (d.vdsp v).dpcExt = 1)) ∧
       (¬ may → NoEffect (.dpcSoftwareTrigger h k) s))) ∧
    (∀ c, d₀.host.idCmd = some c → Completes .idmapCmdEnd s fun d => d.host.idCmd = none ∧ d.on IDMAP.CMD.BUSY = false ∧
      d.rd IDMAP.CMD.STATUS = (if c.second then 2 else c.status) % 4 ∧ kept d) ∧
    (d₀.host.idCmd = none → NoEffect .idmapCmdEnd s) ∧
    -- PTM and the memory device
    (let pcie := d₀.coreUp = true ∧ d₀.slotUsed p = true ∧ d₀.on PORT.THX_CTL.THEOX p = false
     let now := d₀.timeBase * 4 % 2 ^ 64
     let root := d₀.downstream p = true ∧ d₀.on PORT.LINK_STATUS.DL_ACTIVE p = true
     let asks := d₀.upstream p = true ∧ (d₀.cfg p fnUsp 0x328).testBit 0 = true
     let cxl := d₀.upstream p = true ∧ d₀.on PORT.LINK_STATUS.CXL_ACTIVE p = true
     let overlap := ∃ q, q < 8 ∧ q ≠ j.val ∧ (d₀.hdm p q).committed = true ∧ base.toNat < (d₀.hdm p q).base + (d₀.hdm p q).size ∧
       (d₀.hdm p q).base < base.toNat + size.toNat
     let fits := d₀.dpaBase p j skip.toNat + size.toNat ≤ d₀.dpaSpace p
     let commit := Instr.hdmCommit p j base size skip ways ack
     (pcie → root → Completes (.ptmRequest p) s fun d => d = { d₀ with out := .ptm p now :: d₀.out }) ∧
     (¬ (pcie ∧ root) → NoEffect (.ptmRequest p) s) ∧
     (pcie → asks → Completes (.ptmExchange p time) s fun d => d.rd PORT.PTM_HOST_LO.V p = time.toNat % 2 ^ 32 ∧
       d.rd PORT.PTM_HOST_HI.V p = time.toNat / 2 ^ 32 ∧ d.rd PORT.PTM_LOCAL_LO.V p = now % 2 ^ 32 ∧
       d.rd PORT.PTM_LOCAL_HI.V p = now / 2 ^ 32 ∧ { d with regs := d₀.regs } = d₀) ∧
     (¬ (pcie ∧ asks) → NoEffect (.ptmExchange p time) s) ∧
     (pcie → cxl → ways.val = 0 → fits → ¬ overlap → ack = true → Completes commit s fun d =>
       d = d₀.setHdm p j ⟨base.toNat, size.toNat, skip.toNat, true, false⟩) ∧
     (pcie → cxl → ways.val ≠ 0 ∨ ¬ fits ∨ overlap ∨ ack = false → Completes commit s fun d =>
       d = d₀.setHdm p j { d₀.hdm p j with committed := false, error := true }) ∧
     (pcie → cxl → Completes (.cxlMailboxCommand p op) s fun d =>
       SMap.get 0 d.host.cxlMbx p = (if op.toNat ∈ cxlOps then 1 else 0x16) ∧ d.regs = d₀.regs ∧ kept d) ∧
     (¬ (pcie ∧ cxl) → NoEffect commit s ∧ NoEffect (.cxlMailboxCommand p op) s)) ∧
    (d₀.coreUp = false → ∀ r ∈ [Instr.idmapRead i, .idmapWrite i, .idmapInvalidate i, .assertIntx dev p id wire, .deassertIntx dev p id wire,
      .linkDisable h k on_, .retrainLink h k, .secondaryBusReset h k, .powerControllerControl h k on_, .indicatorControl h k attn power,
      .dpcSoftwareTrigger h k], NoEffect r s)

/-- Serial lanes: taps, adaptation, margin checks, eye scans, margining, loops, pattern checkers (R324, R328, R329, R330, R331, R333,
R334, R338, R340, R343, R344, R346). While the core domain is up: TX_TAPS1 applies both staged words under TX_OVERRIDE, or is
refused if the magnitudes do not add to 64 or C0 is below 24. An update moves CTLE, gain and H1 to H12 by at most one step while
adaptation may run; a window below 256 transitions or in electrical idle freezes it, and the first good one makes a resume check
due. A check that ends writes its result; one that fails sets MARGIN_FAIL, raises a link event and spares the lane or, at most
once per port in 100 ms, sends the link to recovery and counts RERUNS. GO starts an eye scan, is refused while margining runs,
ends with its count. Margining answers the capability or steps (payload codes are the standard's, log entry 37). A CDR loss is
counted. BITSLIP, LOOP, TX_OVERRIDE and the generator are taken only on a lane whose port is disabled or not configured, else
REFUSED. The checker locks while enabled, counts errors, drops lock and counts the loss; CLEAR zeroes the counts, INJECT inverts
one bit. A row whose condition fails has no effect. -/
def Obligations.LanesEqualiseCheckScanAndTest : Prop :=
  ∀ (s : State) (n : Fin 258) (v : W32) (steps : Vector (Fin 3) 14) (transitions : Fin 4097) (idle : Bool) (height : Fin 256)
    (width : Fin 64) (cnt : Nat) (pt : Fin 128) (l : Fin 16) (type : Fin 8) (payload : Byte) (slip : Fin 64),
    let d₀ := s.dev
    let w := v.toNat
    let x := d₀.lane n
    let p := d₀.laneHome n
    let on (d : Dev) (f : Fld) := d.on f n
    let rd (d : Dev) (f : Fld) := d.rd f n
    let regsOnly (fs : List Fld) (d : Dev) := d₀.fieldsKept (fs.map (·.key n)) d ∧ { d with regs := d₀.regs } = d₀
    let kept (d : Dev) := d.mem = d₀.mem ∧ d.out = d₀.out
    let refused (d : Dev) := on d LANE.CFG.REFUSED = true ∧ regsOnly [LANE.CFG.REFUSED] d
    let free := 256 ≤ n.val ∨ (d₀.on PORT.CFG.ENABLE p = false ∧ d₀.on PORT.THX_CTL.ENABLE p = false) ∨ d₀.configured p = false
    let set (f : Fld) := bits w f.lsb f.width
    let moves (f : Fld) := set f ≠ rd d₀ f
    (d₀.coreUp = true →
      -- transmit taps
      (let w₀ := x.staged
       let t := Taps.ofWords w₀ w
       let ok := t.cm3.natAbs + t.cm2.natAbs + t.cm1.natAbs + t.c0.natAbs + t.cp1.natAbs + t.cp2.natAbs = 64 ∧ 24 ≤ t.c0
       (¬ ok → Completes (.txTapsWrite n v) s refused) ∧
       (ok → on d₀ LANE.CFG.TX_OVERRIDE = true → Completes (.txTapsWrite n v) s fun d =>
         (∀ f ∈ [LANE.TX_TAPS0.CM3, LANE.TX_TAPS0.CM2, LANE.TX_TAPS0.CM1, LANE.TX_TAPS0.C0], rd d f = bits w₀ f.lsb f.width) ∧
         (∀ f ∈ [LANE.TX_TAPS1.CP1, LANE.TX_TAPS1.CP2], rd d f = set f) ∧
         regsOnly [LANE.TX_TAPS0.CM3, LANE.TX_TAPS0.CM2, LANE.TX_TAPS0.CM1, LANE.TX_TAPS0.C0, LANE.TX_TAPS1.CP1, LANE.TX_TAPS1.CP2] d) ∧
       (ok → on d₀ LANE.CFG.TX_OVERRIDE = false → NoEffect (.txTapsWrite n v) s)) ∧
      -- adaptation
      (let may := (d₀.laneUp n = true ∨ d₀.laneSpare n = true) ∧ on d₀ LANE.CFG.ADAPT_HOLD = false ∧ on d₀ LANE.ADAPT_STATUS.FROZEN = false
       let k (i : Nat) := (steps.toList.getD i 1).val
       (may → Completes (.adaptationUpdate n steps) s fun d =>
         rd d LANE.RX_EQ.CTLE = min 15 (rd d₀ LANE.RX_EQ.CTLE + k 0 - 1) ∧ rd d LANE.RX_EQ.GAIN = min 63 (rd d₀ LANE.RX_EQ.GAIN + k 1 - 1) ∧
         rd d LANE.RX_EQ.H1 = stepTap (rd d₀ LANE.RX_EQ.H1) (k 2) ∧
         (∀ i, i < 11 → bits (d.rd LANE.DFE_TAPS.H (4 * n + i / 4)) (8 * (i % 4)) 8 =
           stepTap (bits (d₀.rd LANE.DFE_TAPS.H (4 * n + i / 4)) (8 * (i % 4)) 8) (k (3 + i))) ∧ kept d) ∧
       (¬ may → NoEffect (.adaptationUpdate n steps) s)) ∧
      (let frozen := idle || decide (transitions.val < 256)
       Completes (.densityWindow n transitions idle) s fun d => on d LANE.ADAPT_STATUS.FROZEN = frozen ∧ on d LANE.ADAPT_STATUS.EI = idle ∧
         rd d LANE.ADAPT_STATUS.DENSITY = min transitions.val 4095 ∧
         d.lane n = (if on d₀ LANE.ADAPT_STATUS.FROZEN && !frozen then { x with resumeDue := true } else x) ∧
         d₀.fieldsKept ([LANE.ADAPT_STATUS.FROZEN, LANE.ADAPT_STATUS.EI, LANE.ADAPT_STATUS.DENSITY].map (·.key n)) d ∧ kept d) ∧
      -- margin checks
      (x.resumeDue = true → Completes (.resumeCheck n) s fun d => d = d₀.setLane n { x with resumeDue := false, resuming := true }) ∧
      (x.resumeDue = false → NoEffect (.resumeCheck n) s) ∧
      (let may := d₀.laneUp n = true ∧ rd d₀ LANE.MARGIN_CTL.PERIOD ≠ 0 ∧ x.margins = false
       (may → Completes (.periodicCheck n) s fun d => d = d₀.setLane n { x with periodic := true }) ∧
       (¬ may → NoEffect (.periodicCheck n) s)) ∧
      (let c := Instr.marginCheckEnd n height width
       let runs := x.resuming = true ∨ x.periodic = true
       let pass := (if d₀.lanePam4 n then rd d₀ LANE.MARGIN_CTL.EYE_MIN_PAM4 else rd d₀ LANE.MARGIN_CTL.EYE_MIN_NRZ) ≤ height.val
       let thx := n.val < 256 ∧ d₀.on PORT.THX_CTL.THEOX p = true
       let spare := thx ∧ (d₀.thx p).spared = true ∧ d₀.on PORT.THX_STATUS.SPARE_USED p = false
       let key := if 256 ≤ n.val then 128 + (n.val - 256) else p
       let last := SMap.get 0 d₀.phy.reran key
       let soon := last ≠ 0 ∧ d₀.timeBase < last - 1 + 25000000
       let failed (d : Dev) := on d LANE.ADAPT_STATUS.MARGIN_FAIL = true ∧
         ∀ j, j < 9 → d₀.on SPUR.EVSEL.LINK j = true → (d.core j).event.getLsbD 8 = true
       let again (d : Dev) := failed d ∧ rd d LANE.ADAPT_STATUS.RERUNS = min (rd d₀ LANE.ADAPT_STATUS.RERUNS + 1) 15
       (runs → Completes c s fun d => rd d LANE.MARGIN_RESULT.HEIGHT = height ∧ rd d LANE.MARGIN_RESULT.WIDTH = width ∧
         on d LANE.MARGIN_RESULT.PASS = decide pass ∧ on d LANE.MARGIN_RESULT.RESUME = x.resuming ∧
         (d.lane n).resuming = false ∧ (d.lane n).checkedAt = d₀.timeBase + 1) ∧
       (runs → pass → Completes c s fun d => kept d ∧ d₀.fieldsKept ([LANE.MARGIN_RESULT.HEIGHT, LANE.MARGIN_RESULT.WIDTH,
         LANE.MARGIN_RESULT.PASS, LANE.MARGIN_RESULT.RESUME].map (·.key n)) d) ∧
       (runs → ¬ pass → spare → d₀.thxState p = 5 → (d₀.thx p).sparing = 0 → n.val % 16 < 15 → Completes c s fun d =>
         failed d ∧ (d.thx p).sparing = n.val % 16 + 1 ∧ d.out = .spare p false (n.val % 16) :: d₀.out ∧
         rd d LANE.ADAPT_STATUS.RERUNS = rd d₀ LANE.ADAPT_STATUS.RERUNS) ∧
       (runs → ¬ pass → ¬ spare → on d₀ LANE.MARGIN_CTL.RERUN_EN = true → ¬ soon → Completes c s fun d =>
         again d ∧ (n.val < 256 → ¬ thx → d₀.linkState p = 4 → d.linkState p = 5) ∧ (thx → d₀.thxState p = 5 → d.thxState p = 6) ∧
         (256 ≤ n.val → d₀.rd COL.LINK_STATUS.STATE (n.val - 256) = 2 → d.rd COL.LINK_STATUS.STATE (n.val - 256) = 1)) ∧
       (runs → ¬ pass → ¬ spare → on d₀ LANE.MARGIN_CTL.RERUN_EN = false ∨ soon → Completes c s fun d => failed d ∧
         d.linkState p = d₀.linkState p ∧ d.thxState p = d₀.thxState p ∧ rd d LANE.ADAPT_STATUS.RERUNS = rd d₀ LANE.ADAPT_STATUS.RERUNS) ∧
       (¬ runs → NoEffect c s)) ∧
      -- eye scan and margining
      (let c := Instr.eyeScan n v
       let go := w.testBit 22 = true
       let busy := on d₀ LANE.EYE_CTL.BUSY = true
       let place : List Fld := [LANE.EYE_CTL.T_OFF, LANE.EYE_CTL.V_OFF, LANE.EYE_CTL.EYE, LANE.EYE_CTL.DWELL]
       (Completes c s fun d => ∀ f ∈ place, rd d f = set f) ∧
       (¬ go ∨ busy → Completes c s (regsOnly place)) ∧
       (go → ¬ busy → x.margins = true → Completes c s fun d => rd d LANE.EYE_CTL.STATUS = 1 ∧ regsOnly (LANE.EYE_CTL.STATUS :: place) d) ∧
       (go → ¬ busy → x.margins = false → Completes c s fun d => on d LANE.EYE_CTL.BUSY = true ∧ rd d LANE.EYE_CTL.STATUS = 0 ∧
         rd d LANE.EYE_COUNT.COUNT = 0 ∧ regsOnly (LANE.EYE_CTL.BUSY :: LANE.EYE_CTL.STATUS :: LANE.EYE_COUNT.COUNT :: place) d) ∧
       (busy → Completes (.eyeScanEnd n cnt) s fun d => on d LANE.EYE_CTL.BUSY = false ∧ rd d LANE.EYE_CTL.STATUS = 0 ∧
         rd d LANE.EYE_COUNT.COUNT = min cnt (2 ^ 32 - 1) ∧ regsOnly [LANE.EYE_CTL.BUSY, LANE.EYE_CTL.STATUS, LANE.EYE_COUNT.COUNT] d) ∧
       (¬ busy → NoEffect (.eyeScanEnd n cnt) s)) ∧
      (let c := Instr.laneMargining pt l type payload
       let m := laneOf pt l
       let may := d₀.on PORT.THX_CTL.THEOX pt = false ∧
         (d₀.upstream pt = true ∨ (d₀.downstream pt = true ∧ d₀.on PORT.CFG.TRANSPARENT pt = true)) ∧ 2 ≤ d₀.rd PORT.LINK_STATUS.RATE pt ∧
         d₀.linkState pt = 4 ∧ l.val < 2 ^ d₀.maxWidth pt
       let normal : LaneSt := { d₀.lane m with marginType := 7, marginArg := 0 }
       (may → type.val = 1 → ∀ r, marginReport payload.toNat = some r → Completes c s fun d =>
         d = { d₀ with out := .margining pt l 1 r :: d₀.out }) ∧
       (may → type.val = 1 → marginReport payload.toNat = none → Completes c s fun d => d.regs = d₀.regs ∧ d.lane m = d₀.lane m ∧
         ∃ r, d.out = .margining pt l 1 r :: d₀.out) ∧
       (may → type.val = 2 → payload.toNat = 0x0F → Completes c s fun d => d.lane m = normal ∧ d.regs = d₀.regs ∧
         d.out = .margining pt l 2 0x0F :: d₀.out) ∧
       (may → type.val = 3 ∨ type.val = 4 → Completes c s fun d => d.regs = d₀.regs ∧
         d.lane m = { d₀.lane m with marginType := type, marginArg := payload.toNat } ∧ ∃ r, d.out = .margining pt l type r :: d₀.out) ∧
       (may → 4 < type.val ∨ type.val = 0 → Completes c s fun d => d = d₀.setLane m normal) ∧
       (¬ may → NoEffect c s)) ∧
      (Completes (.cdrLossOfLock n) s fun d => rd d LANE.ADAPT_STATUS.CDR_LOL = min (rd d₀ LANE.ADAPT_STATUS.CDR_LOL + 1) 255 ∧ kept d) ∧
      -- alignment, loops, patterns
      (free → Completes (.bitslip n slip) s fun d => d = d₀.setLane n { x with slip := x.slip + slip }) ∧
      (¬ free → Completes (.bitslip n slip) s refused) ∧
      (let c := Instr.laneCfgWrite n false v
       let loop := moves LANE.CFG.LOOP
       let bad := ((loop ∨ moves LANE.CFG.TX_OVERRIDE) ∧ ¬ free) ∨
         (loop ∧ 256 ≤ n.val ∧ (set LANE.CFG.LOOP = 3 ∨ (set LANE.CFG.LOOP ≠ 0 ∧ d₀.on COL.CTL.JOIN = true)))
       (bad → Completes c s refused) ∧
       (¬ bad → Completes c s fun d =>
         (∀ f ∈ [LANE.CFG.TX_INVERT, LANE.CFG.RX_INVERT, LANE.CFG.LOOP, LANE.CFG.TX_OVERRIDE, LANE.CFG.ADAPT_HOLD], rd d f = set f) ∧
         (w.testBit 6 = true → on d LANE.CFG.REFUSED = false) ∧ kept d ∧
         (on d₀ LANE.EYE_CTL.BUSY = true → on d LANE.EYE_CTL.BUSY = false ∧ rd d LANE.EYE_CTL.STATUS = 2))) ∧
      (let c := Instr.laneCfgWrite n true v
       let gen := moves LANE.PRBS_CTL.GEN_PAT ∨ moves LANE.PRBS_CTL.GEN_EN
       let alien (k : Nat) := (k = 4 ∧ d₀.lanePam4 n = false) ∨ 6 ≤ k
       let bad := (gen ∧ (¬ free ∨ d₀.laneSpare n = true)) ∨ alien (set LANE.PRBS_CTL.GEN_PAT) ∨ alien (set LANE.PRBS_CTL.CHK_PAT)
       (bad → Completes c s refused) ∧
       (¬ bad → Completes c s fun d =>
         (∀ f ∈ [LANE.PRBS_CTL.GEN_PAT, LANE.PRBS_CTL.GEN_EN, LANE.PRBS_CTL.CHK_PAT, LANE.PRBS_CTL.CHK_EN], rd d f = set f) ∧
         (moves LANE.PRBS_CTL.CHK_PAT ∨ w.testBit 7 = false → on d LANE.PRBS_CTL.LOCK = false) ∧
         (w.testBit 9 = true → w.testBit 10 = false → d.prbsBits n = 0 ∧ d.prbsErr n = 0) ∧ d.mem = d₀.mem)) ∧
      (Completes (.clear n) s fun d => d.prbsBits n = 0 ∧ d.prbsErr n = 0 ∧
        regsOnly [LANE.PRBS_BITS_LO.V, LANE.PRBS_BITS_HI.V, LANE.PRBS_ERR_LO.V, LANE.PRBS_ERR_HI.V] d) ∧
      (let loops := on d₀ LANE.PRBS_CTL.LOCK = true ∧ (rd d₀ LANE.CFG.LOOP = 1 ∨ rd d₀ LANE.CFG.LOOP = 2)
       (on d₀ LANE.PRBS_CTL.GEN_EN = true → Completes (.inject n) s fun d => d.out = .inject n :: d₀.out ∧ d.mem = d₀.mem ∧
         (loops → d.prbsErr n = min (d₀.prbsErr n + 1) (2 ^ 48 - 1)) ∧ (¬ loops → d.regs = d₀.regs)) ∧
       (on d₀ LANE.PRBS_CTL.GEN_EN = false → NoEffect (.inject n) s)) ∧
      (on d₀ LANE.PRBS_CTL.CHK_EN = true → Completes (.prbsCheckerLock n) s fun d => on d LANE.PRBS_CTL.LOCK = true ∧
        regsOnly [LANE.PRBS_CTL.LOCK] d) ∧
      (on d₀ LANE.PRBS_CTL.CHK_EN = false → NoEffect (.prbsCheckerLock n) s) ∧
      (on d₀ LANE.PRBS_CTL.LOCK = true → Completes (.prbsCheckerLockLoss n cnt) s fun d => on d LANE.PRBS_CTL.LOCK = false ∧
        rd d LANE.PRBS_CTL.LOSS = min (rd d₀ LANE.PRBS_CTL.LOSS + 1) 255 ∧ d.prbsErr n = min (d₀.prbsErr n + cnt) (2 ^ 48 - 1) ∧ kept d) ∧
      (on d₀ LANE.PRBS_CTL.LOCK = false → NoEffect (.prbsCheckerLockLoss n cnt) s)) ∧
    (d₀.coreUp = false → ∀ i ∈ [Instr.txTapsWrite n v, .adaptationUpdate n steps, .densityWindow n transitions idle, .resumeCheck n,
      .periodicCheck n, .marginCheckEnd n height width, .eyeScan n v, .eyeScanEnd n cnt, .laneMargining pt l type payload,
      .cdrLossOfLock n, .bitslip n slip, .laneCfgWrite n false v, .laneCfgWrite n true v, .clear n, .inject n, .prbsCheckerLock n,
      .prbsCheckerLockLoss n cnt], NoEffect i s)

/-- Counter selection and values, snapshots, dump entries, bandwidth windows, and the Cairn's record, freeze, re-arm and read-out
(R402, R404, R405, R406, R407, R408, R409, R411, R414, R416, R418, R419). While the core domain is up: an accepted SEL write takes
the counter's event, mode, enable and instance, and clears OVF where bit 13 is 1; VAL_HI applies both halves at once and changes
no other counter; a master that has selected no counter changes nothing. GO and RUN request a strobe, which RUN waits for. A
strobe that would fill the bank whose dump entry is being written sets SKIPPED; another copies every counter into that bank, gives
SEQ and the time, and begins a dump entry, or sets OVERFLOW when the ring is full. A period boundary takes DUMP_CTL into use; a
DUMP_CTL write that enables a ring which does not fit in Spur memory is refused whole. A completed entry is written at its place
in the ring, TAIL moves on and EVENT.DUMP is set; one refused in Tarn ends the dumps. A window boundary turns bytes into the value
and the peak. While VAUX is up: the oldest waiting record of a source goes into the ring at WR_IDX with the next SEQ; a write of
FREEZE writes its record first and freezes, and on a frozen Cairn only counts; ARM by Summit goes on at WR_IDX; ARM by another is
counted and changes nothing else; RD_IDX latches the record for its master. -/
def Obligations.CountersSnapshotsDumpsAndCairn : Prop :=
  ∀ (s : State) (m : Master) (v : W32) (on_ : Bool) (p : Fin 128) (src inst : Fin 256) (i : Fin 8192),
    let d₀ := s.dev
    let k := d₀.rd CNT.IDX.K m.code
    let w := v.toNat
    let kept (d : Dev) := d.mem = d₀.mem ∧ d.out = d₀.out
    let regsOnly (fs : List Fld) (d : Dev) := d₀.fieldsKept (fs.map (·.key 0)) d ∧ { d with regs := d₀.regs } = d₀
    (d₀.coreUp = true →
      -- a counter's selection and value
      (1280 ≤ k → NoEffect (.cntSelWrite m v) s ∧ NoEffect (.cntValWrite m v) s) ∧
      (k < 1280 → w % 1024 ∈ eventCodes → (k < 1024 → w % 1024 < 0x100) → Completes (.cntSelWrite m v) s fun d =>
        (∀ f ∈ [CNT.SEL.EVENT, CNT.SEL.MODE, CNT.SEL.EN, CNT.SEL.INST, CNT.SEL.INST_ALL], d.rd f k = bits w f.lsb f.width) ∧
        (bits w 13 1 = 1 → d.rd CNT.SEL.OVF k = 0) ∧ (bits w 13 1 = 0 → d.rd CNT.SEL.OVF k = d₀.rd CNT.SEL.OVF k % 2) ∧
        d₀.fieldsKept ([CNT.SEL.EVENT, CNT.SEL.MODE, CNT.SEL.EN, CNT.SEL.INST, CNT.SEL.INST_ALL].map (·.key k)) d ∧
        (∀ j, d.count j = d₀.count j) ∧ kept d) ∧
      (k < 1280 →
        let staged := SMap.get 0 d₀.cnt.staged m.code
        let lo := if staged = 0 then d₀.count k % 2 ^ 32 else staged - 1
        Completes (.cntValWrite m v) s fun d => d.count k = (lo + w % 65536 * 2 ^ 32) % 2 ^ 48 ∧ (∀ j, j ≠ k → d.count j = d₀.count j) ∧
          SMap.get 0 d.cnt.staged m.code = 0 ∧ (∀ j, j ≠ m.code → SMap.get 0 d.cnt.staged j = SMap.get 0 d₀.cnt.staged j) ∧
          d.regs = d₀.regs ∧ kept d) ∧
      -- snapshots
      (Completes (.go m) s fun d => d.on CNT.SNAP_STATUS.PENDING = true ∧ d.cnt = { d₀.cnt with sw := true } ∧
        d₀.fieldsKept [CNT.SNAP_STATUS.PENDING.key 0] d ∧ kept d) ∧
      (Completes (.run m on_) s fun d => d.on CNT.SNAP_STATUS.PENDING = true ∧ d.on CNT.SNAP_CTL.RUN = on_ ∧
        d.cnt = { d₀.cnt with sw := true, runNext := some on_ } ∧
        d₀.fieldsKept [CNT.SNAP_STATUS.PENDING.key 0, CNT.SNAP_CTL.RUN.key 0] d ∧ kept d) ∧
      (d₀.on CNT.SNAP_STATUS.PENDING = false → NoEffect .snapshotStrobe s) ∧
      (d₀.on CNT.SNAP_STATUS.PENDING = true →
        let b := 1 - d₀.cnt.bank
        Completes .snapshotStrobe s fun d => d.on CNT.SNAP_STATUS.PENDING = false ∧ d.cnt.running = d₀.cnt.runNext.getD d₀.cnt.running ∧
          d.cnt.runNext = none ∧ d.cnt.count = d₀.cnt.count ∧ kept d ∧
          (d₀.cnt.dumping = some b → d.on CNT.SNAP_STATUS.SKIPPED = true ∧ d.cnt.snap = d₀.cnt.snap ∧ d.cnt.bank = d₀.cnt.bank ∧
            d.cnt.seq = d₀.cnt.seq ∧ d.cnt.skipped = d₀.cnt.skipped + 1 ∧ d.cnt.dumping = some b) ∧
          (d₀.cnt.dumping ≠ some b → d.cnt.bank = b ∧ d.cnt.seq = d₀.cnt.seq + 1 ∧ d.cnt.strobe = d₀.timeBase ∧
            d.rd CNT.SNAP_STATUS.SEQ = (d₀.cnt.seq + 1) % 65536 ∧ d.rd CNT.SNAP_TIME_LO.TIME = d₀.timeBase % 2 ^ 32 ∧
            d.rd CNT.SNAP_TIME_HI.TIME = d₀.timeBase / 2 ^ 32 % 2 ^ 32 ∧
            (∀ j, j < 1280 → SMap.get 0 d.cnt.snap (b * 2048 + j) = d₀.count j) ∧
            (∀ j, j < b * 2048 ∨ b * 2048 + 1280 ≤ j → SMap.get 0 d.cnt.snap j = SMap.get 0 d₀.cnt.snap j) ∧
            (d₀.dumpUse.2.1 = false → d.cnt.dumping = d₀.cnt.dumping) ∧
            (d₀.dumpUse.2.1 = true → d₀.dumpFull = true → d.on CNT.SNAP_STATUS.OVERFLOW = true ∧ d.cnt.dumping = d₀.cnt.dumping) ∧
            (d₀.dumpUse.2.1 = true → d₀.dumpFull = false → d₀.cnt.dumping = none → d.cnt.dumping = some b))) ∧
      -- dumps
      (Completes .dumpPeriod s fun d =>
        let us := min 1000000 (max 10 (d₀.rd CNT.DUMP_CTL.PERIOD_US))
        d.cnt = { d₀.cnt with dumpUse := some (us, d₀.on CNT.DUMP_CTL.EN, d₀.on CNT.DUMP_CTL.TARGET, d₀.rd CNT.DUMP_CTL.SIZE) } ∧
        d.on CNT.SNAP_STATUS.PENDING = (d₀.on CNT.DUMP_CTL.EN || d₀.on CNT.SNAP_STATUS.PENDING) ∧
        d₀.fieldsKept [CNT.SNAP_STATUS.PENDING.key 0] d ∧ kept d) ∧
      (let all := [CNT.DUMP_CTL.PERIOD_US, CNT.DUMP_CTL.EN, CNT.DUMP_CTL.TARGET, CNT.DUMP_CTL.SIZE]
       let bad := bits w 20 1 = 1 ∧ bits w 21 1 = 0 ∧ 0x400000 < (d₀.rd CNT.DUMP_BASE.BASE + 2 ^ max 1 (bits w 22 4)) * 32768
       (bad → Completes (.dumpCtlWrite m v) s fun d => d.on CNT.SNAP_STATUS.DUMP_REFUSED = true ∧ regsOnly [CNT.SNAP_STATUS.DUMP_REFUSED] d) ∧
       (¬ bad → Completes (.dumpCtlWrite m v) s fun d => (∀ f ∈ all, d.rd f = bits w f.lsb f.width) ∧ regsOnly all d)) ∧
      (d₀.cnt.dumping = none → NoEffect .dumpEntryComplete s) ∧
      (∀ b, d₀.cnt.dumping = some b →
        let e := d₀.dumpBytes b
        let ring := 2 ^ max 1 d₀.dumpUse.2.2.2
        let off := (d₀.rd CNT.DUMP_BASE.BASE + d₀.rd CNT.DUMP_RING.TAIL % ring) * 32768
        (e.length = 18496 ∧ fieldAt e 0 8 = d₀.cnt.seq % 2 ^ 64 ∧ fieldAt e 8 8 = d₀.cnt.strobe % 2 ^ 64 ∧ fieldAt e 16 2 = 1280 ∧
          fieldAt e 18 2 = 2048 ∧ fieldAt e 24 4 = min d₀.cnt.skipped (2 ^ 32 - 1) ∧ fieldAt e 60 4 = 1 ∧
          (∀ j, j < 1280 → fieldAt e (64 + 8 * j) 8 = d₀.dumpCounter b j % 2 ^ 64) ∧
          ∀ j, j < 2048 → fieldAt e (10304 + 4 * j) 4 = d₀.bwValue j % 2 ^ 32) ∧
        (d₀.dumpUse.2.2.1 = false → Completes .dumpEntryComplete s fun d =>
          d.cnt = { d₀.cnt with dumping := none, sw := false, skipped := 0 } ∧
          d.rd CNT.DUMP_RING.TAIL = (d₀.rd CNT.DUMP_RING.TAIL + 1) % ring % 2 ^ 15 ∧ d₀.fieldsKept [CNT.DUMP_RING.TAIL.key 0] d ∧
          (∀ j, j < 18496 → d.byte (spurAt (off + j)) = e.getD j 0) ∧
          (∀ a, (∀ j, j < 18496 → a ≠ spurAt (off + j)) → d.byte a = d₀.byte a) ∧
          ∀ j, j < 9 → (d.core j).event = (d₀.core j).event ||| (if d₀.on SPUR.EVSEL.DUMP j then 0x40 else 0)) ∧
        (let i := d₀.rd CNT.DUMP_BASE.DESC
         let q : PoolAcc := ⟨i, none, none, none, true, (d₀.desc i).hbase + off, 18496, .write⟩
         d₀.dumpUse.2.2.1 = true → (d₀.poolCheck q).isSome = true →
          Completes .dumpEntryComplete s fun d => d.on CNT.DUMP_CTL.EN = false ∧ d.on CNT.SNAP_STATUS.DUMP_FAULT = true ∧
            d.cnt.dumping = none ∧ d.rd CNT.DUMP_RING.TAIL = d₀.rd CNT.DUMP_RING.TAIL)) ∧
      -- bandwidth windows
      (let val (j : Nat) := SMap.get 0 d₀.cnt.bwBytes j / 64 % 2 ^ 32
       Completes (.bwWindowBoundary p) s fun d =>
        (∀ j, 16 * p.val ≤ j → j < 16 * p.val + 16 → SMap.get 0 d.cnt.bwVal j = val j ∧ SMap.get 0 d.cnt.bwBytes j = 0 ∧
          SMap.get 0 d.cnt.bwPeak j = max (val j) (SMap.get 0 d₀.cnt.bwPeak j)) ∧
        (∀ j, j < 16 * p.val ∨ 16 * p.val + 16 ≤ j → SMap.get 0 d.cnt.bwVal j = SMap.get 0 d₀.cnt.bwVal j ∧
          SMap.get 0 d.cnt.bwBytes j = SMap.get 0 d₀.cnt.bwBytes j ∧ SMap.get 0 d.cnt.bwPeak j = SMap.get 0 d₀.cnt.bwPeak j) ∧
        { d with cnt := d₀.cnt } = d₀)) ∧
    -- the Cairn
    (let idx := d₀.rd CAIRN.STATUS.WR_IDX
     let seq := (d₀.cairn.seq + 1) % 2 ^ 32
     let key := cairnKey src inst
     let q := SMap.get {} d₀.cairn.srcs key
     let mine := SMap.get {} d₀.cairn.srcs (cairnKey 0x0D 0)
     (d₀.vauxUp = true →
      (d₀.on CAIRN.STATUS.FROZEN = false →
        (∀ r rs, q.queue = r :: rs → Completes (.cairnRecord src inst) s fun d =>
          SMap.get .zero d.cairn.ring idx = { r with seq := seq } ∧ d.cairn.seq = seq ∧ d.rd CAIRN.STATUS.WR_IDX = (idx + 1) % 8192 ∧
          (∀ j, j ≠ idx → SMap.get .zero d.cairn.ring j = SMap.get .zero d₀.cairn.ring j) ∧
          SMap.get {} d.cairn.srcs key = { q with queue := rs } ∧
          (∀ j, j ≠ key → SMap.get {} d.cairn.srcs j = SMap.get {} d₀.cairn.srcs j) ∧
          d₀.fieldsKept [CAIRN.STATUS.WR_IDX.key 0] d ∧ kept d) ∧
        (q.queue = [] → NoEffect (.cairnRecord src inst) s) ∧
        (Completes (.freeze m) s fun d => d.on CAIRN.STATUS.FROZEN = true ∧ d.rd CAIRN.STATUS.CAUSE = 4 ∧
          d.rd CAIRN.STATUS.FREEZE_IDX = idx % 8192 ∧ d.cairn.srcs = [] ∧ kept d ∧
          SMap.get .zero d.cairn.ring idx = ⟨d₀.stamp, 0x0D, 0, 1, true, min mine.lost 15, seq, m.code, 0⟩) ∧
        NoEffect (.arm .summit) s) ∧
      (d₀.on CAIRN.STATUS.FROZEN = true →
        NoEffect (.cairnRecord src inst) s ∧
        (Completes (.freeze m) s fun d => d.rd CAIRN.COUNT.TRIGGERS = min (d₀.rd CAIRN.COUNT.TRIGGERS + 1) 65535 ∧
          d.rd CAIRN.COUNT.DISCARDED = min (d₀.rd CAIRN.COUNT.DISCARDED + 1) 65535 ∧
          d₀.fieldsKept [CAIRN.COUNT.TRIGGERS.key 0, CAIRN.COUNT.DISCARDED.key 0] d ∧ { d with regs := d₀.regs } = d₀) ∧
        (Completes (.arm .summit) s fun d => d.on CAIRN.STATUS.FROZEN = false ∧ d.rd CAIRN.STATUS.WR_IDX = idx ∧
          d.cairn.ring = d₀.cairn.ring ∧ d.cairn.seq = d₀.cairn.seq ∧ d₀.fieldsKept [CAIRN.STATUS.FROZEN.key 0] d ∧ kept d)) ∧
      (m ≠ .summit → Completes (.arm m) s fun d => d.rwlRefused = d₀.rwlRefused + 1 ∧
        d₀.fieldsKept [CAIRN.COUNT.DISCARDED.key 0] d ∧ d.cairn.ring = d₀.cairn.ring ∧ kept d) ∧
      (Completes (.rdIdxWrite m i) s fun d => SMap.get .zero d.cairn.latch m.code = SMap.get .zero d₀.cairn.ring i.val ∧
        d.rd CAIRN.RD_IDX.INDEX m.code = i.val ∧ d.cairn.ring = d₀.cairn.ring ∧
        (∀ j, j ≠ m.code → SMap.get .zero d.cairn.latch j = SMap.get .zero d₀.cairn.latch j) ∧
        d₀.fieldsKept [CAIRN.RD_IDX.INDEX.key m.code] d ∧ kept d)) ∧
     (d₀.vauxUp = false → NoEffect (.freeze m) s ∧ NoEffect (.arm m) s ∧ NoEffect (.rdIdxWrite m i) s ∧ NoEffect (.cairnRecord src inst) s)) ∧
    (d₀.coreUp = false → ∀ c ∈ [Instr.cntSelWrite m v, .cntValWrite m v, .go m, .run m on_, .snapshotStrobe, .dumpPeriod,
      .dumpEntryComplete, .dumpCtlWrite m v, .bwWindowBoundary p], NoEffect c s)

/-- A refused write of CNT.SEL, and a shared counter of a tile event (R401). A tile counter accepts only event codes 0x000 to 0x0FF: a
write of SEL that names any other code to a tile counter, or an unassigned code to any counter, leaves SEL and everything else as
it is and sets CNT.SNAP_STATUS.SEL_REFUSED. A shared counter takes the SEL of an assigned tile event with its INST, and an event
of that code then counts in it exactly where INST names the tile, or INST_ALL is set, and the qualifiers match. -/
def Obligations.RefusedCounterSelection : Prop :=
  ∀ (s : State) (m : Master) (v : W32),
    let d₀ := s.dev
    let k := d₀.rd CNT.IDX.K m.code
    let code := v.toNat % 1024
    d₀.coreUp = true → k < 1280 →
      ((k < 1024 ∧ 0x100 ≤ code) ∨ code ∉ eventCodes → Completes (.cntSelWrite m v) s fun d =>
        d.on CNT.SNAP_STATUS.SEL_REFUSED = true ∧
        (∀ f i, f.key i ≠ CNT.SNAP_STATUS.SEL_REFUSED.key 0 → d.rd f i = d₀.rd f i) ∧ { d with regs := d₀.regs } = d₀) ∧
      (1024 ≤ k → code < 0x100 → code ∈ eventCodes → Completes (.cntSelWrite m v) s fun d =>
        d.rd CNT.SEL.EVENT k = code ∧ d.rd CNT.SEL.INST k = bits v.toNat 14 6 ∧ d.rd CNT.SEL.INST_ALL k = bits v.toNat 20 1 ∧
        ∀ tile : Fin 16, d.instOk k tile = true ↔ bits v.toNat 20 1 = 1 ∨ bits v.toNat 14 6 = tile.val)

/-- Self-test requests, their admission, end and abort; soft and fuse repair; the return of a core or an engine (R422, R423, R424,
R426, R427, R428, R429, R430, R431, R433, R434, R435). While Summit works and the command waits in its mailbox: BIST_START answers
BAD_ARG for its arguments, REFUSED for its precondition, BUSY behind 8 that wait (this order is the model's, log entry 38), else
waits. The oldest waiting test that fits the budget, the counts of tiles and planes and no test of its target is admitted: it
runs, a tile freezes, enters its reset and with LOGIC or TABLES loses its range and tenant tables and IDE keys, TABLES also
leaving both banks unchecked; one whose precondition no longer holds is REFUSED. A test that finds nothing passes; a single
repairable failure of a memory is repaired, recorded and passes; one of logic or lanes is not and does not. BIST_ABORT ends a
test, which replies ABORTED and has not passed. A soft repair names an instance, is made at once where the row is idle, else
waits, and takes a spare row and a place in the table; a copy is made for a row that waits or one whose errors call for it, and
answers every mailbox that waits for it. FUSE_REPAIR copies what is not fused, as far as the fuses go. RETURN makes a tested core
a spare held at its reset entry, the lowest one being SPARE, or clears an engine's FAULTED bit; without a passed test of LOGIC and
MEMORY it is REFUSED. Without the posted command a mailbox row has no effect. -/
def Obligations.SelfTestRepairAndReturn : Prop :=
  ∀ (s : State) (r : Fin 8) (m : Fin 4) (ek : Fin 4) (ei : Fin 32) (fails : List BistFail) (inst : BitVec 16) (row : BitVec 24)
    (why : Fin 3),
    let d₀ := s.dev
    let b := r.val * 4 + m.val
    let w := (d₀.mbx b).word.toNat
    let arg := w / 2 ^ 32
    let kind := arg % 16
    let ix := bits arg 4 8
    let mask := bits arg 12 4
    let targets := [16, 4, 9, 32].getD kind 0
    let parts := if kind = 0 then 16 else 4
    let meets (k i : Nat) := k = 0 ∨ (k = 1 ∧ 2 ≤ d₀.rd PLANE.STATUS.STATE i) ∨ (k = 2 ∧ (d₀.rd SPUR.HANDOVER.FAILED).testBit i = true) ∨
      (3 ≤ k ∧ (d₀.rd TRV.ENG_STATUS.FAULTED).testBit i = true)
    let ready (op : Nat) := d₀.summitUp = true ∧ (d₀.mbx b).full = true ∧ (d₀.mbx b).reply = none ∧ w % 256 = op
    let told (x st res : Nat) (d : Dev) := (d₀.mbx x).full = true → (d₀.mbx x).reply = none →
      (d.mbx x).reply = some (replyWord (d₀.mbx x).word st res)
    let only (st : Nat) (d : Dev) := told b st 0 d ∧ (∀ x, x ≠ b → d.mbx x = d₀.mbx x) ∧ d.bist = d₀.bist ∧ d.regs = d₀.regs ∧ d.mem = d₀.mem
    let last (d : Dev) (k i : Nat) := SMap.get 0 d.bist.last (k * 256 + i)
    let power (k : Nat) := [224, 160, 16].getD k 10
    -- requests
    (let c := Instr.bistStart r m
     let bad := 3 < kind ∨ targets ≤ ix ∨ mask = 0 ∨ parts ≤ mask
     (ready 0x20 → (∀ t ∈ d₀.bist.running ++ d₀.bist.waiting, t.box ≠ b) →
      (bad → Completes c s (only 1)) ∧ (¬ bad → ¬ meets kind ix → Completes c s (only 2)) ∧
      (¬ bad → meets kind ix → 8 ≤ d₀.bist.waiting.length → Completes c s (only 3)) ∧
      (¬ bad → meets kind ix → d₀.bist.waiting.length < 8 → Completes c s fun d =>
        d.bist = { d₀.bist with waiting := d₀.bist.waiting ++ [⟨kind, ix, mask, b, bits w 8 8, bits w 16 16 * 64⟩] } ∧
        d.rd BIST.POWER.WAITING = d₀.bist.waiting.length + 1 ∧ d.summit = d₀.summit ∧ d.mem = d₀.mem)) ∧
     (¬ ready 0x20 → NoEffect c s)) ∧
    -- admission
    (let sum := (d₀.bist.running.map fun x => power x.kind).sum
     let n (k : Nat) := (d₀.bist.running.filter fun x => x.kind = k).length
     let fits (before : List BTest) (t : BTest) := sum + power t.kind ≤ d₀.rd BIST.BUDGET.WATTS * 10 ∧ (t.kind = 0 → n 0 < 2) ∧
       (t.kind = 1 → n 1 < 1) ∧ ∀ x ∈ d₀.bist.running ++ before, ¬ (x.kind = t.kind ∧ x.index = t.index)
     (∀ before t after, d₀.bist.waiting = before ++ t :: after → d₀.summitUp = true → d₀.coreUp = true → fits before t →
       (∀ p u q, before = p ++ u :: q → ¬ fits p u) →
       (meets t.kind t.index → Completes .bistAdmit s fun d => d.bist.running = d₀.bist.running ++ [t] ∧
          d.bist.waiting = before ++ after ∧ d.bist.last = d₀.bist.last ∧ d.rd BIST.POWER.RUNNING_W = (sum + power t.kind + 9) / 10 % 256 ∧
          (t.kind = 0 → t.index < 16 → (d.rd BIST.STATUS.TILES).testBit t.index = true) ∧
          (t.kind = 1 → t.index < 4 → (d.rd BIST.STATUS.PLANES).testBit t.index = true) ∧
          (t.kind = 2 → t.index < 9 → (d.rd BIST.STATUS.CORES).testBit t.index = true) ∧ (t.kind = 3 → d.on BIST.STATUS.ENGINE = true) ∧
          (t.kind = 0 → d.on CTN.TILE_STATUS.FROZEN t.index = true ∧ d.tileRst t.index = 4 ∧
            (t.mask.testBit 0 = true ∨ t.mask.testBit 2 = true → (∀ e ∈ d.notch.range, e.1 / 4096 ≠ t.index) ∧
              (∀ e ∈ d.notch.tenant, e.1 / 512 ≠ t.index) ∧ ∀ e ∈ d.summit.ideKeys, e.1 / 32 ≠ t.index) ∧
            (t.mask.testBit 2 = true → ∀ x, x < 2 → d.bankState t.index x = 0))) ∧
       (¬ meets t.kind t.index → Completes .bistAdmit s fun d => d.bist = { d₀.bist with waiting := before ++ after } ∧ told t.box 2 0 d)) ∧
     ((∀ p u q, d₀.bist.waiting = p ++ u :: q → ¬ fits p u) ∨ d₀.summitUp = false ∨ d₀.coreUp = false → NoEffect .bistAdmit s)) ∧
    -- the end of a test
    (let c := Instr.bistEnd ek ei fails
     (∀ t, d₀.bist.running.find? (fun t => t.kind == ek.val && t.index == ei.val) = some t →
      let found := fails.filter fun f => t.mask.testBit f.part
      let ends (ok : Bool) (soft : List MemRow) (res : Nat) (d : Dev) :=
        let last' := SMap.put 0 d₀.bist.last (ek.val * 256 + ei.val) (if ok then (if t.mask % 4 = 3 then 2 else 1) else 3)
        d.bist = { d₀.bist with running := d₀.bist.running.erase t, soft := soft, last := last' } ∧
        told t.box 0 res d ∧ (ek.val = 0 → d.tileRst ei = 3)
      (found = [] → Completes c s fun d => ends true d₀.bist.soft 0x10000 d ∧ d.mem = d₀.mem) ∧
      (∀ f, found = [f] →
        let x : MemRow := ⟨f.inst.toNat, f.addr.toNat⟩
        let left := d₀.sparesLeft x.inst
        let kept (able done : Bool) (n : Nat) (d : Dev) := ∀ j, j < 16 →
          d.byte (spurAt (t.ptr + j)) = (bistRecord f able done n).getD j 0
        let mem := f.part.val = 1 ∨ (t.kind = 0 ∧ f.part.val = 2)
        (mem → d₀.repaired x = false → 0 < left → d₀.bist.soft.length < 2048 →
          Completes c s fun d => ends true (d₀.bist.soft ++ [x]) 0x10001 d ∧ kept true true (left - 1) d) ∧
        (¬ mem → Completes c s fun d =>
          ends false d₀.bist.soft (if t.kind = 0 ∧ f.part.val = 3 then 0x20001 else 1) d ∧ kept false false 0 d))) ∧
     (d₀.bist.running.find? (fun t => t.kind == ek.val && t.index == ei.val) = none → NoEffect c s)) ∧
    -- abort
    (let c := Instr.bistAbort r m
     let run := d₀.bist.running.find? fun t => t.kind == kind && t.index == ix
     let wait := d₀.bist.waiting.find? fun t => t.kind == kind && t.index == ix
     (ready 0x21 →
      (∀ t, run = some t → t.box ≠ b → Completes c s fun d => told b 0 0 d ∧ told t.box 5 0 d ∧ d.ctn = d₀.ctn ∧ d.mem = d₀.mem ∧
        d.bist = { d₀.bist with running := d₀.bist.running.erase t, last := SMap.put 0 d₀.bist.last (kind * 256 + ix) 3 }) ∧
      (∀ t, run = none → wait = some t → t.box ≠ b → Completes c s fun d => told b 0 0 d ∧ told t.box 5 0 d ∧ d.mem = d₀.mem ∧
        d.bist = { d₀.bist with waiting := d₀.bist.waiting.erase t }) ∧
      (run = none → wait = none → Completes c s (only 1))) ∧
     (¬ ready 0x21 → NoEffect c s)) ∧
    -- soft repair
    (let made (x : MemRow) (d : Dev) :=
       let pend' := d₀.bist.pend.filter fun q => q.row != x
       let none_ := d₀.repaired x = true ∨ d₀.sparesLeft x.inst = 0 ∨ 2048 ≤ d₀.bist.soft.length
       d.mem = d₀.mem ∧ d.bist = { d₀.bist with pend := pend', soft := if none_ then d₀.bist.soft else d₀.bist.soft ++ [x] } ∧
       (d₀.repaired x = false → 0 < d₀.sparesLeft x.inst → 2048 ≤ d₀.bist.soft.length → d.on BIST.REPAIR_STATUS.FULL = true)
     let fine (x : MemRow) := d₀.repaired x = true ∨ (0 < d₀.sparesLeft x.inst ∧ d₀.bist.soft.length < 2048)
     (let c := Instr.softRepair r m
      let x : MemRow := ⟨arg % 65536, bits arg 16 16⟩
      (ready 0x22 → (∀ q ∈ d₀.bist.pend, q.box ≠ some (b, bits w 8 8)) →
        (instOk x.inst = false → Completes c s (only 1)) ∧
        (instOk x.inst = true → d₀.repaired x = true → Completes c s (only 0)) ∧
        (instOk x.inst = true → d₀.repaired x = false →
          (d₀.instIdle x.inst = false → Completes c s fun d =>
            d = { d₀ with bist := { d₀.bist with pend := d₀.bist.pend ++ [⟨x, some (b, bits w 8 8)⟩] } }) ∧
          (d₀.instIdle x.inst = true → fine x → Completes c s fun d => made x d ∧ told b 0 0 d) ∧
          (d₀.instIdle x.inst = true → ¬ fine x → Completes c s fun d => made x d ∧ told b 2 0 d))) ∧
      (¬ ready 0x22 → NoEffect c s)) ∧
     (let c := Instr.softRepairCopy inst row why
      let x : MemRow := ⟨inst.toNat, row.toNat⟩
      let due := d₀.summitUp = true ∧ instOk inst.toNat = true ∧ ((∃ q ∈ d₀.bist.pend, q.row = x) ∨ why.val = 2 ∨
        (why.val = 1 ∧ d₀.rd BIST.CE_ROW.LIMIT ≠ 0))
      (due → Completes c s fun d => made x d ∧ ∀ q ∈ d₀.bist.pend, q.row = x → ∀ y, q.box = some y →
        (fine x → told y.1 0 0 d) ∧ (¬ fine x → told y.1 2 0 d)) ∧
      (¬ due → NoEffect c s))) ∧
    (let c := Instr.fuseRepair r m
     let new := d₀.bist.soft.filter fun x => !d₀.bist.fused.contains x
     let room := 2048 - d₀.bist.fused.length
     (ready 0x23 → Completes c s fun d => d.bist = { d₀.bist with fused := d₀.bist.fused ++ new.take room } ∧ d.mem = d₀.mem ∧
       (new.length ≤ room → told b 0 0 d) ∧ (room < new.length → told b 2 0 d ∧ d.on BIST.REPAIR_STATUS.FULL = true)) ∧
     (¬ ready 0x23 → NoEffect c s)) ∧
    -- return to service
    (let c := Instr.returnUnit r m
     let bad := (kind ≠ 2 ∧ kind ≠ 3) ∨ targets ≤ ix
     let may := meets kind ix ∧ last d₀ kind ix = 2 ∧ ∀ t ∈ d₀.bist.running ++ d₀.bist.waiting, ¬ (t.kind = kind ∧ t.index = ix)
     let cleared (f : Fld) (d : Dev) := (d.rd f).testBit ix = false ∧ ∀ j, j < f.width → j ≠ ix → (d.rd f).testBit j = (d₀.rd f).testBit j
     (ready 0x24 →
      (bad → Completes c s (only 1)) ∧ (¬ bad → ¬ may → Completes c s (only 2)) ∧
      (¬ bad → may → kind = 2 → d₀.summit.fw = none → Completes c s fun d => told b 0 0 d ∧ cleared SPUR.HANDOVER.FAILED d ∧
        (d.core ix).role = 15 ∧ (d.core ix).mode = .held ∧ d.rd SPUR.HANDOVER.SPARE ≤ ix ∧ d.bist = d₀.bist ∧ d.mem = d₀.mem) ∧
      (¬ bad → may → kind = 3 → Completes c s fun d => told b 0 0 d ∧ cleared TRV.ENG_STATUS.FAULTED d ∧ d.bist = d₀.bist ∧
        d.mem = d₀.mem ∧ d₀.fieldsKept [TRV.ENG_STATUS.FAULTED.key 0] d)) ∧
     (¬ ready 0x24 → NoEffect c s))

/-- An isolation that would leave no plane in service is refused (R105). While the core domain is up, an isolation of the only plane
in service is refused: ISOLATE of that plane is 0, its ISOLATE_REFUSED is set, and nothing else changes. An isolation while
another plane is in service is not refused: ISOLATE is 1 and no ISOLATE_REFUSED bit changes. -/
def Obligations.LastPlaneIsolationRefused : Prop :=
  ∀ (s : State) (k : Fin 4),
    let d₀ := s.dev
    let serves (j : Nat) := d₀.rd PLANE.STATUS.STATE j = 0
    d₀.coreUp = true →
      (serves k → (∀ j : Fin 4, j ≠ k → ¬ serves j) → Completes (.planeIsolate k) s fun d =>
        d.on PLANE.CTL.ISOLATE k = false ∧ d.on PLANE.STATUS.ISOLATE_REFUSED k = true ∧
        (∀ f i, f.key i ≠ PLANE.CTL.ISOLATE.key k → f.key i ≠ PLANE.STATUS.ISOLATE_REFUSED.key k → d.rd f i = d₀.rd f i) ∧
        { d with regs := d₀.regs } = d₀) ∧
      (∀ j : Fin 4, j ≠ k → serves j → Completes (.planeIsolate k) s fun d =>
        d.on PLANE.CTL.ISOLATE k = true ∧ ∀ i, d.rd PLANE.STATUS.ISOLATE_REFUSED i = d₀.rd PLANE.STATUS.ISOLATE_REFUSED i)

/-- Every step keeps the memory in its one canonical form (R19, R22, R29, R51, R84, R148, R151, R164, R171, R408,
95_what_each_step_holds.md). From every state whose memory (the cores' SRAMs, Spur memory and the Tarn pool) lists strictly rising
addresses and no byte equal to what an unwritten one reads as (zero, the model's choice, log entry 5), whatever command stands in
front of the queue, or none, the next state's memory has that form too: equal contents stay equal data. -/
def Obligations.MemoryKeepsCanonicalForm : Prop :=
  ∀ s t : State, s.sound → step s = .next t → t.sound
end

