-- ==== Sys2Proof/Laws/SMap.lean ====
section
/-! SUPPORT. Laws of finite tables: what is read after a write, and that every operation keeps the canonical form. -/

namespace Sys2Proof.Machine.SMap

open Sys2Proof.Machine

variable {α : Type} (dflt : α)

@[simp] theorem get_nil (k : Nat) : get dflt [] k = dflt := rfl

theorem get_del_same (m : SMap α) (k : Nat) : get dflt (del k m) k = dflt := by
  induction m with
  | nil => rfl
  | cons e m ih =>
    obtain ⟨k', v⟩ := e
    by_cases h : k = k' <;> simp [del, get, h] at ih ⊢ <;> exact ih

theorem get_del_ne (m : SMap α) {k j : Nat} (h : j ≠ k) : get dflt (del k m) j = get dflt m j := by
  induction m with
  | nil => rfl
  | cons e m ih =>
    obtain ⟨k', v⟩ := e
    by_cases hk : k = k'
    · subst hk
      simp [del, get, h, ih]
    · simp [del, get, hk, ih]

theorem get_ins_same (m : SMap α) (k : Nat) (v : α) : get dflt (ins k v m) k = v := by
  induction m with
  | nil => simp [ins, get]
  | cons e m ih =>
    obtain ⟨k', v'⟩ := e
    simp only [ins]
    split
    · simp [get]
    · split
      · simp [get]
      · simp [get, *]

theorem get_ins_ne (m : SMap α) {k j : Nat} (v : α) (h : j ≠ k) : get dflt (ins k v m) j = get dflt m j := by
  induction m with
  | nil => simp [ins, get, h]
  | cons e m ih =>
    obtain ⟨k', v'⟩ := e
    simp only [ins]
    split
    · simp [get, h]
    · split
      · rename_i hk
        subst hk
        simp [get, h]
      · simp [get, ih]

/-- A key reads as what was written to it. -/
@[simp] theorem get_put_same [DecidableEq α] (m : SMap α) (k : Nat) (v : α) : get dflt (put dflt m k v) k = v := by
  unfold put
  split
  · rename_i h
    rw [h]; exact get_del_same dflt m k
  · exact get_ins_same dflt m k v

/-- A write leaves every other key alone. -/
@[simp] theorem get_put_ne [DecidableEq α] (m : SMap α) {k j : Nat} (v : α) (h : j ≠ k) :
    get dflt (put dflt m k v) j = get dflt m j := by
  unfold put
  split
  · exact get_del_ne dflt m h
  · exact get_ins_ne dflt m v h

/-- The same where the read's default is another. -/
theorem get_put_ne' [DecidableEq α] (e : α) (m : SMap α) {k j : Nat} (v : α) (h : j ≠ k) :
    get dflt (put e m k v) j = get dflt m j := by
  unfold put
  split
  · exact get_del_ne dflt m h
  · exact get_ins_ne dflt m v h

theorem get_put [DecidableEq α] (m : SMap α) (k j : Nat) (v : α) :
    get dflt (put dflt m k v) j = if j = k then v else get dflt m j := by
  by_cases h : j = k
  · subst h; simp
  · simp [h]

theorem get_drop (p : Nat → Bool) (m : SMap α) (k : Nat) : get dflt (drop p m) k = if p k then dflt else get dflt m k := by
  induction m with
  | nil => simp [drop, get]
  | cons e m ih =>
    obtain ⟨k', v⟩ := e
    by_cases hp : p k' = true
    · simp only [drop, hp, if_true, ih, get]
      by_cases hk : k = k'
      · subst hk; simp [hp]
      · simp [hk]
    · simp only [drop, hp, get]
      by_cases hk : k = k'
      · subst hk; simp [hp, get]
      · simp [hk, get, ih]

/-! ### The canonical form -/

theorem above_del {b : Nat} (k : Nat) (m : SMap α) (h : above b m = true) : above b (del k m) = true := by
  induction m with
  | nil => rfl
  | cons e m ih =>
    obtain ⟨k', v⟩ := e
    simp only [above, Bool.and_eq_true] at h
    simp only [del]
    split
    · exact ih h.2
    · simp [above, h.1, ih h.2]

theorem above_drop {b : Nat} (p : Nat → Bool) (m : SMap α) (h : above b m = true) : above b (drop p m) = true := by
  induction m with
  | nil => rfl
  | cons e m ih =>
    obtain ⟨k', v⟩ := e
    simp only [above, Bool.and_eq_true] at h
    simp only [drop]
    split
    · exact ih h.2
    · simp [above, h.1, ih h.2]

theorem above_ins {b k : Nat} (v : α) (m : SMap α) (h : above b m = true) (hk : b < k) : above b (ins k v m) = true := by
  induction m with
  | nil => simp [ins, above, hk]
  | cons e m ih =>
    obtain ⟨k', v'⟩ := e
    have h0 := h
    simp only [above, Bool.and_eq_true] at h
    simp only [ins]
    split
    · simp only [above, Bool.and_eq_true]; exact ⟨by simpa using hk, by simpa [above] using h⟩
    · split
      · simp [above, hk, h.2]
      · simp [above, h.1, ih h.2]

theorem above_mono {a b : Nat} (m : SMap α) (hab : a ≤ b) (h : above b m = true) : above a m = true := by
  induction m with
  | nil => rfl
  | cons e m ih =>
    obtain ⟨k', v⟩ := e
    simp only [above, Bool.and_eq_true, decide_eq_true_eq] at h ⊢
    exact ⟨by omega, ih h.2⟩

variable [DecidableEq α]

theorem wf_del (k : Nat) (m : SMap α) (h : wf dflt m = true) : wf dflt (del k m) = true := by
  induction m with
  | nil => rfl
  | cons e m ih =>
    obtain ⟨k', v⟩ := e
    simp only [wf, Bool.and_eq_true] at h
    simp only [del]
    split
    · exact ih h.2
    · simp only [wf, Bool.and_eq_true]; exact ⟨⟨h.1.1, above_del k m h.1.2⟩, ih h.2⟩

theorem wf_drop (p : Nat → Bool) (m : SMap α) (h : wf dflt m = true) : wf dflt (drop p m) = true := by
  induction m with
  | nil => rfl
  | cons e m ih =>
    obtain ⟨k', v⟩ := e
    simp only [wf, Bool.and_eq_true] at h
    simp only [drop]
    split
    · exact ih h.2
    · simp only [wf, Bool.and_eq_true]; exact ⟨⟨h.1.1, above_drop p m h.1.2⟩, ih h.2⟩

theorem wf_ins (k : Nat) {v : α} (m : SMap α) (hv : v ≠ dflt) (h : wf dflt m = true) : wf dflt (ins k v m) = true := by
  induction m with
  | nil => simp [ins, wf, above, hv]
  | cons e m ih =>
    obtain ⟨k', v'⟩ := e
    have h0 := h
    simp only [wf, Bool.and_eq_true] at h
    simp only [ins]
    split
    · rename_i hk
      simp only [wf, Bool.and_eq_true, above]
      exact ⟨⟨by simpa using hv, by simpa using hk, above_mono m (Nat.le_of_lt hk) h.1.2⟩, h⟩
    · split
      · rename_i hk
        subst hk
        simp only [wf, Bool.and_eq_true]
        exact ⟨⟨by simpa using hv, h.1.2⟩, h.2⟩
      · simp only [wf, Bool.and_eq_true]
        exact ⟨⟨h.1.1, above_ins v m h.1.2 (by omega)⟩, ih h.2⟩

/-- A write keeps the canonical form. -/
theorem wf_put (m : SMap α) (k : Nat) (v : α) (h : wf dflt m = true) : wf dflt (put dflt m k v) = true := by
  unfold put
  split
  · exact wf_del dflt k m h
  · exact wf_ins dflt k m (by assumption) h

end Sys2Proof.Machine.SMap
end

