-- ==== Sys2Proof/Laws/State.lean ====
section
/-! SUPPORT. What each basic update of the device leaves alone, field by field, and what is read after it. -/

namespace Sys2Proof.Machine

open Sys2Proof

section
variable (d : Dev)


/-! ### wr -/

@[simp] theorem Dev.wr_power (f : Fld) (i v : Nat) : (d.wr f i v).power = d.power := rfl
@[simp] theorem Dev.wr_timeBase (f : Fld) (i v : Nat) : (d.wr f i v).timeBase = d.timeBase := rfl
@[simp] theorem Dev.wr_osc (f : Fld) (i v : Nat) : (d.wr f i v).osc = d.osc := rfl
@[simp] theorem Dev.wr_free (f : Fld) (i v : Nat) : (d.wr f i v).free = d.free := rfl
@[simp] theorem Dev.wr_latch (f : Fld) (i v : Nat) : (d.wr f i v).latch = d.latch := rfl
@[simp] theorem Dev.wr_rwlRefused (f : Fld) (i v : Nat) : (d.wr f i v).rwlRefused = d.rwlRefused := rfl
@[simp] theorem Dev.wr_mem (f : Fld) (i v : Nat) : (d.wr f i v).mem = d.mem := rfl
@[simp] theorem Dev.wr_spur (f : Fld) (i v : Nat) : (d.wr f i v).spur = d.spur := rfl
@[simp] theorem Dev.wr_cairn (f : Fld) (i v : Nat) : (d.wr f i v).cairn = d.cairn := rfl
@[simp] theorem Dev.wr_cnt (f : Fld) (i v : Nat) : (d.wr f i v).cnt = d.cnt := rfl
@[simp] theorem Dev.wr_ctn (f : Fld) (i v : Nat) : (d.wr f i v).ctn = d.ctn := rfl
@[simp] theorem Dev.wr_notch (f : Fld) (i v : Nat) : (d.wr f i v).notch = d.notch := rfl
@[simp] theorem Dev.wr_sad (f : Fld) (i v : Nat) : (d.wr f i v).sad = d.sad := rfl
@[simp] theorem Dev.wr_trv (f : Fld) (i v : Nat) : (d.wr f i v).trv = d.trv := rfl
@[simp] theorem Dev.wr_fab (f : Fld) (i v : Nat) : (d.wr f i v).fab = d.fab := rfl
@[simp] theorem Dev.wr_host (f : Fld) (i v : Nat) : (d.wr f i v).host = d.host := rfl
@[simp] theorem Dev.wr_tarn (f : Fld) (i v : Nat) : (d.wr f i v).tarn = d.tarn := rfl
@[simp] theorem Dev.wr_summit (f : Fld) (i v : Nat) : (d.wr f i v).summit = d.summit := rfl
@[simp] theorem Dev.wr_phy (f : Fld) (i v : Nat) : (d.wr f i v).phy = d.phy := rfl
@[simp] theorem Dev.wr_slot (f : Fld) (i v : Nat) : (d.wr f i v).slot = d.slot := rfl
@[simp] theorem Dev.wr_bist (f : Fld) (i v : Nat) : (d.wr f i v).bist = d.bist := rfl
@[simp] theorem Dev.wr_out (f : Fld) (i v : Nat) : (d.wr f i v).out = d.out := rfl

/-! ### setOn -/

@[simp] theorem Dev.setOn_power (f : Fld) (i : Nat) (b : Bool) : (d.setOn f i b).power = d.power := rfl
@[simp] theorem Dev.setOn_timeBase (f : Fld) (i : Nat) (b : Bool) : (d.setOn f i b).timeBase = d.timeBase := rfl
@[simp] theorem Dev.setOn_osc (f : Fld) (i : Nat) (b : Bool) : (d.setOn f i b).osc = d.osc := rfl
@[simp] theorem Dev.setOn_free (f : Fld) (i : Nat) (b : Bool) : (d.setOn f i b).free = d.free := rfl
@[simp] theorem Dev.setOn_latch (f : Fld) (i : Nat) (b : Bool) : (d.setOn f i b).latch = d.latch := rfl
@[simp] theorem Dev.setOn_rwlRefused (f : Fld) (i : Nat) (b : Bool) : (d.setOn f i b).rwlRefused = d.rwlRefused := rfl
@[simp] theorem Dev.setOn_mem (f : Fld) (i : Nat) (b : Bool) : (d.setOn f i b).mem = d.mem := rfl
@[simp] theorem Dev.setOn_spur (f : Fld) (i : Nat) (b : Bool) : (d.setOn f i b).spur = d.spur := rfl
@[simp] theorem Dev.setOn_cairn (f : Fld) (i : Nat) (b : Bool) : (d.setOn f i b).cairn = d.cairn := rfl
@[simp] theorem Dev.setOn_cnt (f : Fld) (i : Nat) (b : Bool) : (d.setOn f i b).cnt = d.cnt := rfl
@[simp] theorem Dev.setOn_ctn (f : Fld) (i : Nat) (b : Bool) : (d.setOn f i b).ctn = d.ctn := rfl
@[simp] theorem Dev.setOn_notch (f : Fld) (i : Nat) (b : Bool) : (d.setOn f i b).notch = d.notch := rfl
@[simp] theorem Dev.setOn_sad (f : Fld) (i : Nat) (b : Bool) : (d.setOn f i b).sad = d.sad := rfl
@[simp] theorem Dev.setOn_trv (f : Fld) (i : Nat) (b : Bool) : (d.setOn f i b).trv = d.trv := rfl
@[simp] theorem Dev.setOn_fab (f : Fld) (i : Nat) (b : Bool) : (d.setOn f i b).fab = d.fab := rfl
@[simp] theorem Dev.setOn_host (f : Fld) (i : Nat) (b : Bool) : (d.setOn f i b).host = d.host := rfl
@[simp] theorem Dev.setOn_tarn (f : Fld) (i : Nat) (b : Bool) : (d.setOn f i b).tarn = d.tarn := rfl
@[simp] theorem Dev.setOn_summit (f : Fld) (i : Nat) (b : Bool) : (d.setOn f i b).summit = d.summit := rfl
@[simp] theorem Dev.setOn_phy (f : Fld) (i : Nat) (b : Bool) : (d.setOn f i b).phy = d.phy := rfl
@[simp] theorem Dev.setOn_slot (f : Fld) (i : Nat) (b : Bool) : (d.setOn f i b).slot = d.slot := rfl
@[simp] theorem Dev.setOn_bist (f : Fld) (i : Nat) (b : Bool) : (d.setOn f i b).bist = d.bist := rfl
@[simp] theorem Dev.setOn_out (f : Fld) (i : Nat) (b : Bool) : (d.setOn f i b).out = d.out := rfl

/-! ### bump -/

@[simp] theorem Dev.bump_power (f : Fld) (i n : Nat) : (d.bump f i n).power = d.power := rfl
@[simp] theorem Dev.bump_timeBase (f : Fld) (i n : Nat) : (d.bump f i n).timeBase = d.timeBase := rfl
@[simp] theorem Dev.bump_osc (f : Fld) (i n : Nat) : (d.bump f i n).osc = d.osc := rfl
@[simp] theorem Dev.bump_free (f : Fld) (i n : Nat) : (d.bump f i n).free = d.free := rfl
@[simp] theorem Dev.bump_latch (f : Fld) (i n : Nat) : (d.bump f i n).latch = d.latch := rfl
@[simp] theorem Dev.bump_rwlRefused (f : Fld) (i n : Nat) : (d.bump f i n).rwlRefused = d.rwlRefused := rfl
@[simp] theorem Dev.bump_mem (f : Fld) (i n : Nat) : (d.bump f i n).mem = d.mem := rfl
@[simp] theorem Dev.bump_spur (f : Fld) (i n : Nat) : (d.bump f i n).spur = d.spur := rfl
@[simp] theorem Dev.bump_cairn (f : Fld) (i n : Nat) : (d.bump f i n).cairn = d.cairn := rfl
@[simp] theorem Dev.bump_cnt (f : Fld) (i n : Nat) : (d.bump f i n).cnt = d.cnt := rfl
@[simp] theorem Dev.bump_ctn (f : Fld) (i n : Nat) : (d.bump f i n).ctn = d.ctn := rfl
@[simp] theorem Dev.bump_notch (f : Fld) (i n : Nat) : (d.bump f i n).notch = d.notch := rfl
@[simp] theorem Dev.bump_sad (f : Fld) (i n : Nat) : (d.bump f i n).sad = d.sad := rfl
@[simp] theorem Dev.bump_trv (f : Fld) (i n : Nat) : (d.bump f i n).trv = d.trv := rfl
@[simp] theorem Dev.bump_fab (f : Fld) (i n : Nat) : (d.bump f i n).fab = d.fab := rfl
@[simp] theorem Dev.bump_host (f : Fld) (i n : Nat) : (d.bump f i n).host = d.host := rfl
@[simp] theorem Dev.bump_tarn (f : Fld) (i n : Nat) : (d.bump f i n).tarn = d.tarn := rfl
@[simp] theorem Dev.bump_summit (f : Fld) (i n : Nat) : (d.bump f i n).summit = d.summit := rfl
@[simp] theorem Dev.bump_phy (f : Fld) (i n : Nat) : (d.bump f i n).phy = d.phy := rfl
@[simp] theorem Dev.bump_slot (f : Fld) (i n : Nat) : (d.bump f i n).slot = d.slot := rfl
@[simp] theorem Dev.bump_bist (f : Fld) (i n : Nat) : (d.bump f i n).bist = d.bist := rfl
@[simp] theorem Dev.bump_out (f : Fld) (i n : Nat) : (d.bump f i n).out = d.out := rfl

/-! ### wrapAdd -/

@[simp] theorem Dev.wrapAdd_power (f : Fld) (i n : Nat) : (d.wrapAdd f i n).power = d.power := rfl
@[simp] theorem Dev.wrapAdd_timeBase (f : Fld) (i n : Nat) : (d.wrapAdd f i n).timeBase = d.timeBase := rfl
@[simp] theorem Dev.wrapAdd_osc (f : Fld) (i n : Nat) : (d.wrapAdd f i n).osc = d.osc := rfl
@[simp] theorem Dev.wrapAdd_free (f : Fld) (i n : Nat) : (d.wrapAdd f i n).free = d.free := rfl
@[simp] theorem Dev.wrapAdd_latch (f : Fld) (i n : Nat) : (d.wrapAdd f i n).latch = d.latch := rfl
@[simp] theorem Dev.wrapAdd_rwlRefused (f : Fld) (i n : Nat) : (d.wrapAdd f i n).rwlRefused = d.rwlRefused := rfl
@[simp] theorem Dev.wrapAdd_mem (f : Fld) (i n : Nat) : (d.wrapAdd f i n).mem = d.mem := rfl
@[simp] theorem Dev.wrapAdd_spur (f : Fld) (i n : Nat) : (d.wrapAdd f i n).spur = d.spur := rfl
@[simp] theorem Dev.wrapAdd_cairn (f : Fld) (i n : Nat) : (d.wrapAdd f i n).cairn = d.cairn := rfl
@[simp] theorem Dev.wrapAdd_cnt (f : Fld) (i n : Nat) : (d.wrapAdd f i n).cnt = d.cnt := rfl
@[simp] theorem Dev.wrapAdd_ctn (f : Fld) (i n : Nat) : (d.wrapAdd f i n).ctn = d.ctn := rfl
@[simp] theorem Dev.wrapAdd_notch (f : Fld) (i n : Nat) : (d.wrapAdd f i n).notch = d.notch := rfl
@[simp] theorem Dev.wrapAdd_sad (f : Fld) (i n : Nat) : (d.wrapAdd f i n).sad = d.sad := rfl
@[simp] theorem Dev.wrapAdd_trv (f : Fld) (i n : Nat) : (d.wrapAdd f i n).trv = d.trv := rfl
@[simp] theorem Dev.wrapAdd_fab (f : Fld) (i n : Nat) : (d.wrapAdd f i n).fab = d.fab := rfl
@[simp] theorem Dev.wrapAdd_host (f : Fld) (i n : Nat) : (d.wrapAdd f i n).host = d.host := rfl
@[simp] theorem Dev.wrapAdd_tarn (f : Fld) (i n : Nat) : (d.wrapAdd f i n).tarn = d.tarn := rfl
@[simp] theorem Dev.wrapAdd_summit (f : Fld) (i n : Nat) : (d.wrapAdd f i n).summit = d.summit := rfl
@[simp] theorem Dev.wrapAdd_phy (f : Fld) (i n : Nat) : (d.wrapAdd f i n).phy = d.phy := rfl
@[simp] theorem Dev.wrapAdd_slot (f : Fld) (i n : Nat) : (d.wrapAdd f i n).slot = d.slot := rfl
@[simp] theorem Dev.wrapAdd_bist (f : Fld) (i n : Nat) : (d.wrapAdd f i n).bist = d.bist := rfl
@[simp] theorem Dev.wrapAdd_out (f : Fld) (i n : Nat) : (d.wrapAdd f i n).out = d.out := rfl

/-! ### orBit -/

@[simp] theorem Dev.orBit_power (f : Fld) (i b : Nat) : (d.orBit f i b).power = d.power := rfl
@[simp] theorem Dev.orBit_timeBase (f : Fld) (i b : Nat) : (d.orBit f i b).timeBase = d.timeBase := rfl
@[simp] theorem Dev.orBit_osc (f : Fld) (i b : Nat) : (d.orBit f i b).osc = d.osc := rfl
@[simp] theorem Dev.orBit_free (f : Fld) (i b : Nat) : (d.orBit f i b).free = d.free := rfl
@[simp] theorem Dev.orBit_latch (f : Fld) (i b : Nat) : (d.orBit f i b).latch = d.latch := rfl
@[simp] theorem Dev.orBit_rwlRefused (f : Fld) (i b : Nat) : (d.orBit f i b).rwlRefused = d.rwlRefused := rfl
@[simp] theorem Dev.orBit_mem (f : Fld) (i b : Nat) : (d.orBit f i b).mem = d.mem := rfl
@[simp] theorem Dev.orBit_spur (f : Fld) (i b : Nat) : (d.orBit f i b).spur = d.spur := rfl
@[simp] theorem Dev.orBit_cairn (f : Fld) (i b : Nat) : (d.orBit f i b).cairn = d.cairn := rfl
@[simp] theorem Dev.orBit_cnt (f : Fld) (i b : Nat) : (d.orBit f i b).cnt = d.cnt := rfl
@[simp] theorem Dev.orBit_ctn (f : Fld) (i b : Nat) : (d.orBit f i b).ctn = d.ctn := rfl
@[simp] theorem Dev.orBit_notch (f : Fld) (i b : Nat) : (d.orBit f i b).notch = d.notch := rfl
@[simp] theorem Dev.orBit_sad (f : Fld) (i b : Nat) : (d.orBit f i b).sad = d.sad := rfl
@[simp] theorem Dev.orBit_trv (f : Fld) (i b : Nat) : (d.orBit f i b).trv = d.trv := rfl
@[simp] theorem Dev.orBit_fab (f : Fld) (i b : Nat) : (d.orBit f i b).fab = d.fab := rfl
@[simp] theorem Dev.orBit_host (f : Fld) (i b : Nat) : (d.orBit f i b).host = d.host := rfl
@[simp] theorem Dev.orBit_tarn (f : Fld) (i b : Nat) : (d.orBit f i b).tarn = d.tarn := rfl
@[simp] theorem Dev.orBit_summit (f : Fld) (i b : Nat) : (d.orBit f i b).summit = d.summit := rfl
@[simp] theorem Dev.orBit_phy (f : Fld) (i b : Nat) : (d.orBit f i b).phy = d.phy := rfl
@[simp] theorem Dev.orBit_slot (f : Fld) (i b : Nat) : (d.orBit f i b).slot = d.slot := rfl
@[simp] theorem Dev.orBit_bist (f : Fld) (i b : Nat) : (d.orBit f i b).bist = d.bist := rfl
@[simp] theorem Dev.orBit_out (f : Fld) (i b : Nat) : (d.orBit f i b).out = d.out := rfl

/-! ### setByte -/

@[simp] theorem Dev.setByte_power (a : Nat) (v : Byte) : (d.setByte a v).power = d.power := rfl
@[simp] theorem Dev.setByte_timeBase (a : Nat) (v : Byte) : (d.setByte a v).timeBase = d.timeBase := rfl
@[simp] theorem Dev.setByte_osc (a : Nat) (v : Byte) : (d.setByte a v).osc = d.osc := rfl
@[simp] theorem Dev.setByte_free (a : Nat) (v : Byte) : (d.setByte a v).free = d.free := rfl
@[simp] theorem Dev.setByte_regs (a : Nat) (v : Byte) : (d.setByte a v).regs = d.regs := rfl
@[simp] theorem Dev.setByte_latch (a : Nat) (v : Byte) : (d.setByte a v).latch = d.latch := rfl
@[simp] theorem Dev.setByte_rwlRefused (a : Nat) (v : Byte) : (d.setByte a v).rwlRefused = d.rwlRefused := rfl
@[simp] theorem Dev.setByte_spur (a : Nat) (v : Byte) : (d.setByte a v).spur = d.spur := rfl
@[simp] theorem Dev.setByte_cairn (a : Nat) (v : Byte) : (d.setByte a v).cairn = d.cairn := rfl
@[simp] theorem Dev.setByte_cnt (a : Nat) (v : Byte) : (d.setByte a v).cnt = d.cnt := rfl
@[simp] theorem Dev.setByte_ctn (a : Nat) (v : Byte) : (d.setByte a v).ctn = d.ctn := rfl
@[simp] theorem Dev.setByte_notch (a : Nat) (v : Byte) : (d.setByte a v).notch = d.notch := rfl
@[simp] theorem Dev.setByte_sad (a : Nat) (v : Byte) : (d.setByte a v).sad = d.sad := rfl
@[simp] theorem Dev.setByte_trv (a : Nat) (v : Byte) : (d.setByte a v).trv = d.trv := rfl
@[simp] theorem Dev.setByte_fab (a : Nat) (v : Byte) : (d.setByte a v).fab = d.fab := rfl
@[simp] theorem Dev.setByte_host (a : Nat) (v : Byte) : (d.setByte a v).host = d.host := rfl
@[simp] theorem Dev.setByte_tarn (a : Nat) (v : Byte) : (d.setByte a v).tarn = d.tarn := rfl
@[simp] theorem Dev.setByte_summit (a : Nat) (v : Byte) : (d.setByte a v).summit = d.summit := rfl
@[simp] theorem Dev.setByte_phy (a : Nat) (v : Byte) : (d.setByte a v).phy = d.phy := rfl
@[simp] theorem Dev.setByte_slot (a : Nat) (v : Byte) : (d.setByte a v).slot = d.slot := rfl
@[simp] theorem Dev.setByte_bist (a : Nat) (v : Byte) : (d.setByte a v).bist = d.bist := rfl
@[simp] theorem Dev.setByte_out (a : Nat) (v : Byte) : (d.setByte a v).out = d.out := rfl

/-! ### setCore -/

@[simp] theorem Dev.setCore_power (c : Nat) (k : SpurCore) : (d.setCore c k).power = d.power := rfl
@[simp] theorem Dev.setCore_timeBase (c : Nat) (k : SpurCore) : (d.setCore c k).timeBase = d.timeBase := rfl
@[simp] theorem Dev.setCore_osc (c : Nat) (k : SpurCore) : (d.setCore c k).osc = d.osc := rfl
@[simp] theorem Dev.setCore_free (c : Nat) (k : SpurCore) : (d.setCore c k).free = d.free := rfl
@[simp] theorem Dev.setCore_regs (c : Nat) (k : SpurCore) : (d.setCore c k).regs = d.regs := rfl
@[simp] theorem Dev.setCore_latch (c : Nat) (k : SpurCore) : (d.setCore c k).latch = d.latch := rfl
@[simp] theorem Dev.setCore_rwlRefused (c : Nat) (k : SpurCore) : (d.setCore c k).rwlRefused = d.rwlRefused := rfl
@[simp] theorem Dev.setCore_mem (c : Nat) (k : SpurCore) : (d.setCore c k).mem = d.mem := rfl
@[simp] theorem Dev.setCore_cairn (c : Nat) (k : SpurCore) : (d.setCore c k).cairn = d.cairn := rfl
@[simp] theorem Dev.setCore_cnt (c : Nat) (k : SpurCore) : (d.setCore c k).cnt = d.cnt := rfl
@[simp] theorem Dev.setCore_ctn (c : Nat) (k : SpurCore) : (d.setCore c k).ctn = d.ctn := rfl
@[simp] theorem Dev.setCore_notch (c : Nat) (k : SpurCore) : (d.setCore c k).notch = d.notch := rfl
@[simp] theorem Dev.setCore_sad (c : Nat) (k : SpurCore) : (d.setCore c k).sad = d.sad := rfl
@[simp] theorem Dev.setCore_trv (c : Nat) (k : SpurCore) : (d.setCore c k).trv = d.trv := rfl
@[simp] theorem Dev.setCore_fab (c : Nat) (k : SpurCore) : (d.setCore c k).fab = d.fab := rfl
@[simp] theorem Dev.setCore_host (c : Nat) (k : SpurCore) : (d.setCore c k).host = d.host := rfl
@[simp] theorem Dev.setCore_tarn (c : Nat) (k : SpurCore) : (d.setCore c k).tarn = d.tarn := rfl
@[simp] theorem Dev.setCore_summit (c : Nat) (k : SpurCore) : (d.setCore c k).summit = d.summit := rfl
@[simp] theorem Dev.setCore_phy (c : Nat) (k : SpurCore) : (d.setCore c k).phy = d.phy := rfl
@[simp] theorem Dev.setCore_slot (c : Nat) (k : SpurCore) : (d.setCore c k).slot = d.slot := rfl
@[simp] theorem Dev.setCore_bist (c : Nat) (k : SpurCore) : (d.setCore c k).bist = d.bist := rfl
@[simp] theorem Dev.setCore_out (c : Nat) (k : SpurCore) : (d.setCore c k).out = d.out := rfl

/-! ### updCore -/

@[simp] theorem Dev.updCore_power (c : Nat) (f : SpurCore → SpurCore) : (d.updCore c f).power = d.power := rfl
@[simp] theorem Dev.updCore_timeBase (c : Nat) (f : SpurCore → SpurCore) : (d.updCore c f).timeBase = d.timeBase := rfl
@[simp] theorem Dev.updCore_osc (c : Nat) (f : SpurCore → SpurCore) : (d.updCore c f).osc = d.osc := rfl
@[simp] theorem Dev.updCore_free (c : Nat) (f : SpurCore → SpurCore) : (d.updCore c f).free = d.free := rfl
@[simp] theorem Dev.updCore_regs (c : Nat) (f : SpurCore → SpurCore) : (d.updCore c f).regs = d.regs := rfl
@[simp] theorem Dev.updCore_latch (c : Nat) (f : SpurCore → SpurCore) : (d.updCore c f).latch = d.latch := rfl
@[simp] theorem Dev.updCore_rwlRefused (c : Nat) (f : SpurCore → SpurCore) : (d.updCore c f).rwlRefused = d.rwlRefused := rfl
@[simp] theorem Dev.updCore_mem (c : Nat) (f : SpurCore → SpurCore) : (d.updCore c f).mem = d.mem := rfl
@[simp] theorem Dev.updCore_cairn (c : Nat) (f : SpurCore → SpurCore) : (d.updCore c f).cairn = d.cairn := rfl
@[simp] theorem Dev.updCore_cnt (c : Nat) (f : SpurCore → SpurCore) : (d.updCore c f).cnt = d.cnt := rfl
@[simp] theorem Dev.updCore_ctn (c : Nat) (f : SpurCore → SpurCore) : (d.updCore c f).ctn = d.ctn := rfl
@[simp] theorem Dev.updCore_notch (c : Nat) (f : SpurCore → SpurCore) : (d.updCore c f).notch = d.notch := rfl
@[simp] theorem Dev.updCore_sad (c : Nat) (f : SpurCore → SpurCore) : (d.updCore c f).sad = d.sad := rfl
@[simp] theorem Dev.updCore_trv (c : Nat) (f : SpurCore → SpurCore) : (d.updCore c f).trv = d.trv := rfl
@[simp] theorem Dev.updCore_fab (c : Nat) (f : SpurCore → SpurCore) : (d.updCore c f).fab = d.fab := rfl
@[simp] theorem Dev.updCore_host (c : Nat) (f : SpurCore → SpurCore) : (d.updCore c f).host = d.host := rfl
@[simp] theorem Dev.updCore_tarn (c : Nat) (f : SpurCore → SpurCore) : (d.updCore c f).tarn = d.tarn := rfl
@[simp] theorem Dev.updCore_summit (c : Nat) (f : SpurCore → SpurCore) : (d.updCore c f).summit = d.summit := rfl
@[simp] theorem Dev.updCore_phy (c : Nat) (f : SpurCore → SpurCore) : (d.updCore c f).phy = d.phy := rfl
@[simp] theorem Dev.updCore_slot (c : Nat) (f : SpurCore → SpurCore) : (d.updCore c f).slot = d.slot := rfl
@[simp] theorem Dev.updCore_bist (c : Nat) (f : SpurCore → SpurCore) : (d.updCore c f).bist = d.bist := rfl
@[simp] theorem Dev.updCore_out (c : Nat) (f : SpurCore → SpurCore) : (d.updCore c f).out = d.out := rfl

/-! ### setEvent -/

@[simp] theorem Dev.setEvent_power (c b : Nat) : (d.setEvent c b).power = d.power := rfl
@[simp] theorem Dev.setEvent_timeBase (c b : Nat) : (d.setEvent c b).timeBase = d.timeBase := rfl
@[simp] theorem Dev.setEvent_osc (c b : Nat) : (d.setEvent c b).osc = d.osc := rfl
@[simp] theorem Dev.setEvent_free (c b : Nat) : (d.setEvent c b).free = d.free := rfl
@[simp] theorem Dev.setEvent_regs (c b : Nat) : (d.setEvent c b).regs = d.regs := rfl
@[simp] theorem Dev.setEvent_latch (c b : Nat) : (d.setEvent c b).latch = d.latch := rfl
@[simp] theorem Dev.setEvent_rwlRefused (c b : Nat) : (d.setEvent c b).rwlRefused = d.rwlRefused := rfl
@[simp] theorem Dev.setEvent_mem (c b : Nat) : (d.setEvent c b).mem = d.mem := rfl
@[simp] theorem Dev.setEvent_cairn (c b : Nat) : (d.setEvent c b).cairn = d.cairn := rfl
@[simp] theorem Dev.setEvent_cnt (c b : Nat) : (d.setEvent c b).cnt = d.cnt := rfl
@[simp] theorem Dev.setEvent_ctn (c b : Nat) : (d.setEvent c b).ctn = d.ctn := rfl
@[simp] theorem Dev.setEvent_notch (c b : Nat) : (d.setEvent c b).notch = d.notch := rfl
@[simp] theorem Dev.setEvent_sad (c b : Nat) : (d.setEvent c b).sad = d.sad := rfl
@[simp] theorem Dev.setEvent_trv (c b : Nat) : (d.setEvent c b).trv = d.trv := rfl
@[simp] theorem Dev.setEvent_fab (c b : Nat) : (d.setEvent c b).fab = d.fab := rfl
@[simp] theorem Dev.setEvent_host (c b : Nat) : (d.setEvent c b).host = d.host := rfl
@[simp] theorem Dev.setEvent_tarn (c b : Nat) : (d.setEvent c b).tarn = d.tarn := rfl
@[simp] theorem Dev.setEvent_summit (c b : Nat) : (d.setEvent c b).summit = d.summit := rfl
@[simp] theorem Dev.setEvent_phy (c b : Nat) : (d.setEvent c b).phy = d.phy := rfl
@[simp] theorem Dev.setEvent_slot (c b : Nat) : (d.setEvent c b).slot = d.slot := rfl
@[simp] theorem Dev.setEvent_bist (c b : Nat) : (d.setEvent c b).bist = d.bist := rfl
@[simp] theorem Dev.setEvent_out (c b : Nat) : (d.setEvent c b).out = d.out := rfl

/-! ### setCount -/

@[simp] theorem Dev.setCount_power (k v : Nat) : (d.setCount k v).power = d.power := rfl
@[simp] theorem Dev.setCount_timeBase (k v : Nat) : (d.setCount k v).timeBase = d.timeBase := rfl
@[simp] theorem Dev.setCount_osc (k v : Nat) : (d.setCount k v).osc = d.osc := rfl
@[simp] theorem Dev.setCount_free (k v : Nat) : (d.setCount k v).free = d.free := rfl
@[simp] theorem Dev.setCount_regs (k v : Nat) : (d.setCount k v).regs = d.regs := rfl
@[simp] theorem Dev.setCount_latch (k v : Nat) : (d.setCount k v).latch = d.latch := rfl
@[simp] theorem Dev.setCount_rwlRefused (k v : Nat) : (d.setCount k v).rwlRefused = d.rwlRefused := rfl
@[simp] theorem Dev.setCount_mem (k v : Nat) : (d.setCount k v).mem = d.mem := rfl
@[simp] theorem Dev.setCount_spur (k v : Nat) : (d.setCount k v).spur = d.spur := rfl
@[simp] theorem Dev.setCount_cairn (k v : Nat) : (d.setCount k v).cairn = d.cairn := rfl
@[simp] theorem Dev.setCount_ctn (k v : Nat) : (d.setCount k v).ctn = d.ctn := rfl
@[simp] theorem Dev.setCount_notch (k v : Nat) : (d.setCount k v).notch = d.notch := rfl
@[simp] theorem Dev.setCount_sad (k v : Nat) : (d.setCount k v).sad = d.sad := rfl
@[simp] theorem Dev.setCount_trv (k v : Nat) : (d.setCount k v).trv = d.trv := rfl
@[simp] theorem Dev.setCount_fab (k v : Nat) : (d.setCount k v).fab = d.fab := rfl
@[simp] theorem Dev.setCount_host (k v : Nat) : (d.setCount k v).host = d.host := rfl
@[simp] theorem Dev.setCount_tarn (k v : Nat) : (d.setCount k v).tarn = d.tarn := rfl
@[simp] theorem Dev.setCount_summit (k v : Nat) : (d.setCount k v).summit = d.summit := rfl
@[simp] theorem Dev.setCount_phy (k v : Nat) : (d.setCount k v).phy = d.phy := rfl
@[simp] theorem Dev.setCount_slot (k v : Nat) : (d.setCount k v).slot = d.slot := rfl
@[simp] theorem Dev.setCount_bist (k v : Nat) : (d.setCount k v).bist = d.bist := rfl
@[simp] theorem Dev.setCount_out (k v : Nat) : (d.setCount k v).out = d.out := rfl

/-! ### emit -/

@[simp] theorem Dev.emit_power (o : Out) : (d.emit o).power = d.power := rfl
@[simp] theorem Dev.emit_timeBase (o : Out) : (d.emit o).timeBase = d.timeBase := rfl
@[simp] theorem Dev.emit_osc (o : Out) : (d.emit o).osc = d.osc := rfl
@[simp] theorem Dev.emit_free (o : Out) : (d.emit o).free = d.free := rfl
@[simp] theorem Dev.emit_regs (o : Out) : (d.emit o).regs = d.regs := rfl
@[simp] theorem Dev.emit_latch (o : Out) : (d.emit o).latch = d.latch := rfl
@[simp] theorem Dev.emit_rwlRefused (o : Out) : (d.emit o).rwlRefused = d.rwlRefused := rfl
@[simp] theorem Dev.emit_mem (o : Out) : (d.emit o).mem = d.mem := rfl
@[simp] theorem Dev.emit_spur (o : Out) : (d.emit o).spur = d.spur := rfl
@[simp] theorem Dev.emit_cairn (o : Out) : (d.emit o).cairn = d.cairn := rfl
@[simp] theorem Dev.emit_cnt (o : Out) : (d.emit o).cnt = d.cnt := rfl
@[simp] theorem Dev.emit_ctn (o : Out) : (d.emit o).ctn = d.ctn := rfl
@[simp] theorem Dev.emit_notch (o : Out) : (d.emit o).notch = d.notch := rfl
@[simp] theorem Dev.emit_sad (o : Out) : (d.emit o).sad = d.sad := rfl
@[simp] theorem Dev.emit_trv (o : Out) : (d.emit o).trv = d.trv := rfl
@[simp] theorem Dev.emit_fab (o : Out) : (d.emit o).fab = d.fab := rfl
@[simp] theorem Dev.emit_host (o : Out) : (d.emit o).host = d.host := rfl
@[simp] theorem Dev.emit_tarn (o : Out) : (d.emit o).tarn = d.tarn := rfl
@[simp] theorem Dev.emit_summit (o : Out) : (d.emit o).summit = d.summit := rfl
@[simp] theorem Dev.emit_phy (o : Out) : (d.emit o).phy = d.phy := rfl
@[simp] theorem Dev.emit_slot (o : Out) : (d.emit o).slot = d.slot := rfl
@[simp] theorem Dev.emit_bist (o : Out) : (d.emit o).bist = d.bist := rfl

/-! ### draw -/

@[simp] theorem Dev.draw_power : (d.draw.2).power = d.power := rfl
@[simp] theorem Dev.draw_timeBase : (d.draw.2).timeBase = d.timeBase := rfl
@[simp] theorem Dev.draw_osc : (d.draw.2).osc = d.osc := rfl
@[simp] theorem Dev.draw_regs : (d.draw.2).regs = d.regs := rfl
@[simp] theorem Dev.draw_latch : (d.draw.2).latch = d.latch := rfl
@[simp] theorem Dev.draw_rwlRefused : (d.draw.2).rwlRefused = d.rwlRefused := rfl
@[simp] theorem Dev.draw_mem : (d.draw.2).mem = d.mem := rfl
@[simp] theorem Dev.draw_spur : (d.draw.2).spur = d.spur := rfl
@[simp] theorem Dev.draw_cairn : (d.draw.2).cairn = d.cairn := rfl
@[simp] theorem Dev.draw_cnt : (d.draw.2).cnt = d.cnt := rfl
@[simp] theorem Dev.draw_ctn : (d.draw.2).ctn = d.ctn := rfl
@[simp] theorem Dev.draw_notch : (d.draw.2).notch = d.notch := rfl
@[simp] theorem Dev.draw_sad : (d.draw.2).sad = d.sad := rfl
@[simp] theorem Dev.draw_trv : (d.draw.2).trv = d.trv := rfl
@[simp] theorem Dev.draw_fab : (d.draw.2).fab = d.fab := rfl
@[simp] theorem Dev.draw_host : (d.draw.2).host = d.host := rfl
@[simp] theorem Dev.draw_tarn : (d.draw.2).tarn = d.tarn := rfl
@[simp] theorem Dev.draw_summit : (d.draw.2).summit = d.summit := rfl
@[simp] theorem Dev.draw_phy : (d.draw.2).phy = d.phy := rfl
@[simp] theorem Dev.draw_slot : (d.draw.2).slot = d.slot := rfl
@[simp] theorem Dev.draw_bist : (d.draw.2).bist = d.bist := rfl
@[simp] theorem Dev.draw_out : (d.draw.2).out = d.out := rfl

/-! ### drawNat -/

@[simp] theorem Dev.drawNat_power : (d.drawNat.2).power = d.power := rfl
@[simp] theorem Dev.drawNat_timeBase : (d.drawNat.2).timeBase = d.timeBase := rfl
@[simp] theorem Dev.drawNat_osc : (d.drawNat.2).osc = d.osc := rfl
@[simp] theorem Dev.drawNat_regs : (d.drawNat.2).regs = d.regs := rfl
@[simp] theorem Dev.drawNat_latch : (d.drawNat.2).latch = d.latch := rfl
@[simp] theorem Dev.drawNat_rwlRefused : (d.drawNat.2).rwlRefused = d.rwlRefused := rfl
@[simp] theorem Dev.drawNat_mem : (d.drawNat.2).mem = d.mem := rfl
@[simp] theorem Dev.drawNat_spur : (d.drawNat.2).spur = d.spur := rfl
@[simp] theorem Dev.drawNat_cairn : (d.drawNat.2).cairn = d.cairn := rfl
@[simp] theorem Dev.drawNat_cnt : (d.drawNat.2).cnt = d.cnt := rfl
@[simp] theorem Dev.drawNat_ctn : (d.drawNat.2).ctn = d.ctn := rfl
@[simp] theorem Dev.drawNat_notch : (d.drawNat.2).notch = d.notch := rfl
@[simp] theorem Dev.drawNat_sad : (d.drawNat.2).sad = d.sad := rfl
@[simp] theorem Dev.drawNat_trv : (d.drawNat.2).trv = d.trv := rfl
@[simp] theorem Dev.drawNat_fab : (d.drawNat.2).fab = d.fab := rfl
@[simp] theorem Dev.drawNat_host : (d.drawNat.2).host = d.host := rfl
@[simp] theorem Dev.drawNat_tarn : (d.drawNat.2).tarn = d.tarn := rfl
@[simp] theorem Dev.drawNat_summit : (d.drawNat.2).summit = d.summit := rfl
@[simp] theorem Dev.drawNat_phy : (d.drawNat.2).phy = d.phy := rfl
@[simp] theorem Dev.drawNat_slot : (d.drawNat.2).slot = d.slot := rfl
@[simp] theorem Dev.drawNat_bist : (d.drawNat.2).bist = d.bist := rfl
@[simp] theorem Dev.drawNat_out : (d.drawNat.2).out = d.out := rfl

end

/-! ### Lifted meanings -/

@[simp] theorem State.lift_next (s : State) (f : Dev → Dev) : s.lift f = .next { s with dev := f s.dev } := rfl

@[simp] theorem Dev.when_true (d : Dev) (f : Dev → Dev) : d.when true f = f d := rfl
@[simp] theorem Dev.when_false (d : Dev) (f : Dev → Dev) : d.when false f = d := rfl

/-! ### Register fields -/

/-- A field reads as what was written to it, cut to its width. -/
@[simp] theorem Dev.rd_wr_same (d : Dev) (f : Fld) (i v : Nat) : (d.wr f i v).rd f i = v % 2 ^ f.width := by
  simp [Dev.rd, Dev.wr]

/-- A write leaves the fields of other places alone. -/
theorem Dev.rd_wr_ne (d : Dev) {f g : Fld} {i j : Nat} (v : Nat) (h : g.key j ≠ f.key i) : (d.wr f i v).rd g j = d.rd g j := by
  simp [Dev.rd, Dev.wr, SMap.get_put_ne' _ _ _ _ h]

/-- What a field depends on. -/
theorem Dev.rd_congr {d e : Dev} (h : d.regs = e.regs) (f : Fld) (i : Nat) : d.rd f i = e.rd f i := by
  simp [Dev.rd, h]

theorem Dev.byte_congr {d e : Dev} (h : d.mem = e.mem) (a : Nat) : d.byte a = e.byte a := by
  simp [Dev.byte, h]

theorem Dev.core_congr {d e : Dev} (h : d.spur.cores = e.spur.cores) (c : Nat) : d.core c = e.core c := by
  simp [Dev.core, h]

/-! ### Memory -/

@[simp] theorem Dev.byte_setByte_same (d : Dev) (a : Nat) (v : Byte) : (d.setByte a v).byte a = v := by
  simp [Dev.byte, Dev.setByte]

theorem Dev.byte_setByte_ne (d : Dev) {a b : Nat} (v : Byte) (h : b ≠ a) : (d.setByte a v).byte b = d.byte b := by
  simp [Dev.byte, Dev.setByte, h]

/-- A byte write keeps the canonical form. -/
theorem Dev.wf_setByte (d : Dev) (a : Nat) (v : Byte) (h : Memory.wf d.mem = true) : Memory.wf (d.setByte a v).mem = true :=
  SMap.wf_put _ _ _ _ h

/-- A store of bytes changes only the bytes it stores to. -/
theorem Dev.byte_store_out (n : Nat) (d : Dev) (a v b : Nat) (h : b < a ∨ a + n ≤ b) : (d.store a n v).byte b = d.byte b := by
  induction n generalizing d a v with
  | zero => rfl
  | succ n ih =>
    rw [Dev.store, ih _ _ _ (by omega), Dev.byte_setByte_ne _ _ (by omega)]

theorem Dev.wf_store (n : Nat) (d : Dev) (a v : Nat) (h : Memory.wf d.mem = true) : Memory.wf (d.store a n v).mem = true := by
  induction n generalizing d a v with
  | zero => exact h
  | succ n ih => exact ih _ _ _ (Dev.wf_setByte _ _ _ h)

theorem Dev.byte_storeBytes_out (bs : List Byte) (d : Dev) (a b : Nat) (h : b < a ∨ a + bs.length ≤ b) :
    (d.storeBytes a bs).byte b = d.byte b := by
  induction bs generalizing d a with
  | nil => rfl
  | cons x bs ih =>
    simp only [List.length_cons] at h
    rw [Dev.storeBytes, ih _ _ (by omega), Dev.byte_setByte_ne _ _ (by omega)]

/-- A stored byte reads as it was stored. -/
theorem Dev.byte_storeBytes_in (bs : List Byte) (d : Dev) (a i : Nat) (h : i < bs.length) :
    (d.storeBytes a bs).byte (a + i) = bs[i] := by
  induction bs generalizing d a i with
  | nil => simp at h
  | cons x bs ih =>
    cases i with
    | zero => simp [Dev.storeBytes, Dev.byte_storeBytes_out]
    | succ i =>
      have := ih (d.setByte a x) (a + 1) i (by simpa using h)
      simpa [Dev.storeBytes, Nat.add_assoc, Nat.add_comm 1 i] using this

theorem Dev.wf_storeBytes (bs : List Byte) (d : Dev) (a : Nat) (h : Memory.wf d.mem = true) :
    Memory.wf (d.storeBytes a bs).mem = true := by
  induction bs generalizing d a with
  | nil => exact h
  | cons x bs ih => exact ih _ _ (Dev.wf_setByte _ _ _ h)

/-- Taking bytes off the list keeps the canonical form. -/
theorem Memory.wf_drop (p : Nat → Bool) (m : List Host.Cell) (h : Memory.wf m = true) : Memory.wf (SMap.drop p m) = true :=
  SMap.wf_drop _ p m h

/-- The memory after reset lists nothing. -/
theorem State.reset_wf : Memory.wf State.reset.dev.mem = true := rfl

/-! ### Spur cores -/

@[simp] theorem Dev.core_setCore_same (d : Dev) (c : Nat) (k : SpurCore) : (d.setCore c k).core c = k := by
  simp [Dev.core, Dev.setCore]

theorem Dev.core_setCore_ne (d : Dev) {c c' : Nat} (k : SpurCore) (h : c' ≠ c) : (d.setCore c k).core c' = d.core c' := by
  simp [Dev.core, Dev.setCore, h]

@[simp] theorem Dev.core_updCore_same (d : Dev) (c : Nat) (f : SpurCore → SpurCore) : (d.updCore c f).core c = f (d.core c) := by
  simp [Dev.updCore]

theorem Dev.core_updCore_ne (d : Dev) {c c' : Nat} (f : SpurCore → SpurCore) (h : c' ≠ c) : (d.updCore c f).core c' = d.core c' := by
  simp [Dev.updCore, Dev.core_setCore_ne _ _ h]

@[simp] theorem Dev.core_wr (d : Dev) (f : Fld) (i v c : Nat) : (d.wr f i v).core c = d.core c := rfl
@[simp] theorem Dev.core_emit (d : Dev) (o : Out) (c : Nat) : (d.emit o).core c = d.core c := rfl
@[simp] theorem Dev.core_setByte (d : Dev) (a : Nat) (v : Byte) (c : Nat) : (d.setByte a v).core c = d.core c := rfl

/-- g0 reads as zero (R28). -/
@[simp] theorem SpurCore.rdG_zero (k : SpurCore) : k.rdG 0 = 0 := rfl

/-- Another register is left alone by a write. -/
theorem SpurCore.rdG_wrG (k : SpurCore) (n m : Nat) (v : W64) :
    (k.wrG n v).rdG m = if m = n ∧ n ≠ 0 then v else k.rdG m := by
  unfold SpurCore.wrG SpurCore.rdG
  by_cases hn : n = 0
  · subst hn
    by_cases hm : m = 0 <;> simp [hm]
  · by_cases hm : m = n
    · subst hm; simp [hn]
    · by_cases h0 : m = 0
      · subst h0; simp [Ne.symm hn]
      · simp [hn, hm, h0]

end Sys2Proof.Machine
end

