-- ==== Sys2Proof/Laws/Ops.lean ====
section
/-! SUPPORT. What each shared operation can do: the fields it leaves alone, and what it does to the rest. -/

namespace Sys2Proof.Machine

open Sys2Proof

/-! ### Folds -/

/-- What every step of a fold leaves alone, the fold leaves alone. -/
theorem Dev.forIn'_keeps {α β : Type} (g : Dev → β) (f : α → Dev → Dev) (h : ∀ a d, g (f a d) = g d) (l : List α) (d : Dev) :
    g (d.forIn' l f) = g d := by
  unfold Dev.forIn'
  induction l generalizing d with
  | nil => rfl
  | cons a l ih => rw [List.foldl_cons, ih, h]

theorem Dev.each_keeps {β : Type} (g : Dev → β) (n : Nat) (f : Nat → Dev → Dev) (h : ∀ a d, g (f a d) = g d) (d : Dev) :
    g (d.each n f) = g d := Dev.forIn'_keeps g f h (List.range n) d

theorem Dev.when_keeps {β : Type} (g : Dev → β) (b : Bool) (f : Dev → Dev) (h : ∀ d, g (f d) = g d) (d : Dev) :
    g (d.when b f) = g d := by
  cases b
  · rfl
  · exact h d

/-- A property that every step of a fold keeps holds at its end. -/
theorem Dev.forIn'_inv {α : Type} (P : Dev → Prop) (f : α → Dev → Dev) (h : ∀ a d, P d → P (f a d)) (l : List α) (d : Dev)
    (hd : P d) : P (d.forIn' l f) := by
  unfold Dev.forIn'
  induction l generalizing d with
  | nil => exact hd
  | cons a l ih => exact ih _ (h a d hd)

theorem Dev.each_inv (P : Dev → Prop) (n : Nat) (f : Nat → Dev → Dev) (h : ∀ a d, P d → P (f a d)) (d : Dev) (hd : P d) :
    P (d.each n f) := Dev.forIn'_inv P f h (List.range n) d hd

theorem Dev.when_inv (P : Dev → Prop) (b : Bool) (f : Dev → Dev) (h : ∀ d, P d → P (f d)) (d : Dev) (hd : P d) : P (d.when b f) := by
  cases b
  · exact hd
  · exact h d hd

/-! ### Events: only counts and their overflow flags change (R398 to R402) -/

/-- What one counter does with a value: nothing, or a new count with or without its overflow flag. -/
theorem Dev.countOne_cases (d : Dev) (k v : Nat) :
    d.countOne k v = d ∨ (∃ n, d.countOne k v = d.setCount k n) ∨
      ∃ n, d.countOne k v = (d.setCount k n).setOn CNT.SEL.OVF k true := by
  have a (n : Nat) (b : Bool) : ((d.setCount k n).when b fun d => d.setOn CNT.SEL.OVF k true) = d ∨
      (∃ m, ((d.setCount k n).when b fun d => d.setOn CNT.SEL.OVF k true) = d.setCount k m) ∨
      ∃ m, ((d.setCount k n).when b fun d => d.setOn CNT.SEL.OVF k true) = (d.setCount k m).setOn CNT.SEL.OVF k true := by
    cases b
    · exact .inr (.inl ⟨n, rfl⟩)
    · exact .inr (.inr ⟨n, rfl⟩)
  simp only [Dev.countOne]
  split
  · exact a _ _
  · split
    · exact a _ _
    · exact .inl rfl
  · split
    · exact a _ _
    · exact .inl rfl
  · split
    · exact .inr (.inl ⟨_, rfl⟩)
    · exact .inl rfl

@[simp] theorem Dev.countOne_power (d : Dev) (k v : Nat) : (d.countOne k v).power = d.power := by
  rcases d.countOne_cases k v with h | ⟨n, h⟩ | ⟨n, h⟩ <;> rw [h] <;> rfl
@[simp] theorem Dev.event_power (d : Dev) (code inst : Nat) (q : EvQual) (v : Nat) : (d.event code inst q v).power = d.power := by
  unfold Dev.event
  split
  · exact Dev.forIn'_keeps Dev.power _ (fun k d => Dev.when_keeps Dev.power _ _ (fun d => d.countOne_power k v) d) _ d
  · rfl

@[simp] theorem Dev.countOne_timeBase (d : Dev) (k v : Nat) : (d.countOne k v).timeBase = d.timeBase := by
  rcases d.countOne_cases k v with h | ⟨n, h⟩ | ⟨n, h⟩ <;> rw [h] <;> rfl
@[simp] theorem Dev.event_timeBase (d : Dev) (code inst : Nat) (q : EvQual) (v : Nat) : (d.event code inst q v).timeBase = d.timeBase := by
  unfold Dev.event
  split
  · exact Dev.forIn'_keeps Dev.timeBase _ (fun k d => Dev.when_keeps Dev.timeBase _ _ (fun d => d.countOne_timeBase k v) d) _ d
  · rfl

@[simp] theorem Dev.countOne_osc (d : Dev) (k v : Nat) : (d.countOne k v).osc = d.osc := by
  rcases d.countOne_cases k v with h | ⟨n, h⟩ | ⟨n, h⟩ <;> rw [h] <;> rfl
@[simp] theorem Dev.event_osc (d : Dev) (code inst : Nat) (q : EvQual) (v : Nat) : (d.event code inst q v).osc = d.osc := by
  unfold Dev.event
  split
  · exact Dev.forIn'_keeps Dev.osc _ (fun k d => Dev.when_keeps Dev.osc _ _ (fun d => d.countOne_osc k v) d) _ d
  · rfl

@[simp] theorem Dev.countOne_free (d : Dev) (k v : Nat) : (d.countOne k v).free = d.free := by
  rcases d.countOne_cases k v with h | ⟨n, h⟩ | ⟨n, h⟩ <;> rw [h] <;> rfl
@[simp] theorem Dev.event_free (d : Dev) (code inst : Nat) (q : EvQual) (v : Nat) : (d.event code inst q v).free = d.free := by
  unfold Dev.event
  split
  · exact Dev.forIn'_keeps Dev.free _ (fun k d => Dev.when_keeps Dev.free _ _ (fun d => d.countOne_free k v) d) _ d
  · rfl

@[simp] theorem Dev.countOne_latch (d : Dev) (k v : Nat) : (d.countOne k v).latch = d.latch := by
  rcases d.countOne_cases k v with h | ⟨n, h⟩ | ⟨n, h⟩ <;> rw [h] <;> rfl
@[simp] theorem Dev.event_latch (d : Dev) (code inst : Nat) (q : EvQual) (v : Nat) : (d.event code inst q v).latch = d.latch := by
  unfold Dev.event
  split
  · exact Dev.forIn'_keeps Dev.latch _ (fun k d => Dev.when_keeps Dev.latch _ _ (fun d => d.countOne_latch k v) d) _ d
  · rfl

@[simp] theorem Dev.countOne_rwlRefused (d : Dev) (k v : Nat) : (d.countOne k v).rwlRefused = d.rwlRefused := by
  rcases d.countOne_cases k v with h | ⟨n, h⟩ | ⟨n, h⟩ <;> rw [h] <;> rfl
@[simp] theorem Dev.event_rwlRefused (d : Dev) (code inst : Nat) (q : EvQual) (v : Nat) : (d.event code inst q v).rwlRefused = d.rwlRefused := by
  unfold Dev.event
  split
  · exact Dev.forIn'_keeps Dev.rwlRefused _ (fun k d => Dev.when_keeps Dev.rwlRefused _ _ (fun d => d.countOne_rwlRefused k v) d) _ d
  · rfl

@[simp] theorem Dev.countOne_mem (d : Dev) (k v : Nat) : (d.countOne k v).mem = d.mem := by
  rcases d.countOne_cases k v with h | ⟨n, h⟩ | ⟨n, h⟩ <;> rw [h] <;> rfl
@[simp] theorem Dev.event_mem (d : Dev) (code inst : Nat) (q : EvQual) (v : Nat) : (d.event code inst q v).mem = d.mem := by
  unfold Dev.event
  split
  · exact Dev.forIn'_keeps Dev.mem _ (fun k d => Dev.when_keeps Dev.mem _ _ (fun d => d.countOne_mem k v) d) _ d
  · rfl

@[simp] theorem Dev.countOne_spur (d : Dev) (k v : Nat) : (d.countOne k v).spur = d.spur := by
  rcases d.countOne_cases k v with h | ⟨n, h⟩ | ⟨n, h⟩ <;> rw [h] <;> rfl
@[simp] theorem Dev.event_spur (d : Dev) (code inst : Nat) (q : EvQual) (v : Nat) : (d.event code inst q v).spur = d.spur := by
  unfold Dev.event
  split
  · exact Dev.forIn'_keeps Dev.spur _ (fun k d => Dev.when_keeps Dev.spur _ _ (fun d => d.countOne_spur k v) d) _ d
  · rfl

@[simp] theorem Dev.countOne_cairn (d : Dev) (k v : Nat) : (d.countOne k v).cairn = d.cairn := by
  rcases d.countOne_cases k v with h | ⟨n, h⟩ | ⟨n, h⟩ <;> rw [h] <;> rfl
@[simp] theorem Dev.event_cairn (d : Dev) (code inst : Nat) (q : EvQual) (v : Nat) : (d.event code inst q v).cairn = d.cairn := by
  unfold Dev.event
  split
  · exact Dev.forIn'_keeps Dev.cairn _ (fun k d => Dev.when_keeps Dev.cairn _ _ (fun d => d.countOne_cairn k v) d) _ d
  · rfl

@[simp] theorem Dev.countOne_ctn (d : Dev) (k v : Nat) : (d.countOne k v).ctn = d.ctn := by
  rcases d.countOne_cases k v with h | ⟨n, h⟩ | ⟨n, h⟩ <;> rw [h] <;> rfl
@[simp] theorem Dev.event_ctn (d : Dev) (code inst : Nat) (q : EvQual) (v : Nat) : (d.event code inst q v).ctn = d.ctn := by
  unfold Dev.event
  split
  · exact Dev.forIn'_keeps Dev.ctn _ (fun k d => Dev.when_keeps Dev.ctn _ _ (fun d => d.countOne_ctn k v) d) _ d
  · rfl

@[simp] theorem Dev.countOne_notch (d : Dev) (k v : Nat) : (d.countOne k v).notch = d.notch := by
  rcases d.countOne_cases k v with h | ⟨n, h⟩ | ⟨n, h⟩ <;> rw [h] <;> rfl
@[simp] theorem Dev.event_notch (d : Dev) (code inst : Nat) (q : EvQual) (v : Nat) : (d.event code inst q v).notch = d.notch := by
  unfold Dev.event
  split
  · exact Dev.forIn'_keeps Dev.notch _ (fun k d => Dev.when_keeps Dev.notch _ _ (fun d => d.countOne_notch k v) d) _ d
  · rfl

@[simp] theorem Dev.countOne_sad (d : Dev) (k v : Nat) : (d.countOne k v).sad = d.sad := by
  rcases d.countOne_cases k v with h | ⟨n, h⟩ | ⟨n, h⟩ <;> rw [h] <;> rfl
@[simp] theorem Dev.event_sad (d : Dev) (code inst : Nat) (q : EvQual) (v : Nat) : (d.event code inst q v).sad = d.sad := by
  unfold Dev.event
  split
  · exact Dev.forIn'_keeps Dev.sad _ (fun k d => Dev.when_keeps Dev.sad _ _ (fun d => d.countOne_sad k v) d) _ d
  · rfl

@[simp] theorem Dev.countOne_trv (d : Dev) (k v : Nat) : (d.countOne k v).trv = d.trv := by
  rcases d.countOne_cases k v with h | ⟨n, h⟩ | ⟨n, h⟩ <;> rw [h] <;> rfl
@[simp] theorem Dev.event_trv (d : Dev) (code inst : Nat) (q : EvQual) (v : Nat) : (d.event code inst q v).trv = d.trv := by
  unfold Dev.event
  split
  · exact Dev.forIn'_keeps Dev.trv _ (fun k d => Dev.when_keeps Dev.trv _ _ (fun d => d.countOne_trv k v) d) _ d
  · rfl

@[simp] theorem Dev.countOne_fab (d : Dev) (k v : Nat) : (d.countOne k v).fab = d.fab := by
  rcases d.countOne_cases k v with h | ⟨n, h⟩ | ⟨n, h⟩ <;> rw [h] <;> rfl
@[simp] theorem Dev.event_fab (d : Dev) (code inst : Nat) (q : EvQual) (v : Nat) : (d.event code inst q v).fab = d.fab := by
  unfold Dev.event
  split
  · exact Dev.forIn'_keeps Dev.fab _ (fun k d => Dev.when_keeps Dev.fab _ _ (fun d => d.countOne_fab k v) d) _ d
  · rfl

@[simp] theorem Dev.countOne_host (d : Dev) (k v : Nat) : (d.countOne k v).host = d.host := by
  rcases d.countOne_cases k v with h | ⟨n, h⟩ | ⟨n, h⟩ <;> rw [h] <;> rfl
@[simp] theorem Dev.event_host (d : Dev) (code inst : Nat) (q : EvQual) (v : Nat) : (d.event code inst q v).host = d.host := by
  unfold Dev.event
  split
  · exact Dev.forIn'_keeps Dev.host _ (fun k d => Dev.when_keeps Dev.host _ _ (fun d => d.countOne_host k v) d) _ d
  · rfl

@[simp] theorem Dev.countOne_tarn (d : Dev) (k v : Nat) : (d.countOne k v).tarn = d.tarn := by
  rcases d.countOne_cases k v with h | ⟨n, h⟩ | ⟨n, h⟩ <;> rw [h] <;> rfl
@[simp] theorem Dev.event_tarn (d : Dev) (code inst : Nat) (q : EvQual) (v : Nat) : (d.event code inst q v).tarn = d.tarn := by
  unfold Dev.event
  split
  · exact Dev.forIn'_keeps Dev.tarn _ (fun k d => Dev.when_keeps Dev.tarn _ _ (fun d => d.countOne_tarn k v) d) _ d
  · rfl

@[simp] theorem Dev.countOne_summit (d : Dev) (k v : Nat) : (d.countOne k v).summit = d.summit := by
  rcases d.countOne_cases k v with h | ⟨n, h⟩ | ⟨n, h⟩ <;> rw [h] <;> rfl
@[simp] theorem Dev.event_summit (d : Dev) (code inst : Nat) (q : EvQual) (v : Nat) : (d.event code inst q v).summit = d.summit := by
  unfold Dev.event
  split
  · exact Dev.forIn'_keeps Dev.summit _ (fun k d => Dev.when_keeps Dev.summit _ _ (fun d => d.countOne_summit k v) d) _ d
  · rfl

@[simp] theorem Dev.countOne_phy (d : Dev) (k v : Nat) : (d.countOne k v).phy = d.phy := by
  rcases d.countOne_cases k v with h | ⟨n, h⟩ | ⟨n, h⟩ <;> rw [h] <;> rfl
@[simp] theorem Dev.event_phy (d : Dev) (code inst : Nat) (q : EvQual) (v : Nat) : (d.event code inst q v).phy = d.phy := by
  unfold Dev.event
  split
  · exact Dev.forIn'_keeps Dev.phy _ (fun k d => Dev.when_keeps Dev.phy _ _ (fun d => d.countOne_phy k v) d) _ d
  · rfl

@[simp] theorem Dev.countOne_slot (d : Dev) (k v : Nat) : (d.countOne k v).slot = d.slot := by
  rcases d.countOne_cases k v with h | ⟨n, h⟩ | ⟨n, h⟩ <;> rw [h] <;> rfl
@[simp] theorem Dev.event_slot (d : Dev) (code inst : Nat) (q : EvQual) (v : Nat) : (d.event code inst q v).slot = d.slot := by
  unfold Dev.event
  split
  · exact Dev.forIn'_keeps Dev.slot _ (fun k d => Dev.when_keeps Dev.slot _ _ (fun d => d.countOne_slot k v) d) _ d
  · rfl

@[simp] theorem Dev.countOne_bist (d : Dev) (k v : Nat) : (d.countOne k v).bist = d.bist := by
  rcases d.countOne_cases k v with h | ⟨n, h⟩ | ⟨n, h⟩ <;> rw [h] <;> rfl
@[simp] theorem Dev.event_bist (d : Dev) (code inst : Nat) (q : EvQual) (v : Nat) : (d.event code inst q v).bist = d.bist := by
  unfold Dev.event
  split
  · exact Dev.forIn'_keeps Dev.bist _ (fun k d => Dev.when_keeps Dev.bist _ _ (fun d => d.countOne_bist k v) d) _ d
  · rfl

@[simp] theorem Dev.countOne_out (d : Dev) (k v : Nat) : (d.countOne k v).out = d.out := by
  rcases d.countOne_cases k v with h | ⟨n, h⟩ | ⟨n, h⟩ <;> rw [h] <;> rfl
@[simp] theorem Dev.event_out (d : Dev) (code inst : Nat) (q : EvQual) (v : Nat) : (d.event code inst q v).out = d.out := by
  unfold Dev.event
  split
  · exact Dev.forIn'_keeps Dev.out _ (fun k d => Dev.when_keeps Dev.out _ _ (fun d => d.countOne_out k v) d) _ d
  · rfl


/-- A counter that counts changes its own count and overflow flag alone. -/
theorem Dev.rd_countOne (d : Dev) (k v : Nat) (f : Fld) (i : Nat) (h : ∀ j, f.key i ≠ CNT.SEL.OVF.key j) :
    (d.countOne k v).rd f i = d.rd f i := by
  rcases d.countOne_cases k v with e | ⟨n, e⟩ | ⟨n, e⟩ <;> rw [e]
  · rfl
  · exact Dev.rd_wr_ne _ _ (h k)

/-- An event changes no register field but the overflow flags of counters. -/
theorem Dev.rd_event (d : Dev) (code inst : Nat) (q : EvQual) (v : Nat) (f : Fld) (i : Nat) (h : ∀ j, f.key i ≠ CNT.SEL.OVF.key j) :
    (d.event code inst q v).rd f i = d.rd f i := by
  unfold Dev.event
  split
  · exact Dev.forIn'_keeps (fun d => d.rd f i) _
      (fun k d => Dev.when_keeps (fun d => d.rd f i) _ _ (fun d => d.rd_countOne k v f i h) d) _ d
  · rfl

/-- An event changes no counter state but the counts. -/
theorem Dev.cnt_event (d : Dev) (code inst : Nat) (q : EvQual) (v : Nat) :
    (d.event code inst q v).cnt = { d.cnt with count := (d.event code inst q v).cnt.count } := by
  have one : ∀ (k : Nat) (e : Dev), ({ (e.countOne k v).cnt with count := [] } : CntSt) = { e.cnt with count := [] } := by
    intro k e
    rcases e.countOne_cases k v with h | ⟨n, h⟩ | ⟨n, h⟩ <;> rw [h] <;> rfl
  have key : ({ (d.event code inst q v).cnt with count := [] } : CntSt) = { d.cnt with count := [] } := by
    unfold Dev.event
    split
    · exact Dev.forIn'_keeps (fun x : Dev => ({ x.cnt with count := [] } : CntSt)) _
        (fun k d => Dev.when_keeps (fun x : Dev => ({ x.cnt with count := [] } : CntSt)) _ _ (one k) d) _ d
    · rfl
  generalize d.event code inst q v = e at key ⊢
  cases h : e.cnt
  cases h' : d.cnt
  simp_all

/-- An event leaves everything but the counts and register fields. -/
theorem Dev.event_eq (d : Dev) (code inst : Nat) (q : EvQual) (v : Nat) :
    d.event code inst q v = { d with
      cnt := { d.cnt with count := (d.event code inst q v).cnt.count }, regs := (d.event code inst q v).regs } := by
  have hc := d.cnt_event code inst q v
  have h_power := d.event_power code inst q v
  have h_timeBase := d.event_timeBase code inst q v
  have h_osc := d.event_osc code inst q v
  have h_free := d.event_free code inst q v
  have h_latch := d.event_latch code inst q v
  have h_rwlRefused := d.event_rwlRefused code inst q v
  have h_mem := d.event_mem code inst q v
  have h_spur := d.event_spur code inst q v
  have h_cairn := d.event_cairn code inst q v
  have h_ctn := d.event_ctn code inst q v
  have h_notch := d.event_notch code inst q v
  have h_sad := d.event_sad code inst q v
  have h_trv := d.event_trv code inst q v
  have h_fab := d.event_fab code inst q v
  have h_host := d.event_host code inst q v
  have h_tarn := d.event_tarn code inst q v
  have h_summit := d.event_summit code inst q v
  have h_phy := d.event_phy code inst q v
  have h_slot := d.event_slot code inst q v
  have h_bist := d.event_bist code inst q v
  have h_out := d.event_out code inst q v
  generalize d.event code inst q v = e at *
  cases e
  cases d
  exact Dev.mk.injEq .. ▸ ⟨h_power, h_timeBase, h_osc, h_free, rfl, h_latch, h_rwlRefused, h_mem, h_spur, h_cairn, hc, h_ctn, h_notch, h_sad, h_trv, h_fab, h_host, h_tarn, h_summit, h_phy, h_slot, h_bist, h_out⟩

@[simp] theorem Dev.core_event (d : Dev) (code inst : Nat) (q : EvQual) (v c : Nat) : (d.event code inst q v).core c = d.core c :=
  Dev.core_congr (by simp) c

/-! ### The Cairn -/

/-- A record that a source forms goes to its own queue; nothing else of the Cairn changes but the count of discarded ones. -/
theorem Dev.cairnPush_ring (d : Dev) (src inst event x y : Nat) : (d.cairnPush src inst event x y).cairn.ring = d.cairn.ring := by
  unfold Dev.cairnPush
  split <;> rfl

@[simp] theorem Dev.cairnPush_power (d : Dev) (src inst event x y : Nat) : (d.cairnPush src inst event x y).power = d.power := by
  unfold Dev.cairnPush
  split <;> rfl

@[simp] theorem Dev.cairnPush_timeBase (d : Dev) (src inst event x y : Nat) : (d.cairnPush src inst event x y).timeBase = d.timeBase := by
  unfold Dev.cairnPush
  split <;> rfl

@[simp] theorem Dev.cairnPush_osc (d : Dev) (src inst event x y : Nat) : (d.cairnPush src inst event x y).osc = d.osc := by
  unfold Dev.cairnPush
  split <;> rfl

@[simp] theorem Dev.cairnPush_free (d : Dev) (src inst event x y : Nat) : (d.cairnPush src inst event x y).free = d.free := by
  unfold Dev.cairnPush
  split <;> rfl

@[simp] theorem Dev.cairnPush_latch (d : Dev) (src inst event x y : Nat) : (d.cairnPush src inst event x y).latch = d.latch := by
  unfold Dev.cairnPush
  split <;> rfl

@[simp] theorem Dev.cairnPush_rwlRefused (d : Dev) (src inst event x y : Nat) : (d.cairnPush src inst event x y).rwlRefused = d.rwlRefused := by
  unfold Dev.cairnPush
  split <;> rfl

@[simp] theorem Dev.cairnPush_mem (d : Dev) (src inst event x y : Nat) : (d.cairnPush src inst event x y).mem = d.mem := by
  unfold Dev.cairnPush
  split <;> rfl

@[simp] theorem Dev.cairnPush_spur (d : Dev) (src inst event x y : Nat) : (d.cairnPush src inst event x y).spur = d.spur := by
  unfold Dev.cairnPush
  split <;> rfl

@[simp] theorem Dev.cairnPush_cnt (d : Dev) (src inst event x y : Nat) : (d.cairnPush src inst event x y).cnt = d.cnt := by
  unfold Dev.cairnPush
  split <;> rfl

@[simp] theorem Dev.cairnPush_ctn (d : Dev) (src inst event x y : Nat) : (d.cairnPush src inst event x y).ctn = d.ctn := by
  unfold Dev.cairnPush
  split <;> rfl

@[simp] theorem Dev.cairnPush_notch (d : Dev) (src inst event x y : Nat) : (d.cairnPush src inst event x y).notch = d.notch := by
  unfold Dev.cairnPush
  split <;> rfl

@[simp] theorem Dev.cairnPush_sad (d : Dev) (src inst event x y : Nat) : (d.cairnPush src inst event x y).sad = d.sad := by
  unfold Dev.cairnPush
  split <;> rfl

@[simp] theorem Dev.cairnPush_trv (d : Dev) (src inst event x y : Nat) : (d.cairnPush src inst event x y).trv = d.trv := by
  unfold Dev.cairnPush
  split <;> rfl

@[simp] theorem Dev.cairnPush_fab (d : Dev) (src inst event x y : Nat) : (d.cairnPush src inst event x y).fab = d.fab := by
  unfold Dev.cairnPush
  split <;> rfl

@[simp] theorem Dev.cairnPush_host (d : Dev) (src inst event x y : Nat) : (d.cairnPush src inst event x y).host = d.host := by
  unfold Dev.cairnPush
  split <;> rfl

@[simp] theorem Dev.cairnPush_tarn (d : Dev) (src inst event x y : Nat) : (d.cairnPush src inst event x y).tarn = d.tarn := by
  unfold Dev.cairnPush
  split <;> rfl

@[simp] theorem Dev.cairnPush_summit (d : Dev) (src inst event x y : Nat) : (d.cairnPush src inst event x y).summit = d.summit := by
  unfold Dev.cairnPush
  split <;> rfl

@[simp] theorem Dev.cairnPush_phy (d : Dev) (src inst event x y : Nat) : (d.cairnPush src inst event x y).phy = d.phy := by
  unfold Dev.cairnPush
  split <;> rfl

@[simp] theorem Dev.cairnPush_slot (d : Dev) (src inst event x y : Nat) : (d.cairnPush src inst event x y).slot = d.slot := by
  unfold Dev.cairnPush
  split <;> rfl

@[simp] theorem Dev.cairnPush_bist (d : Dev) (src inst event x y : Nat) : (d.cairnPush src inst event x y).bist = d.bist := by
  unfold Dev.cairnPush
  split <;> rfl

@[simp] theorem Dev.cairnPush_out (d : Dev) (src inst event x y : Nat) : (d.cairnPush src inst event x y).out = d.out := by
  unfold Dev.cairnPush
  split <;> rfl


theorem Dev.rd_cairnPush (d : Dev) (src inst event x y : Nat) (f : Fld) (i : Nat) (h : f.key i ≠ CAIRN.COUNT.DISCARDED.key 0) :
    (d.cairnPush src inst event x y).rd f i = d.rd f i := by
  unfold Dev.cairnPush
  split
  · exact Dev.rd_wr_ne _ _ h
  · rfl

@[simp] theorem Dev.core_cairnPush (d : Dev) (src inst event x y c : Nat) : (d.cairnPush src inst event x y).core c = d.core c :=
  Dev.core_congr (by simp) c

/-! ### Stores -/

@[simp] theorem Dev.store_power (n : Nat) (d : Dev) (a v : Nat) : (d.store a n v).power = d.power := by
  induction n generalizing d a v with
  | zero => rfl
  | succ n ih => rw [Dev.store, ih]; rfl
@[simp] theorem Dev.storeBytes_power (bs : List Byte) (d : Dev) (a : Nat) : (d.storeBytes a bs).power = d.power := by
  induction bs generalizing d a with
  | nil => rfl
  | cons b bs ih => rw [Dev.storeBytes, ih]; rfl
@[simp] theorem Dev.spurBytes_power (bs : List Byte) (d : Dev) (a : Nat) : (d.spurBytes a bs).power = d.power := by
  induction bs generalizing d a with
  | nil => rfl
  | cons b bs ih => rw [Dev.spurBytes, ih]; rfl

@[simp] theorem Dev.store_timeBase (n : Nat) (d : Dev) (a v : Nat) : (d.store a n v).timeBase = d.timeBase := by
  induction n generalizing d a v with
  | zero => rfl
  | succ n ih => rw [Dev.store, ih]; rfl
@[simp] theorem Dev.storeBytes_timeBase (bs : List Byte) (d : Dev) (a : Nat) : (d.storeBytes a bs).timeBase = d.timeBase := by
  induction bs generalizing d a with
  | nil => rfl
  | cons b bs ih => rw [Dev.storeBytes, ih]; rfl
@[simp] theorem Dev.spurBytes_timeBase (bs : List Byte) (d : Dev) (a : Nat) : (d.spurBytes a bs).timeBase = d.timeBase := by
  induction bs generalizing d a with
  | nil => rfl
  | cons b bs ih => rw [Dev.spurBytes, ih]; rfl

@[simp] theorem Dev.store_osc (n : Nat) (d : Dev) (a v : Nat) : (d.store a n v).osc = d.osc := by
  induction n generalizing d a v with
  | zero => rfl
  | succ n ih => rw [Dev.store, ih]; rfl
@[simp] theorem Dev.storeBytes_osc (bs : List Byte) (d : Dev) (a : Nat) : (d.storeBytes a bs).osc = d.osc := by
  induction bs generalizing d a with
  | nil => rfl
  | cons b bs ih => rw [Dev.storeBytes, ih]; rfl
@[simp] theorem Dev.spurBytes_osc (bs : List Byte) (d : Dev) (a : Nat) : (d.spurBytes a bs).osc = d.osc := by
  induction bs generalizing d a with
  | nil => rfl
  | cons b bs ih => rw [Dev.spurBytes, ih]; rfl

@[simp] theorem Dev.store_free (n : Nat) (d : Dev) (a v : Nat) : (d.store a n v).free = d.free := by
  induction n generalizing d a v with
  | zero => rfl
  | succ n ih => rw [Dev.store, ih]; rfl
@[simp] theorem Dev.storeBytes_free (bs : List Byte) (d : Dev) (a : Nat) : (d.storeBytes a bs).free = d.free := by
  induction bs generalizing d a with
  | nil => rfl
  | cons b bs ih => rw [Dev.storeBytes, ih]; rfl
@[simp] theorem Dev.spurBytes_free (bs : List Byte) (d : Dev) (a : Nat) : (d.spurBytes a bs).free = d.free := by
  induction bs generalizing d a with
  | nil => rfl
  | cons b bs ih => rw [Dev.spurBytes, ih]; rfl

@[simp] theorem Dev.store_regs (n : Nat) (d : Dev) (a v : Nat) : (d.store a n v).regs = d.regs := by
  induction n generalizing d a v with
  | zero => rfl
  | succ n ih => rw [Dev.store, ih]; rfl
@[simp] theorem Dev.storeBytes_regs (bs : List Byte) (d : Dev) (a : Nat) : (d.storeBytes a bs).regs = d.regs := by
  induction bs generalizing d a with
  | nil => rfl
  | cons b bs ih => rw [Dev.storeBytes, ih]; rfl
@[simp] theorem Dev.spurBytes_regs (bs : List Byte) (d : Dev) (a : Nat) : (d.spurBytes a bs).regs = d.regs := by
  induction bs generalizing d a with
  | nil => rfl
  | cons b bs ih => rw [Dev.spurBytes, ih]; rfl

@[simp] theorem Dev.store_latch (n : Nat) (d : Dev) (a v : Nat) : (d.store a n v).latch = d.latch := by
  induction n generalizing d a v with
  | zero => rfl
  | succ n ih => rw [Dev.store, ih]; rfl
@[simp] theorem Dev.storeBytes_latch (bs : List Byte) (d : Dev) (a : Nat) : (d.storeBytes a bs).latch = d.latch := by
  induction bs generalizing d a with
  | nil => rfl
  | cons b bs ih => rw [Dev.storeBytes, ih]; rfl
@[simp] theorem Dev.spurBytes_latch (bs : List Byte) (d : Dev) (a : Nat) : (d.spurBytes a bs).latch = d.latch := by
  induction bs generalizing d a with
  | nil => rfl
  | cons b bs ih => rw [Dev.spurBytes, ih]; rfl

@[simp] theorem Dev.store_rwlRefused (n : Nat) (d : Dev) (a v : Nat) : (d.store a n v).rwlRefused = d.rwlRefused := by
  induction n generalizing d a v with
  | zero => rfl
  | succ n ih => rw [Dev.store, ih]; rfl
@[simp] theorem Dev.storeBytes_rwlRefused (bs : List Byte) (d : Dev) (a : Nat) : (d.storeBytes a bs).rwlRefused = d.rwlRefused := by
  induction bs generalizing d a with
  | nil => rfl
  | cons b bs ih => rw [Dev.storeBytes, ih]; rfl
@[simp] theorem Dev.spurBytes_rwlRefused (bs : List Byte) (d : Dev) (a : Nat) : (d.spurBytes a bs).rwlRefused = d.rwlRefused := by
  induction bs generalizing d a with
  | nil => rfl
  | cons b bs ih => rw [Dev.spurBytes, ih]; rfl

@[simp] theorem Dev.store_spur (n : Nat) (d : Dev) (a v : Nat) : (d.store a n v).spur = d.spur := by
  induction n generalizing d a v with
  | zero => rfl
  | succ n ih => rw [Dev.store, ih]; rfl
@[simp] theorem Dev.storeBytes_spur (bs : List Byte) (d : Dev) (a : Nat) : (d.storeBytes a bs).spur = d.spur := by
  induction bs generalizing d a with
  | nil => rfl
  | cons b bs ih => rw [Dev.storeBytes, ih]; rfl
@[simp] theorem Dev.spurBytes_spur (bs : List Byte) (d : Dev) (a : Nat) : (d.spurBytes a bs).spur = d.spur := by
  induction bs generalizing d a with
  | nil => rfl
  | cons b bs ih => rw [Dev.spurBytes, ih]; rfl

@[simp] theorem Dev.store_cairn (n : Nat) (d : Dev) (a v : Nat) : (d.store a n v).cairn = d.cairn := by
  induction n generalizing d a v with
  | zero => rfl
  | succ n ih => rw [Dev.store, ih]; rfl
@[simp] theorem Dev.storeBytes_cairn (bs : List Byte) (d : Dev) (a : Nat) : (d.storeBytes a bs).cairn = d.cairn := by
  induction bs generalizing d a with
  | nil => rfl
  | cons b bs ih => rw [Dev.storeBytes, ih]; rfl
@[simp] theorem Dev.spurBytes_cairn (bs : List Byte) (d : Dev) (a : Nat) : (d.spurBytes a bs).cairn = d.cairn := by
  induction bs generalizing d a with
  | nil => rfl
  | cons b bs ih => rw [Dev.spurBytes, ih]; rfl

@[simp] theorem Dev.store_cnt (n : Nat) (d : Dev) (a v : Nat) : (d.store a n v).cnt = d.cnt := by
  induction n generalizing d a v with
  | zero => rfl
  | succ n ih => rw [Dev.store, ih]; rfl
@[simp] theorem Dev.storeBytes_cnt (bs : List Byte) (d : Dev) (a : Nat) : (d.storeBytes a bs).cnt = d.cnt := by
  induction bs generalizing d a with
  | nil => rfl
  | cons b bs ih => rw [Dev.storeBytes, ih]; rfl
@[simp] theorem Dev.spurBytes_cnt (bs : List Byte) (d : Dev) (a : Nat) : (d.spurBytes a bs).cnt = d.cnt := by
  induction bs generalizing d a with
  | nil => rfl
  | cons b bs ih => rw [Dev.spurBytes, ih]; rfl

@[simp] theorem Dev.store_ctn (n : Nat) (d : Dev) (a v : Nat) : (d.store a n v).ctn = d.ctn := by
  induction n generalizing d a v with
  | zero => rfl
  | succ n ih => rw [Dev.store, ih]; rfl
@[simp] theorem Dev.storeBytes_ctn (bs : List Byte) (d : Dev) (a : Nat) : (d.storeBytes a bs).ctn = d.ctn := by
  induction bs generalizing d a with
  | nil => rfl
  | cons b bs ih => rw [Dev.storeBytes, ih]; rfl
@[simp] theorem Dev.spurBytes_ctn (bs : List Byte) (d : Dev) (a : Nat) : (d.spurBytes a bs).ctn = d.ctn := by
  induction bs generalizing d a with
  | nil => rfl
  | cons b bs ih => rw [Dev.spurBytes, ih]; rfl

@[simp] theorem Dev.store_notch (n : Nat) (d : Dev) (a v : Nat) : (d.store a n v).notch = d.notch := by
  induction n generalizing d a v with
  | zero => rfl
  | succ n ih => rw [Dev.store, ih]; rfl
@[simp] theorem Dev.storeBytes_notch (bs : List Byte) (d : Dev) (a : Nat) : (d.storeBytes a bs).notch = d.notch := by
  induction bs generalizing d a with
  | nil => rfl
  | cons b bs ih => rw [Dev.storeBytes, ih]; rfl
@[simp] theorem Dev.spurBytes_notch (bs : List Byte) (d : Dev) (a : Nat) : (d.spurBytes a bs).notch = d.notch := by
  induction bs generalizing d a with
  | nil => rfl
  | cons b bs ih => rw [Dev.spurBytes, ih]; rfl

@[simp] theorem Dev.store_sad (n : Nat) (d : Dev) (a v : Nat) : (d.store a n v).sad = d.sad := by
  induction n generalizing d a v with
  | zero => rfl
  | succ n ih => rw [Dev.store, ih]; rfl
@[simp] theorem Dev.storeBytes_sad (bs : List Byte) (d : Dev) (a : Nat) : (d.storeBytes a bs).sad = d.sad := by
  induction bs generalizing d a with
  | nil => rfl
  | cons b bs ih => rw [Dev.storeBytes, ih]; rfl
@[simp] theorem Dev.spurBytes_sad (bs : List Byte) (d : Dev) (a : Nat) : (d.spurBytes a bs).sad = d.sad := by
  induction bs generalizing d a with
  | nil => rfl
  | cons b bs ih => rw [Dev.spurBytes, ih]; rfl

@[simp] theorem Dev.store_trv (n : Nat) (d : Dev) (a v : Nat) : (d.store a n v).trv = d.trv := by
  induction n generalizing d a v with
  | zero => rfl
  | succ n ih => rw [Dev.store, ih]; rfl
@[simp] theorem Dev.storeBytes_trv (bs : List Byte) (d : Dev) (a : Nat) : (d.storeBytes a bs).trv = d.trv := by
  induction bs generalizing d a with
  | nil => rfl
  | cons b bs ih => rw [Dev.storeBytes, ih]; rfl
@[simp] theorem Dev.spurBytes_trv (bs : List Byte) (d : Dev) (a : Nat) : (d.spurBytes a bs).trv = d.trv := by
  induction bs generalizing d a with
  | nil => rfl
  | cons b bs ih => rw [Dev.spurBytes, ih]; rfl

@[simp] theorem Dev.store_fab (n : Nat) (d : Dev) (a v : Nat) : (d.store a n v).fab = d.fab := by
  induction n generalizing d a v with
  | zero => rfl
  | succ n ih => rw [Dev.store, ih]; rfl
@[simp] theorem Dev.storeBytes_fab (bs : List Byte) (d : Dev) (a : Nat) : (d.storeBytes a bs).fab = d.fab := by
  induction bs generalizing d a with
  | nil => rfl
  | cons b bs ih => rw [Dev.storeBytes, ih]; rfl
@[simp] theorem Dev.spurBytes_fab (bs : List Byte) (d : Dev) (a : Nat) : (d.spurBytes a bs).fab = d.fab := by
  induction bs generalizing d a with
  | nil => rfl
  | cons b bs ih => rw [Dev.spurBytes, ih]; rfl

@[simp] theorem Dev.store_host (n : Nat) (d : Dev) (a v : Nat) : (d.store a n v).host = d.host := by
  induction n generalizing d a v with
  | zero => rfl
  | succ n ih => rw [Dev.store, ih]; rfl
@[simp] theorem Dev.storeBytes_host (bs : List Byte) (d : Dev) (a : Nat) : (d.storeBytes a bs).host = d.host := by
  induction bs generalizing d a with
  | nil => rfl
  | cons b bs ih => rw [Dev.storeBytes, ih]; rfl
@[simp] theorem Dev.spurBytes_host (bs : List Byte) (d : Dev) (a : Nat) : (d.spurBytes a bs).host = d.host := by
  induction bs generalizing d a with
  | nil => rfl
  | cons b bs ih => rw [Dev.spurBytes, ih]; rfl

@[simp] theorem Dev.store_tarn (n : Nat) (d : Dev) (a v : Nat) : (d.store a n v).tarn = d.tarn := by
  induction n generalizing d a v with
  | zero => rfl
  | succ n ih => rw [Dev.store, ih]; rfl
@[simp] theorem Dev.storeBytes_tarn (bs : List Byte) (d : Dev) (a : Nat) : (d.storeBytes a bs).tarn = d.tarn := by
  induction bs generalizing d a with
  | nil => rfl
  | cons b bs ih => rw [Dev.storeBytes, ih]; rfl
@[simp] theorem Dev.spurBytes_tarn (bs : List Byte) (d : Dev) (a : Nat) : (d.spurBytes a bs).tarn = d.tarn := by
  induction bs generalizing d a with
  | nil => rfl
  | cons b bs ih => rw [Dev.spurBytes, ih]; rfl

@[simp] theorem Dev.store_summit (n : Nat) (d : Dev) (a v : Nat) : (d.store a n v).summit = d.summit := by
  induction n generalizing d a v with
  | zero => rfl
  | succ n ih => rw [Dev.store, ih]; rfl
@[simp] theorem Dev.storeBytes_summit (bs : List Byte) (d : Dev) (a : Nat) : (d.storeBytes a bs).summit = d.summit := by
  induction bs generalizing d a with
  | nil => rfl
  | cons b bs ih => rw [Dev.storeBytes, ih]; rfl
@[simp] theorem Dev.spurBytes_summit (bs : List Byte) (d : Dev) (a : Nat) : (d.spurBytes a bs).summit = d.summit := by
  induction bs generalizing d a with
  | nil => rfl
  | cons b bs ih => rw [Dev.spurBytes, ih]; rfl

@[simp] theorem Dev.store_phy (n : Nat) (d : Dev) (a v : Nat) : (d.store a n v).phy = d.phy := by
  induction n generalizing d a v with
  | zero => rfl
  | succ n ih => rw [Dev.store, ih]; rfl
@[simp] theorem Dev.storeBytes_phy (bs : List Byte) (d : Dev) (a : Nat) : (d.storeBytes a bs).phy = d.phy := by
  induction bs generalizing d a with
  | nil => rfl
  | cons b bs ih => rw [Dev.storeBytes, ih]; rfl
@[simp] theorem Dev.spurBytes_phy (bs : List Byte) (d : Dev) (a : Nat) : (d.spurBytes a bs).phy = d.phy := by
  induction bs generalizing d a with
  | nil => rfl
  | cons b bs ih => rw [Dev.spurBytes, ih]; rfl

@[simp] theorem Dev.store_slot (n : Nat) (d : Dev) (a v : Nat) : (d.store a n v).slot = d.slot := by
  induction n generalizing d a v with
  | zero => rfl
  | succ n ih => rw [Dev.store, ih]; rfl
@[simp] theorem Dev.storeBytes_slot (bs : List Byte) (d : Dev) (a : Nat) : (d.storeBytes a bs).slot = d.slot := by
  induction bs generalizing d a with
  | nil => rfl
  | cons b bs ih => rw [Dev.storeBytes, ih]; rfl
@[simp] theorem Dev.spurBytes_slot (bs : List Byte) (d : Dev) (a : Nat) : (d.spurBytes a bs).slot = d.slot := by
  induction bs generalizing d a with
  | nil => rfl
  | cons b bs ih => rw [Dev.spurBytes, ih]; rfl

@[simp] theorem Dev.store_bist (n : Nat) (d : Dev) (a v : Nat) : (d.store a n v).bist = d.bist := by
  induction n generalizing d a v with
  | zero => rfl
  | succ n ih => rw [Dev.store, ih]; rfl
@[simp] theorem Dev.storeBytes_bist (bs : List Byte) (d : Dev) (a : Nat) : (d.storeBytes a bs).bist = d.bist := by
  induction bs generalizing d a with
  | nil => rfl
  | cons b bs ih => rw [Dev.storeBytes, ih]; rfl
@[simp] theorem Dev.spurBytes_bist (bs : List Byte) (d : Dev) (a : Nat) : (d.spurBytes a bs).bist = d.bist := by
  induction bs generalizing d a with
  | nil => rfl
  | cons b bs ih => rw [Dev.spurBytes, ih]; rfl

@[simp] theorem Dev.store_out (n : Nat) (d : Dev) (a v : Nat) : (d.store a n v).out = d.out := by
  induction n generalizing d a v with
  | zero => rfl
  | succ n ih => rw [Dev.store, ih]; rfl
@[simp] theorem Dev.storeBytes_out (bs : List Byte) (d : Dev) (a : Nat) : (d.storeBytes a bs).out = d.out := by
  induction bs generalizing d a with
  | nil => rfl
  | cons b bs ih => rw [Dev.storeBytes, ih]; rfl
@[simp] theorem Dev.spurBytes_out (bs : List Byte) (d : Dev) (a : Nat) : (d.spurBytes a bs).out = d.out := by
  induction bs generalizing d a with
  | nil => rfl
  | cons b bs ih => rw [Dev.spurBytes, ih]; rfl


theorem Dev.wf_spurBytes (bs : List Byte) (d : Dev) (a : Nat) (h : Memory.wf d.mem = true) :
    Memory.wf (d.spurBytes a bs).mem = true := by
  induction bs generalizing d a with
  | nil => exact h
  | cons b bs ih => exact ih _ _ (Dev.wf_setByte _ _ _ h)

@[simp] theorem Dev.core_store (n : Nat) (d : Dev) (a v c : Nat) : (d.store a n v).core c = d.core c := Dev.core_congr (by simp) c

end Sys2Proof.Machine
end

