-- ==== Sys2Proof/Laws/Memory.lean ====
section
/-! SUPPORT. Every operation on memory keeps its canonical form; which bytes it leaves alone. -/

namespace Sys2Proof.Machine

open Sys2Proof

/-- Reset memory is in its canonical form. -/
theorem State.sound_reset : State.reset.sound := rfl

@[simp] theorem Dev.setPoison_mem (d : Dev) (a : Nat) (b : Bool) : (d.setPoison a b).mem = d.mem := rfl

/-- An operation applied in turn changes nothing of memory if none of its uses does. -/
theorem Dev.forIn'_mem {α : Type} (l : List α) (f : α → Dev → Dev) (h : ∀ a d, (f a d).mem = d.mem) (d : Dev) :
    (d.forIn' l f).mem = d.mem := Dev.forIn'_keeps (·.mem) f h l d

theorem Dev.each_mem (n : Nat) (f : Nat → Dev → Dev) (h : ∀ a d, (f a d).mem = d.mem) (d : Dev) : (d.each n f).mem = d.mem :=
  Dev.each_keeps (·.mem) n f h d

theorem Dev.when_mem (b : Bool) (f : Dev → Dev) (h : ∀ d, (f d).mem = d.mem) (d : Dev) : (d.when b f).mem = d.mem :=
  Dev.when_keeps (·.mem) b f h d

/-- A change of mere memory-keeping kind keeps the canonical form. -/
theorem Memory.wf_of_eq {d d' : Dev} (e : d'.mem = d.mem) (h : Memory.wf d.mem = true) : Memory.wf d'.mem = true := e ▸ h

/-! ### Spur memory (R51, R171) -/

theorem Dev.spurStore_mem (d : Dev) (off : Nat) (bs : List Byte) : (d.spurStore off bs).mem = (d.spurBytes off bs).mem := by
  refine Dev.each_mem 9 _ (fun c d => ?_) _
  split
  · split <;> rfl
  · rfl

theorem Dev.wf_spurStore (d : Dev) (off : Nat) (bs : List Byte) (h : Memory.wf d.mem = true) :
    Memory.wf (d.spurStore off bs).mem = true := by
  rw [Dev.spurStore_mem]; exact Dev.wf_spurBytes bs d off h

/-- A store of the device into Spur memory leaves every byte outside Spur memory alone. -/
theorem Dev.byte_spurBytes_out (bs : List Byte) (d : Dev) (off a : Nat) (h : a < spurBase ∨ spurBase + 0x400000 ≤ a) :
    (d.spurBytes off bs).byte a = d.byte a := by
  induction bs generalizing d off with
  | nil => rfl
  | cons b bs ih =>
    have hm : off % 0x400000 < 0x400000 := Nat.mod_lt _ (by decide)
    have hne : a ≠ spurAt off := by unfold spurAt; omega
    rw [Dev.spurBytes, ih, Dev.byte_setByte_ne _ _ hne]

theorem Dev.byte_spurStore_out (d : Dev) (off a : Nat) (bs : List Byte) (h : a < spurBase ∨ spurBase + 0x400000 ≤ a) :
    (d.spurStore off bs).byte a = d.byte a := by
  have e := Dev.byte_spurBytes_out bs d off a h
  unfold Dev.byte at e ⊢
  rw [Dev.spurStore_mem, e]

/-! ### A core's store (R178) -/

theorem Dev.breakRsv_mem (d : Dev) (by_ : Option Nat) (a : Nat) : (d.breakRsv by_ a).mem = d.mem :=
  Dev.each_mem 9 (fun c d => d.when ((some c != by_) && (d.core c).rsv == some (a / 64)) fun d => d.updCore c fun k => { k with rsv := none })
    (fun c d => Dev.when_mem _ (fun d => d.updCore c fun k => { k with rsv := none }) (fun _ => rfl) d) _

/-- A core's store that drains writes the bytes of its entry and no other byte. -/
theorem Dev.performStore_mem (d : Dev) (c : Nat) (e : StoreEnt) :
    (d.performStore c e).mem = (d.store (flatOf c e.addr) e.size e.data.toNat).mem := by
  unfold Dev.performStore
  dsimp only
  rw [Dev.when_mem _ _ (fun d => Dev.breakRsv_mem d _ _), Dev.when_mem _ _ (fun d => Dev.cairnPush_mem d _ _ _ _ _),
    Dev.when_mem _ (fun d => d.setPoison (flatOf c e.addr) false) (fun _ => rfl)]

theorem Dev.wf_performStore (d : Dev) (c : Nat) (e : StoreEnt) (h : Memory.wf d.mem = true) :
    Memory.wf (d.performStore c e).mem = true := by
  rw [Dev.performStore_mem]; exact Dev.wf_store _ _ _ _ h

theorem Dev.wf_drainOne (d : Dev) (c : Nat) (h : Memory.wf d.mem = true) : Memory.wf (d.drainOne c).mem = true := by
  unfold Dev.drainOne
  split
  · exact h
  · exact Dev.wf_performStore _ _ _ h

theorem Dev.wf_drainN (n : Nat) (d : Dev) (c : Nat) (h : Memory.wf d.mem = true) : Memory.wf (d.drainN c n).mem = true := by
  induction n generalizing d with
  | zero => exact h
  | succ n ih => exact ih _ (Dev.wf_drainOne d c h)

theorem Dev.wf_drainAll (d : Dev) (c : Nat) (h : Memory.wf d.mem = true) : Memory.wf (d.drainAll c).mem = true :=
  Dev.wf_drainN _ d c h

/-! ### Tarn (R149, R158) -/

/-- A pool write writes its bytes and no other byte. -/
theorem Dev.poolWrite_mem (d : Dev) (pool : Nat) (bs : List Byte) (ep : Bool) :
    (d.poolWrite pool bs ep).mem = (d.storeBytes (tarnBase + pool) bs).mem := by
  unfold Dev.poolWrite
  dsimp only
  rw [Dev.forIn'_mem _ _ (fun _ d => Dev.event_mem d _ _ _ _)]
  refine Dev.forIn'_mem _ _ (fun l d => ?_) _
  split
  · rfl
  · split <;> rfl

theorem Dev.wf_poolWrite (d : Dev) (pool : Nat) (bs : List Byte) (ep : Bool) (h : Memory.wf d.mem = true) :
    Memory.wf (d.poolWrite pool bs ep).mem = true := by
  rw [Dev.poolWrite_mem]; exact Dev.wf_storeBytes _ _ _ h

theorem Dev.wf_tarnInit (d : Dev) (h : Memory.wf d.mem = true) : Memory.wf d.tarnInit.mem = true := Memory.wf_drop _ _ h

/-- The initialisation of Tarn touches no byte below the pool. -/
theorem Dev.byte_tarnInit (d : Dev) (a : Nat) : d.tarnInit.byte a = if tarnBase ≤ a then 0 else d.byte a := by
  unfold Dev.byte
  show SMap.get Memory.unwritten (SMap.drop _ d.mem) a = _
  rw [SMap.get_drop]
  simp [Memory.unwritten]

/-! ### Images and the copy of a core's SRAMs (R193, R371) -/

theorem Dev.storeImage_mem (d : Dev) (a : Nat) (bs : List Byte) : (d.storeImage a bs).mem = (d.storeBytes a bs).mem :=
  Dev.forIn'_mem _ (fun a d => d.setPoison a false) (fun _ _ => rfl) _

theorem Dev.wf_storeImage (d : Dev) (a : Nat) (bs : List Byte) (h : Memory.wf d.mem = true) :
    Memory.wf (d.storeImage a bs).mem = true := by
  rw [Dev.storeImage_mem]; exact Dev.wf_storeBytes _ _ _ h

theorem Dev.wf_loadCore (d : Dev) (im : Image) (c : Nat) (h : Memory.wf d.mem = true) : Memory.wf (d.loadCore im c).mem = true := by
  refine Dev.forIn'_inv (fun d => Memory.wf d.mem = true) _ (fun g d hd => ?_) _ d h
  split
  · exact Dev.wf_storeImage _ _ _ hd
  · split
    · exact Dev.wf_storeImage _ _ _ hd
    · exact hd

theorem Dev.wf_loadArea (d : Dev) (im : Image) (area : Nat) (h : Memory.wf d.mem = true) :
    Memory.wf (d.loadArea im area).mem = true := by
  refine Dev.forIn'_inv (fun d => Memory.wf d.mem = true) _ (fun g d hd => ?_) _ d h
  split
  · exact Dev.wf_storeImage _ _ _ hd
  · exact hd

/-- Writing entries one after the other keeps the canonical form. -/
theorem Memory.wf_foldl_put (f : Host.Cell → Nat) (l : List Host.Cell) (m : List Host.Cell) (h : Memory.wf m = true) :
    Memory.wf (l.foldl (fun m x => SMap.put Memory.unwritten m (f x) x.2) m) = true := by
  induction l generalizing m with
  | nil => exact h
  | cons x l ih => exact ih _ (SMap.wf_put _ _ _ _ h)

theorem Dev.wf_copySram (d : Dev) (f t : Nat) (h : Memory.wf d.mem = true) : Memory.wf (d.copySram f t).mem = true :=
  Memory.wf_foldl_put _ _ _ (Memory.wf_drop _ _ h)

end Sys2Proof.Machine
end

