-- ==== Sys2Proof/Laws/Spur.lean ====
section
/-! SUPPORT. What the shared operations of a Spur core do at a quiet boundary, and their frames. -/

namespace Sys2Proof.Machine

open Sys2Proof

/-- No single step of the debug port runs: the end of an instruction changes nothing more. -/
theorem Dev.stepEnd_none (d : Dev) (c : Nat) (h : d.summit.stepping.contains c = false) : d.stepEnd c = d := by
  unfold Dev.stepEnd Dev.when
  rw [h]
  rfl

/-- At a quiet boundary an instruction counts its event and then has its own effect. -/
theorem Dev.spurInstr_quiet (d : Dev) (c : Nat) (body : Dev → Dev) (h : d.quiet c = true) :
    d.spurInstr c body = (body ((d.updCore c fun k => { k with bpSkip := false }).event 0x140 c)).stepEnd c := by
  simp only [Dev.quiet, Bool.and_eq_true, Bool.not_eq_true', beq_iff_eq, List.isEmpty_iff] at h
  obtain ⟨⟨⟨⟨⟨h1, h2⟩, h3⟩, h4⟩, h5⟩, h6⟩ := h
  have hs : d.settle c = d := by simp [Dev.settle, h2, Dev.settleN]
  simp [Dev.spurInstr, h1, hs, Dev.atBoundary, h3, h4, h5, h6]

/-- A quiet core is up, runs and waits for nothing. -/
theorem Dev.quiet_ready (d : Dev) (c : Nat) (h : d.quiet c = true) : d.spurReady c = true := by
  simp only [Dev.quiet, Bool.and_eq_true] at h
  exact h.1.1.1.1.1

/-- An instruction that only changes its core, at a quiet boundary: the core is changed, and nothing else but the counters. -/
theorem Dev.spurAlu_quiet (d : Dev) (c : Nat) (f : SpurCore → SpurCore) (h : d.quiet c = true)
    (hs : d.summit.stepping.contains c = false) :
    (d.spurInstr c fun d => d.updCore c f).core c = f { d.core c with bpSkip := false } ∧
      d.onlyCore c (d.spurInstr c fun d => d.updCore c f) := by
  rw [Dev.spurInstr_quiet d c _ h, Dev.stepEnd_none _ _ (by simpa [Dev.updCore] using hs)]
  refine ⟨by simp, ?_, ?_, ?_⟩
  · intro c' hc
    simp [Dev.core_updCore_ne _ _ hc]
  · intro f i _ hf
    show ((d.updCore c _).event 0x140 c).rd f i = _
    rw [Dev.rd_event _ _ _ _ _ _ _ hf]
    rfl
  · rw [Dev.event_eq]
    rfl

/-- Writing a register and going on, from a core whose breakpoint suppression is over. -/
theorem SpurCore.wrote_wrG (k : SpurCore) (rd : Nat) (v : W64) :
    k.wrote ((({ k with bpSkip := false } : SpurCore).wrG rd v).advance) rd v := by
  constructor
  · intro n
    show ((({ k with bpSkip := false } : SpurCore).wrG rd v)).rdG n = _
    rw [SpurCore.rdG_wrG]
    by_cases h : n = rd ∧ rd ≠ 0
    · rw [if_pos h, if_pos ⟨h.1, h.1 ▸ h.2⟩]
    · rw [if_neg h, if_neg (fun (g : n = rd ∧ n ≠ 0) => h ⟨g.1, g.1 ▸ g.2⟩)]
      rfl
  · unfold SpurCore.wrG SpurCore.advance
    by_cases h : rd = 0 <;> simp [h]

/-! ### Draining (R178, R180) -/

/-- What an empty store buffer leaves to drain: nothing. -/
theorem Dev.drainAll_empty (d : Dev) (c : Nat) (h : (d.core c).sb = []) : d.drainAll c = d := by
  simp [Dev.drainAll, h, Dev.drainN]

end Sys2Proof.Machine
end

