-- ==== Sys2Proof/Tests/Slice0.lean ====
section
/-! SUPPORT. Small tests: an ill-formed command for each check of WellFormed, words of the encoding written out from the spec, single steps
with results the spec states, and for each statement with hypotheses a witness of all of them on concrete states, at the bounds of each clause. -/

namespace Sys2Proof.Tests

open Sys2Proof Sys2Proof.Machine

set_option maxRecDepth 20000

/-! ### Ill-formed commands -/

theorem test_wf_banks : (∀ d ∈ [Dst.g 31, .o 7], ∀ a ∈ [Src.g 0, .h 15], Instr.wf (.add (.notch 0) d a (.g 2)) = true) ∧
    Instr.wf (.add (.spur 0) (.g 1) (.g 0) (.g 2)) = true ∧ Instr.wf (.add (.spur 0) (.g 1) (.h 0) (.g 2)) = false ∧
    Instr.wf (.hash (.spur 8) (.o 7) (.g 0) (.g 2)) = false ∧ Instr.wf (.cmp (.spur 0) (.g 1) (.h 15)) = false ∧
    Instr.wf (.addi (.spur 0) (.o 0) (.g 1) 3) = false ∧ Instr.wf (.shli (.spur 0) (.g 0) (.h 1) 3) = false ∧
    Instr.wf (.cmpi (.spur 0) (.h 1) 3) = false ∧ Instr.wf (.insi (.spur 0) (.o 1) (.g 1) 0 63) = false := by decide

def bare : Frame := ⟨0, false, false, false, false, .nonPosted, 0, 0, 0, 0, 0, 0, 0, 0, 0, List.replicate 16 0, []⟩

theorem test_wf_frames : Instr.wf (.frameArrival 0 bare .good) = true ∧ Instr.wf (.frameArrival 0 { bare with ftype := 16 } .good) = false ∧
    Instr.wf (.frameArrival 0 { bare with head := [] } .good) = false ∧ Instr.wf (.frameArrival 0 { bare with h14 := 1 } .good) = false ∧
    Instr.wf (.frameArrival 0 { bare with h15 := 1, fabric := true } .good) = true ∧
    Instr.wf (.theoxFlit 0 ⟨List.replicate 242 0, true, [], [bare]⟩) = true ∧ Instr.wf (.theoxFlit 0 ⟨List.replicate 241 0, true, [], []⟩) = false ∧
    Instr.wf (.theoxFlit 0 ⟨List.replicate 242 0, true, [], [{ bare with ftype := 16 }]⟩) = false := by decide

theorem test_wf_blocks : Instr.wf (.trainingBlock 0 (List.replicate 16 0) true 0 0 false false true none) = true ∧
    Instr.wf (.trainingBlock 0 (List.replicate 15 0) true 0 0 false false true none) = false ∧ Instr.wf (.theoxDetect 0 16) = true ∧
    Instr.wf (.pdNotice (List.replicate 23 0)) = false ∧ Instr.wf (.pdNotice (List.replicate 24 0)) = true ∧
    Instr.wf (.colMessageReceive 0 none (List.replicate 7 0)) = false ∧ Instr.wf (.colMessageReceive 0 none (List.replicate 257 0)) = false ∧
    Instr.wf (.colMessageReceive 0 none (List.replicate 256 0)) = true ∧ Instr.wf (.colRingFrame 0 (List.replicate 13 0)) = false := by decide

theorem test_wf_operands : Instr.wf (.debugAccess (.tarn 0 0 none 0)) = false ∧ Instr.wf (.debugAccess (.tarn 0 0 (some [1]) 2)) = false ∧
    Instr.wf (.debugAccess (.tarn 0 0 (some [1]) 1)) = true ∧ Instr.wf (.funcAssign 0 0 0 1 0 0 5 4) = false ∧
    Instr.wf (.funcAssign 0 0 0 1 0 0 4 4) = true ∧ Instr.wf (.linkUp 0 6 4 true 0 false [(1, 1), (1, 1)] ⟨false, [], []⟩) = false ∧
    Instr.wf (.linkUp 0 6 4 true 0 false [(1, 1), (1, 1), (1, 1)] ⟨false, [], []⟩) = true ∧ Instr.wf (.eyeScanEnd 0 (2 ^ 32)) = false ∧
    Instr.wf (.prbsCheckerLockLoss 0 65) = false ∧ Instr.wf (.prbsCheckerLockLoss 0 64) = true := by decide

/-! ### Words -/

/-- The words of the encoded example of 02_ridge_instruction_set, and words built bit by bit from R30 and R32. -/
theorem test_words_of_the_example :
    [0x44853603, 0x0C208002, 0x00000000, 0x2C048180, 0x62C00003, 0xF0000000, 0xF0700000].map (fun w => (decodeRidge w).toOption) =
      [some (.lkw 4 (.h 5) (.h 6) 3), some (.immop .ori (.o 1) (.g 0) 2), some (.alu .add (.g 0) (.g 0) (.g 0)), some (.field .exti (.o 0) (.g 4) 0 6),
       some (.bcc .miss 3), some (.emit .fwd), some (.emit .dropa)] := by decide

theorem test_words_by_fields :
    -- op 0, rd 5, rs1 4, rs2 3, fn 0x00; op 1, rd 6, rs1 1, bd 1, imm 7; op 0x20, sz, rt, ra, offset; op 0x38 and 0x3C with their fn
    (decodeRidge (5 * 2 ^ 21 + 4 * 2 ^ 16 + 3 * 2 ^ 11)).toOption = some (.alu .add (.g 5) (.g 4) (.g 3)) ∧
    (decodeRidge (2 ^ 26 + 6 * 2 ^ 21 + 2 ^ 16 + 2 ^ 15 + 7)).toOption = some (.immop .addi (.o 6) (.g 1) 7) ∧
    (decodeRidge 0x82290008).toOption = some (.mem .ld 17 9 .b 8) ∧ (decodeRidge 0xE0100000).toOption = some (.sys .barDev) := by decide

/-- Words that R32 does not assign: a branch condition 15, bits set that are zero, an unassigned fn, an unassigned opcode. -/
theorem test_words_not_assigned : decodeRidge 0x63C00003 = .error .encoding ∧
    decodeRidge 0x00A41801 = .error .encoding ∧ decodeRidge 0x000002C0 = .error .encoding ∧ decodeRidge 0xFC000000 = .error .encoding :=
  ⟨rfl, rfl, rfl, rfl⟩

/-- The whole example is a program that the check of R47 passes; one without its last emit is not. -/
theorem test_example_program_checked :
    let p := [0x44853603, 0x0C208002, 0, 0, 0x2C048180, 0x62C00003, 0xF0000000, 0, 0xF0700000, 0] ++ List.replicate 14 0
    checkProgram (p.map decodeRidge) = none ∧ (checkProgram ((p.set 8 0).map decodeRidge)).isSome = true := by decide

/-! ### Single steps -/

/-- The device after a command on it, nothing waiting. -/
def after (i : Instr) (d : Dev) : Option Dev :=
  match exec i { pending := [], dev := d } with
  | .next t => some t.dev
  | _ => none

/-- The device up, core 0 running with g1 and g2; a run of tile 0's program before an instruction, with g1 and g2 and a window of set 3. -/
def live (x y : W64) : Dev := { power := .run, spur := { cores := [(0, { mode := .running, role := 0, g := [(1, x), (2, y)] })] } }
def prog (x y : W64) : Dev :=
  { power := .run
    notch := { runs := [{ id := 5, pkt := 1, tile := 0, pipe := 0, bank := 0, prog := 0, g := [(1, x), (2, y)] }]
               range := [(7, ⟨0x240000000, 0x40000000, 3, 0x2256125, true, false⟩)] } }

/-- The two instructions that build 0x0002_4000_0000 (after R36). -/
theorem test_addi_constant : (after (.addi (.spur 0) (.g 9) (.g 0) 9) (live 0 0)).map (fun d => ((d.core 0).rdG 9, (d.core 0).pc)) = some (9, 4) := by decide
theorem test_shli_constant : (after (.shli (.spur 0) (.g 9) (.g 1) 30) (live 9 0)).map (fun d => (d.core 0).rdG 9) = some 0x240000000 := by decide

/-- R34: division by zero and the leading zeros of zero. -/
theorem test_divide_by_zero : (after (.divu 0 3 1 2) (live 5 0)).map (fun d => (d.core 0).rdG 3) = some 0xFFFFFFFFFFFFFFFF ∧
    (after (.remu 0 3 1 2) (live 5 0)).map (fun d => (d.core 0).rdG 3) = some 5 ∧ (after (.clz 0 3 2) (live 5 0)).map (fun d => (d.core 0).rdG 3) = some 64 := by decide

/-- The example after R38: a 256-byte write that runs past its window straddles, one of 64 bytes inside it hits; the data word is that of the
worked program of 03_notch_programs; both land in stage 3. -/
theorem test_lkw_straddles :
    ((after (.lkw 5 4 (.g 1) (.g 2) 3 false) (prog 0x27FFFFF80 256)).bind fun d => (d.run? 5).map fun n =>
      let m := ({ n with idx := 4 } : NRun).land
      (m.rd (.g 4), m.flags.h, m.flags.x)) = some (0x2256125, false, true) := by decide
theorem test_lkw_hits :
    ((after (.lkw 5 4 (.g 1) (.g 2) 3 false) (prog 0x240001000 64)).bind fun d => (d.run? 5).map fun n =>
      let m := ({ n with idx := 4 } : NRun).land
      (m.rd (.g 4), m.flags.h, m.flags.x)) = some (0x2256125, true, false) := by decide

/-- R62, R63: BRK enters its handler at HVEC + 0x40 × 6, HPC at the next instruction. -/
theorem test_brk_enters : (after (.brk 0) (live 0 0)).map (fun d => ((d.core 0).pc, (d.core 0).hpc, (d.core 0).hcause, (d.core 0).handler)) =
    some (0x180, 4, 6, true) := by decide

/-- A store waits in the store buffer, its bytes not yet in memory (R48). -/
theorem test_store_buffered : (after (.st 0 .d 1 2 0) (live 7 0x400000)).map (fun d => ((d.core 0).sb, d.mem.length)) =
    some ([⟨0x400000, 8, 7⟩], 0) := by decide

/-- PING replies OK with its SEQ (R385). -/
theorem test_ping : (after (.ping 3 1) { (live 0 0).wr SUMMIT.BOOT_STATUS.STAGE 0 4 with summit := { mbx := [(13, { full := true, word := 0x5A00 })] } }).map
    (fun d => (d.mbx 13).reply) = some (some 0x5A00) := by decide

/-- The pool address of the example after R140: line 805,306,432 lies in pseudo-channel 55, on stack 3. -/
theorem test_pool_place : pcOfLine (51539611648 / 64) = 55 ∧ stackOfLine (51539611648 / 64) = 3 := by decide

/-- The descriptor of the example after R213, as the sum of the fields of R210: its operation, its record, its destination. -/
theorem test_descriptor_word : let x : Xfer := ⟨0, 0, [0x1 + 0x10 + 2 * 2 ^ 18 + 0x125 * 2 ^ 36, 0x100000, 0x4000000000, 0, 0, 0, 0, 0], 0, [], 0, none, 0, false⟩
    x.op = 1 ∧ x.record = true ∧ x.srcSpace = 0 ∧ x.dstSpace = 2 ∧ x.dstDesc = 0x125 ∧ x.len = 0x100000 ∧ x.bad [0x125] = false ∧ x.bad [0x124] = true := by decide

/-- A queue that is empty lets one tick of the time base pass; the table gives no row a word. -/
theorem test_idle_tick : (match step { pending := [], dev := (live 0 0).setOn DEV.CLK_STATUS.ROOT_LOCK 0 true } with
    | .next t => decide (t.pending = [] ∧ t.dev.timeBase = 1)
    | _ => false) = true ∧ decodeTableWord 32 0xFFFFFFFF = none := by decide

/-! ## Witnesses -/

/-- Of RidgeEncodingRoundTrip: a word that decodes. -/
theorem wit_RidgeEncodingRoundTrip : 0x44853603 < 2 ^ 32 ∧ decodeRidge 0x44853603 = .ok (.lkw 4 (.h 5) (.h 6) 3) := ⟨by decide, rfl⟩

/-! ### States for the witnesses -/

/-- A state with nothing waiting. -/
def at_ (d : Dev) : State := { pending := [], dev := d }

/-- The device up, with nothing in it. -/
def up : Dev := { power := .run }

/-- Core 0 as given, the device up. -/
def spur (k : SpurCore) : Dev := { up with spur := { cores := [(0, k)] } }

/-- A core of role 0 that runs at 0 in its instruction SRAM, with registers g1, g2. -/
def core (x : W64) (y : W64 := 0) : SpurCore := { mode := .running, role := 0, g := [(1, x), (2, y)] }
def inHandler : SpurCore := { core 2 with handler := true }

/-- The core is at an instruction with nothing in its way. -/
abbrev Quiet (k : SpurCore) : Prop := (spur k).quiet 0 = true ∧ (spur k).summit.stepping.contains 0 = false

theorem atInstr_of (k : SpurCore) (h : Quiet k) : (at_ (spur k)).atInstr 0 := h

/-- Of SpurRegisterResults, SpurImmediateResults, SpurCompareFlags and of every clause that asks only for a core at an instruction. -/
theorem wit_atInstr : (at_ (spur (core 5))).atInstr 0 := atInstr_of _ (by decide)

/-- BRK, illegal words and their like: outside a handler, an illegal word and a word that is none. -/
theorem wit_SpurExceptionEntry : Quiet (core 5) ∧ (core 5).handler = false ∧ illegalDetail 0x63C00003 = some 0 ∧
    illegalDetail 0x00A41800 = none := by decide

/-- JALR to an aligned and to a misaligned target. -/
theorem wit_SpurBranchesAndJumps : Quiet (core 8) ∧ ((core 8).rdG 1 + (0 : BitVec 14).signExtend 64).toNat % 4 = 0 ∧
    ((core 8).rdG 1 + (3 : BitVec 14).signExtend 64).toNat % 4 ≠ 0 ∧ (core 8).handler = false := by decide

theorem wit_SpurBankBitTraps : Quiet (core 5) ∧ (core 5).handler = false ∧ ((Dst.g 1).general && (Src.h 0).general && (Src.g 1).general) = false ∧
    ((Dst.o 0).general && (Src.g 1).general) = false ∧ ((Src.g 1).general && (Src.h 31).general) = false ∧ (Src.h 0).general = false := by decide

theorem wit_SpurHandlerReturnsAndFailures : Quiet inHandler ∧ inHandler.handler = true ∧ (illegalDetail 0x2C0).isSome = true ∧
    (inHandler.rdG 1 + (0 : BitVec 14).signExtend 64).toNat % 4 ≠ 0 ∧ Quiet (core 5) ∧ (core 5).handler = false := by decide

/-- An address of each class at its first byte, and its size. -/
theorem wit_SpurAccessFaults : Quiet (core 0x40000) ∧ addrClass 0x40000 = .unmapped ∧ addrClass 0x10000000 = .mgmt ∧
    addrClass 0x10000000000 = .port ∧ addrClass 0x20000000000 = .tarn ∧ (spur (core 0)).on SPUR.TARN_APT.VALID 0 = false ∧
    (spur (core 0)).on SPUR.TARN_APT.WRITE 0 = false ∧ 0x400001 % Size.h.bytes ≠ 0 ∧ addrClass 0x3FFFC = .dsram ∧ Size.h.bytes < 4 := by decide

/-- A load from each kind of memory: SRAM with and without a store to its word in the buffer, Spur memory. -/
theorem wit_SpurLoadsIssue : Quiet (core 0x20000) ∧ addrClass 0x20000 = .dsram ∧ 0x20000 % Size.d.bytes = 0 ∧
    (spur (core 0x20000)).poisoned (flatOf 0 0x20000) = false ∧
    (let k := { core 0x20000 with sb := [⟨0x20000, 8, 7⟩] }
     Quiet k ∧ ((spur k).drainN 0 (drainDepth k.sb 0x20000)).poisoned (flatOf 0 0x20000) = false ∧ ¬ ∀ e ∈ k.sb, e.addr / 8 ≠ 0x20000 / 8) ∧
    addrClass 0x400000 = .spurMem ∧ addrClass 0x7FFFFC = .spurMem ∧ 4 ≤ Size.w.bytes := by decide

/-- Region 0: 2 MiB at HBASE 0, owning the first granules, with key 1, open to host domain 0. -/
def region : Desc :=
  { Desc.zero with valid := true, key := 1, subLog2 := 21, mask := 1, read := true, write := true, hosts := 1 }
def pool (d : Dev) : Dev :=
  { d with tarn := { d.tarn with descs := [(0, region)], own := [(0, { owner := 0, owned := true, clean := false })], colour := [(0, 1)] } }

/-- Core 0 with an aperture onto that region. -/
def apt : Dev := ((pool (spur (core 0x20000000000))).setOn SPUR.TARN_APT.VALID 0 true).setOn SPUR.TARN_APT.WRITE 0 true

theorem wit_SpurTarnAccess : apt.quiet 0 = true ∧ apt.summit.stepping.contains 0 = false ∧ addrClass 0x20000000000 = .tarn ∧
    apt.on SPUR.TARN_APT.VALID (aptIdx 0 0x20000000000) = true ∧ apt.on SPUR.TARN_APT.WRITE (aptIdx 0 0x20000000000) = true ∧
    apt.poolCheck (apt.aptAcc 0 0x20000000000 8 .read) = none ∧ apt.poolCheck (apt.aptAcc 0 0x20000000000 8 .write) = none ∧
    (apt.deviceReady .read 0 (linesOf 0 8)).1 = true ∧ (apt.deviceReady .write 0 (linesOf 0 8)).1 = true := by decide

/-- One outstanding load of the given tag, from Spur memory, its word sound. -/
def load (tag : Nat) : OutLoad := ⟨tag, 0, 3, 0x400000, flatOf 0 0x400000, false, 8, false, none, false⟩

theorem wit_LoadResponseRetires :
    (let k := { core 0 with loads := [load 31] }
     let bad := { spur k with spur := { (spur k).spur with poison := [(flatOf 0 0x400000 / 8, true)] } }
     (spur k).coreUp = true ∧ (load 31).result = none ∧ (spur k).poisoned (load 31).flat = false ∧ bad.poisoned (load 31).flat = true ∧
       bad.coreUp = true ∧ (bad.core 0).loads = [load 31] ∧ k.handler = false) ∧
    (let k := { core 0 with loads := [load 0, load 31] }
     (spur k).coreUp = true ∧ k.loads = load 0 :: load 31 :: [] ∧ (load 0).tag ≠ 31 ∧ (load 31).tag = 31 ∧ (load 0).arrived = false) ∧
    ∀ l ∈ (core 0).loads, l.tag ≠ 0 ∧ l.arrived = false := by decide

/-- A store buffer with room, one that is full, and one that is empty. -/
theorem wit_SpurStores :
    (let full := { core 0x7FFFF8 with sb := List.replicate 16 ⟨0x400000, 8, 1⟩ }
     Quiet (core 0x7FFFF8) ∧ Quiet full ∧ 16 ≤ full.sb.length ∧ addrClass 0x7FFFF8 = .spurMem ∧ 0x7FFFF8 % Size.d.bytes = 0 ∧
       (core 0x7FFFF8).sb.length < 16 ∧ (core 0x7FFFF8).sb = [] ∧ (spur full).coreUp = true ∧
       (({ core 0x400000 with rsv := some 0x10000 } : SpurCore).rsv = some (0x400000 / 64))) := by decide

/-- Port 0 configured, up and not frozen: an upstream port. -/
def port0 (d : Dev) : Dev :=
  (((d.setOn PORT.CFG.ENABLE 0 true).wr PORT.CFG.ROLE 0 1).setOn PORT.LINK_STATUS.DL_ACTIVE 0 true).setOn PORT.CTN_STATUS.FROZEN 0 false

theorem wit_SpurDeviceAccessesIssue :
    (let mgmt := port0 (spur (core 0x10010000))
     mgmt.quiet 0 = true ∧ addrClass 0x10010000 = .mgmt ∧ 0x10010000 % Size.w.bytes = 0 ∧ mgmt.place (.core 0) 0x10000 ≠ .reserved) ∧
    (let live := port0 (spur (core 0x10000000000))
     live.quiet 0 = true ∧ addrClass 0x10000000000 = .port ∧ live.portDead 0 = false ∧ 0x10000000000 / 2 ^ 33 % 2 ^ 7 = 0 ∧
       (core 0x10000000000).stios = [] ∧ live.spur.orphans = []) ∧
    (spur (core 0x10000000000)).portDead 0 = true ∧ (core 0).handler = false ∧ 1 % Size.h.bytes ≠ 0 ∧ Size.h.bytes < 4 ∧
    addrClass 0x20000000 = .unmapped ∧ Quiet (core 0x20000000) := by decide

theorem wit_SpurDeviceAccessesEnd :
    (let l : OutLdio := ⟨0x10000000000, 8, 1, 0⟩
     let k := { core 0 with ldio := some l, wait := .ldio }
     (spur k).coreUp = true ∧ k.ldio = some l ∧ (spur k).spur.orphans = [] ∧ k.stios = [] ∧ addrClass l.addr = .port ∧ k.handler = false) ∧
    (let k := { core 0 with lateLdio := 1 }
     (spur k).coreUp = true ∧ k.ldio = none ∧ 0 < k.lateLdio) ∧
    (let w : OutStio := ⟨some 0, 0x10000000000, 4, 7⟩
     let k := { core 0 with stios := [w] }
     (port0 (spur k)).coreUp = true ∧ k.onBarrier = false ∧ (port0 (spur k)).portDead 0 = false ∧ (spur k).portDead 0 = true ∧
       w.port = some 0 ∧ (spur k).spur.orphans = []) := by decide

theorem wit_SpurBarriers : Quiet (core 0) ∧ (core 0).stios = [] ∧
    (let k := { core 0 with stios := [⟨none, 0x10000000, 4, 7⟩] }
     Quiet k ∧ k.stios ≠ []) ∧
    ({ core 0 with wait := .barDev } : SpurCore).wait = .barDev ∧ (core 0).wait ≠ .barDev ∧ (core 0).wait ≠ .barFull := by decide

theorem wit_SpurDeadlines :
    (let d := { spur (core 100) with timeBase := 100 }
     d.quiet 0 = true ∧ (core 100).handler = false ∧ 7 < (8 : BitVec 14).toNat ∧ ((core 100).rdG 1).toNat ≤ d.timeBase ∧
       d.timeBase < (101 : W64).toNat) ∧
    (let k := { core 100 with event := 2, evmask := 2 }
     Quiet k ∧ k.event &&& k.evmask ≠ 0 ∧ (spur k).timeBase < (k.rdG 1).toNat) ∧
    (let k := { core 0 with wait := .dlwait 100 }
     k.wait = .dlwait 100 ∧ (spur k).timeBase < 100 ∧ k.event &&& k.evmask = 0 ∧ k.missOf = none) ∧
    (let x : Deadline := ⟨true, false, 100⟩
     let d := { spur { inHandler with dl := [(7, x)] } with timeBase := 100 }
     let w : SpurCore := { core 0 with wait := .dlwait 900, dl := [(7, x)] }
     x.armed = true ∧ x.value.toNat ≤ d.timeBase ∧ (d.core 0).handler = true ∧ (d.core 0).wait = .none ∧ (d.core 0).loads = [] ∧
       (d.core 0).deadline 7 = x ∧ w.handler = false ∧ w.outgoing = false ∧ w.wait = .dlwait 900 ∧ ∀ m, m < 7 → (w.deadline m).pending = false) := by decide

/-- CSR numbers at the ends of the assigned ranges, and beside them. -/
theorem wit_SpurCsrAccess : Quiet (core 5) ∧ (core 5).handler = false ∧
    (∀ n ∈ [7, 15, 0x17, 0x1F, 0x25], ¬ (n ≤ 6 ∨ (0x10 ≤ n ∧ n ≤ 0x16) ∨ (0x20 ≤ n ∧ n ≤ 0x24))) := by decide

theorem wit_MailboxPostDoorbellKick :
    (let d := spur (core 0x06)
     d.quiet 0 = true ∧ (core 0x06).role < 8 ∧ (d.mbx 3).full = false ∧ 3 < (4 : BitVec 14).toNat) ∧
    (let k : SpurCore := { core 0 with role := 15 }
     Quiet k ∧ 8 ≤ k.role) ∧
    (let d := { (spur (core 0)).wr SPUR.WDOG.PERIOD 0 1 with timeBase := 1024 }
     d.coreUp = true ∧ (d.core 0).mode = .running ∧ d.rd SPUR.WDOG.PERIOD 0 ≠ 0 ∧ (d.core 0).kicked + d.rd SPUR.WDOG.PERIOD 0 * 1024 ≤ d.timeBase) ∧
    (spur (core 0)).rd SPUR.WDOG.PERIOD 0 = 0 := by decide

/-- A core that holds a role, a spare, and a move of the role at its two steps. -/
def pair (moving : Option (Nat × Bool)) (step : Nat) : Dev :=
  { up with spur := { cores := [(0, core 0), (8, { role := 15 })], moving := moving, step := step } }

theorem wit_HandoverOfRole : (pair none 0).coreUp = true ∧ (pair none 0).spare = 8 ∧
    ((pair none 0).core 0).role ≠ 15 ∧ ((pair none 0).rd SPUR.HANDOVER.FAILED).testBit 0 = false ∧ (pair none 0).spur.moving = none ∧
    (pair none 0).summit.fw = none ∧ 8 < 9 ∧
    (let d := pair (some (0, false)) 1
     d.spur.moving = some (0, false) ∧ d.spur.step = 1 ∧ (d.core 0).outgoing = false ∧ d.spare ≠ 0 ∧ (d.core 0).loads = [] ∧ (d.core 0).sb = [] ∧
       (d.core d.spare).loads = [] ∧ (d.core d.spare).sb = []) ∧
    (let d := pair (some (0, true)) 2
     d.spur.step = 2 ∧ d.spare < 9 ∧ 0 ≠ d.spare ∧ d.summit.fw = none ∧ (d.core d.spare).sb = [] ∧ d.spur.noCopy = false ∧
       { d with spur := { d.spur with noCopy := true } }.spur.noCopy = true ∧ Memory.wf d.mem = true) := by decide

theorem wit_SpurCoreResetAndPowerDownGrace : (spur (core 0)).coreUp = true ∧ ((spur (core 0)).core 0).mode = .running ∧
    ((pair none 0).core 8).mode = .held ∧
    (let d := { spur (core 0) with spur := { (spur (core 0)).spur with grace := true } }
     d.spur.grace = true ∧ d.coreUp = true ∧ ∀ i, i < 9 → (d.core i).loads = [] ∧ (d.core i).sb = []) ∧ (spur (core 0)).spur.grace = false := by decide

/-! ### Notch -/

/-- A run of tile 0 before instruction `i`. -/
def run (i : Nat) (g : SMap W64 := []) : NRun := { id := 5, pkt := 1, tile := 0, pipe := 0, bank := 0, prog := 0, idx := i, g := g }
def notch (n : NRun) : Dev := { up with notch := { runs := [n] } }

/-- The first and the last instruction; a branch that goes to the last pair, taken and not. -/
theorem wit_NotchResultsLandNextStage : ((notch (run 0)).run? 5 = some (run 0) ∧ (run 0).idx < 24 ∧ (run 0).emitted = false) ∧
    ((notch (run 23)).run? 5 = some (run 23) ∧ (run 23).idx < 24) ∧
    condTaken (run 1).land.flags .miss = true ∧ 0 < (21 : BitVec 22).toInt ∧ (run 1).idx + (21 : BitVec 22).toInt < 24 ∧
    condTaken (run 1).land.flags .hit = false := by decide

/-- Entries in each table of tile 0; the last bytes of a window, and the first past it. -/
def tables : NotchSt :=
  { runs := [run 0 [(1, 0x1FFF), (2, 1)]], exact := [(4, ⟨0x11FFF + 2 ^ 80, 7, true, false⟩)], tenant := [(3, ⟨9, true, false⟩)]
    range := [(0, ⟨0x1000, 0x1000, 1, 8, true, false⟩)] }

theorem wit_NotchLookupResults :
    (let d := { up with notch := tables }
     d.run? 5 = some (run 0 [(1, 0x1FFF), (2, 1)]) ∧ d.exactFind 0 (1 * 2 ^ 80 + 1 * 2 ^ 64 + 0x1FFF) = none ∧
       d.exactFind 0 (1 * 2 ^ 80 + 0x11FFF) = some 4 ∧ d.rangeFind 0 1 0x1FFF = some 0 ∧ d.rangeFind 0 1 0x2000 = none ∧
       d.rangeFind 0 2 0x1FFF = none ∧ 0x1FFF + 1 ≤ 0x1000 + 0x1000 ∧ ¬ 0x1FFF + 2 ≤ 0x1000 + 0x1000) := by decide

theorem wit_NotchTableCommands :
    (let d := { up with notch := tables }
     let k := ((d.setTblKey 0 0 0x11FFF).setTblKey 0 2 0x10000)
     let w := (d.setTblKey 0 0 0x1000).setTblKey 0 2 0x1000
     d.coreUp = true ∧ d.tblCmd 0 = none ∧ (d.tenantEnt 0 511).poison = false ∧ (d.rangeEnt 0 4095).poison = false ∧
       k.exactFind 0 (k.stagedKey 0) = some 4 ∧ d.exactFind 0 (d.stagedKey 0) = none ∧ (up.insertSlot 0 (up.stagedKey 0)).isSome = true ∧ up.exactFind 0 (up.stagedKey 0) = none ∧ up.tblCmd 0 = none ∧
       (let x : RangeEnt := ⟨w.tblKey 0 0 + 2 ^ 32 * w.tblKey 0 1, w.tblKey 0 2 + 2 ^ 32 * w.tblKey 0 3, w.tblKey 0 4 % 256, 0, true, false⟩
        ¬ (x.base % 4096 ≠ 0 ∨ x.len % 4096 ≠ 0 ∨ x.len < 4096) ∧ w.overlaps 0 4095 x = false ∧ w.overlaps 0 4095 { x with tag := 1 } = true) ∧
       (0 : Nat) < 4096) ∧
    (let d := { up with notch := { cmd := [(0, some ⟨0, false⟩)], tenant := [(0, ⟨1, true, true⟩)], range := [(0, ⟨0, 4096, 0, 0, true, true⟩)]
                                   exact := [(0, ⟨0, 1, true, true⟩)] } }
     d.tblCmd 0 = some ⟨0, false⟩ ∧ (d.tenantEnt 0 0).poison = true ∧ (d.rangeEnt 0 0).poison = true ∧ (d.exactEnt 0 0).poison = true) := by decide

/-- A program of the Notch profile: FWD in its first pair, then NOPs. -/
def okProgram : List Nat := 0xF0000000 :: List.replicate 23 0x04000000

theorem wit_BankCheckRules : okProgram.length = 24 ∧ checkProgram (okProgram.map decodeRidge) = none := by decide

theorem wit_NotchBanksCheckedAndSwitched : up.coreUp = true ∧ up.rd TILE.NOTCH_BANK.ACTIVE 0 = 0 ∧ (1 : Fin 2).val ≠ up.rd TILE.NOTCH_BANK.ACTIVE 0 ∧
    (let checking := { up with notch := { bankState := [(1, 1)] } }
     checking.bankState 0 1 = 1 ∧ (checking.checkBank 0 1 true).isSome = true ∧
       (let good := { up with notch := { bankState := [(1, 1)], prog := okProgram.mapIdx fun i w => (256 + i, w) } }
        good.bankState 0 1 = 1 ∧ good.checkBank 0 1 false = none)) ∧
    ({ up with notch := { bankState := [(1, 2)] } } : Dev).bankState 0 1 = 2 ∧ up.bankState 0 1 ≠ 2 ∧ up.bankState 0 1 ≠ 1 := by decide

/-! ### Packets -/

/-- A request or completion of an FTYPE with a 16-byte header and no data. -/
def frame (ftype : Nat) (sub : SubQ) : Frame :=
  ⟨ftype, false, false, false, false, sub, 0, 0, 0, 0, 0, 0, 0, 0, 0, List.replicate 16 0, []⟩

def rdFrame : Frame := frame 0 .nonPosted
def wrFrame : Frame := frame 1 .posted
def cplFrame : Frame := frame 4 .completion

/-- Port 8 configured as a downstream port, up and not frozen. -/
def port8 (d : Dev) : Dev :=
  ((((d.setOn PORT.CFG.ENABLE 8 true).wr PORT.CFG.ROLE 8 2).setOn PORT.LINK_STATUS.DL_ACTIVE 8 true).wr PORT.LINK_STATUS.STATE 8 4).setOn
    PORT.CTN_STATUS.FROZEN 8 false

/-- The device with both ports, contexts to grant to tenant 0, and one packet of port 0. -/
def sad (ks : List Pkt) (n : NotchSt := {}) : Dev :=
  let d := port8 (port0 { up with sad := { pkts := ks, nextPkt := 9 }, notch := n })
  (d.wr CTX.TEN_CAP.CAP 0 8).wr CTX.STATUS.SHARED_FREE 0 8

/-- A packet in a pipeline, and the run that holds it with o0 and o1 as given. -/
def running (f : Frame) : Pkt := { id := 1, port := 0, frame := f, phase := .running }
def emitRun (o0 o1 : W64) : NRun := { run 22 with o := [(0, o0), (1, o1)] }
def emitting (f : Frame) (o0 o1 : W64) : Dev := sad [running f] { runs := [emitRun o0 o1] }

theorem emits_of (f : Frame) (o0 o1 : W64)
    (h : f.locked = false ∧ f.ide = false ∧ f.fabric = false) (hf : (emitting f o0 o1).frozen 0 = false) :
    (emitting f o0 o1).emits 5 (emitRun o0 o1) (running f) :=
  ⟨rfl, (by decide : 22 < 24), rfl, rfl, rfl, rfl, rfl, rfl, rfl, rfl, rfl, h.1, h.2.1, h.2.2, hf⟩

theorem wit_EmitSendsPacket : (emitting rdFrame 8 16).emits 5 (emitRun 8 16) (running rdFrame) ∧
    (emitting wrFrame 8 0).emits 5 (emitRun 8 0) (running wrFrame) :=
  ⟨emits_of _ _ _ (by decide) (by decide), emits_of _ _ _ (by decide) (by decide)⟩

/-- FWD with and without REMAP (and with no context to grant), FAB here and to a device with a route, MCG, POOL and TRV at the last queue. -/
theorem wit_EmitSendsPacket_forms :
    (let d := emitting rdFrame 8 16
     d.tenFrozen 0 = false ∧ 8 ≠ (running rdFrame).port ∧ d.configured 8 = true ∧ d.frozen 8 = false ∧ d.linkUp 8 = true ∧ rdFrame.data.length ≤ d.mpsAt 8 ∧
       rdFrame.isTagged = true ∧ ((16 : W64).getLsbD 4 = true) ∧ (d.grantFrom 0 0).isSome = true ∧ d.freeTag 8 = some 0 ∧
       d.freeCtx = some 0 ∧ (d.outFrame (running rdFrame) 8 ⟨0, 8, 16, 0, 0⟩ (some 0)).isSome = true ∧
       (d.wr CTX.TEN_CAP.CAP 0 0).grantFrom 0 0 = none) ∧
    (let d := emitting wrFrame 8 0
     wrFrame.isTagged = false ∧ (d.outFrame (running wrFrame) 8 ⟨0, 8, 0, 0, 0⟩ none).isSome = true ∧ frameTag rdFrame < d.tagSpace 8 ∧
       (8 : W64).toNat % 256 ≠ d.rd FABRIC.ID.DEV ∧ bits (0x800 : W64).toNat 8 7 = 8 ∧ (0x800 : W64).toNat % 256 = d.rd FABRIC.ID.DEV) ∧
    (let d := ((emitting wrFrame 255 0).setOn FABRIC.ROUTE.VALID 255 true).wr FABRIC.ROUTE.P0 255 8
     255 ≠ d.rd FABRIC.ID.DEV ∧ d.routeTo 255 = true ∧ d.routePort 255 1 = 8 ∧ SMap.get 0 d.fab.holds 255 = 0) ∧
    (let d := { emitting wrFrame 4095 0 with sad := { pkts := [running wrFrame], groups := [(4095, ⟨256, true, false, 0, false⟩)] } }
     (d.group ((4095 : W64).toNat % 4096)).valid = true ∧ subOf wrFrame = .posted ∧ wrFrame.data.length ≤ 512) ∧
    (4095 : W64).toNat % 65536 < 4096 := by decide

/-- An emit by a packet toward a port that is not configured, for a frozen tenant, and the kinds of packet it disposes of. -/
theorem wit_EmitTrapsAndDisposals : (emitting rdFrame 9 0).emits 5 (emitRun 9 0) (running rdFrame) ∧
    (emitting rdFrame 9 0).configured 9 = false ∧ subOf rdFrame = .nonPosted ∧ subOf wrFrame = .posted ∧ subOf cplFrame = .completion ∧
    (let d := (emitting rdFrame 8 0).setOn CTN.TEN_STATUS.FROZEN 0 true
     d.configured 8 = true ∧ d.tenFrozen 0 = true) ∧
    (let d := (emitting rdFrame 8 0).setOn PORT.CTN_STATUS.FROZEN 8 true
     d.tenFrozen 0 = false ∧ d.configured 8 = true ∧ d.frozen 8 = true) ∧
    (let d := { emitting rdFrame 0 0 with sad := { pkts := [running rdFrame], groups := [(0, ⟨256, true, false, 0, false⟩)] } }
     (d.group 0).valid = true ∧ d.tenFrozen 0 = false) :=
  ⟨emits_of _ _ _ (by decide) (by decide), by decide⟩

theorem wit_FrameArrivalAndProgramStart :
    (let d := sad []
     let ltr : Frame := { frame 5 .posted with h5 := 0x10 }
     let ide : Frame := { rdFrame with head := List.replicate 20 0 }
     d.coreUp = true ∧ d.linkUp 0 = true ∧ rdFrame.data.length ≤ d.mpsAt 0 ∧ d.colForMe rdFrame = false ∧ rdFrame.ide = false ∧
       d.isLtr 0 rdFrame = false ∧ rdFrame.ep = false ∧ (d.setOn PORT.CTN_CTL.POISON_TRIG 0 true).on PORT.CTN_CTL.POISON_TRIG 0 = true ∧
       (∀ q ∈ d.sad.pkts, q.id < d.sad.nextPkt) ∧ d.isLtr 8 ltr = true ∧ d.linkUp 8 = true ∧ ltr.ide = false ∧ ltr.ep = false ∧ ide.fabric = false ∧
       d.mpsAt 0 < (List.replicate 129 (0 : Byte)).length ∧ d.linkUp 1 = false ∧ d.nextHeader 0 = none) ∧
    (let d := sad [{ id := 1, port := 0, frame := rdFrame }] { sel := [(0, 8)] }
     d.nextHeader 0 = some { id := 1, port := 0, frame := rdFrame } ∧ ¬ (rdFrame.ftype = 5 ∧ rdFrame.h5.toNat % 256 = 0) ∧
       8 ≤ d.selEntry 0 (d.rd TILE.NOTCH_BANK.ACTIVE 0) 0 ∧ (sad []).selEntry 0 0 0 < 8 ∧ d.frozen 0 = false ∧ subOf rdFrame ≠ .completion) ∧
    (let k : Pkt := { id := 1, port := 0, frame := frame 5 .posted }
     (sad [k]).nextHeader 0 = some k ∧ k.frame.ftype = 5 ∧ k.frame.h5.toNat % 256 = 0) := by decide

/-- A trap of tile 0 without and with a record, of a packet of port 0. -/
def trap (valid : Bool) : Trap := ⟨0, 7, 1, 0x10, 0, 0, 0, 0, 0, 0, 0, 0, 0, valid⟩
def trapped (f : Frame) : Pkt := { id := 1, port := 0, frame := f, phase := .trapped, dest := .mgmt }

theorem wit_TrapRecordsResolvesTimeouts :
    (let d := sad [trapped rdFrame] { traps := [trap false] }
     d.coreUp = true ∧ d.trap? 0 7 = some (trap false) ∧ d.pkt? 1 = some (trapped rdFrame) ∧
       (∀ y ∈ d.notch.traps, y.tile = 0 → (y.valid = true → y.n % 16 ≠ 7 % 16) ∧ (y.valid = false → 7 ≤ y.n)) ∧
       subOf rdFrame = .nonPosted ∧ subOf wrFrame = .posted ∧ rdFrame.fabric = false) ∧
    (let d := sad [trapped rdFrame] { traps := [trap true] }
     (d.notch.traps.find? fun y => y.tile == 0 && y.valid && y.n % 65536 == 7) = some (trap true) ∧ (trapped rdFrame).phase = .trapped ∧
       (trapped rdFrame).marked = false ∧ d.frozen 0 = false ∧ rdFrame.locked = false ∧ rdFrame.ide = false ∧
       d.rd TILE.NOTCH_RSLV_O0.V 16 % 65536 < 4096 ∧ d.tenFrozen 0 = false ∧ rdFrame.data.length ≤ 512 ∧
       (d.notch.traps.find? fun y => y.tile == 0 && y.valid && y.n % 65536 == 8) = none) := by decide

/-- A packet in landing blocks toward port 8. -/
def landed (id : Nat) (ph : Phase) : Pkt :=
  { id := id, port := 0, frame := wrFrame, phase := ph, dest := .port 8, fwd := some wrFrame, act := some ⟨0, 8, 0, 0, 0⟩ }

theorem wit_AdmissionSpillAndGrant :
    (let k := landed 1 .landed
     let d := sad [k]
     d.coreUp = true ∧ d.pkt? 1 = some k ∧ k.charged = false ∧ k.phase = .landed ∧ SMap.get false d.sad.spilling 0 = false ∧
       d.rd TILE.VOQ_STATUS.USED 0 < d.rd TILE.SCREE_CTL.HIGH 0 * 16 ∧ (∀ q ∈ d.sad.pkts, q.sameVoq k = true → q.inTail = false ∧ q.inScree = false) ∧
       ((d.wr TILE.VOQ_TEN_CAP.CAP 0 1).fits 0 0 k.blocks = true) ∧ ((d.wr TILE.VOQ_TEN_CAP.CAP 0 0).wr TILE.VOQ_TEN_MIN.MIN 0 0).fits 0 0 k.blocks = false) ∧
    (let k := landed 2 .landed
     let q := { landed 1 .tail with charged := true, credited := true }
     let d := (sad [q, k]).wr TILE.SCREE_SHARE.SEGMENTS 0 0
     q.queuedNow = true ∧ q.sameVoq k = true ∧ q.id ≠ k.id ∧ q.inTail = true ∧ d.canSpill 0 = false) ∧
    (let k := landed 1 (.scree 3)
     let d := sad [k]
     k.port / 8 = 0 ∧ d.rd TILE.VOQ_STATUS.USED 0 ≤ d.spillLow 0 ∧ d.backSegs 0 < 8 ∧ (d.sad.pkts.map (·.id)).Nodup ∧
       (∀ y ∈ d.sad.pkts, y.sameVoq k = true → y.phase ≠ .queued)) ∧
    (let k : Pkt := { landed 1 .ctxWait with frame := rdFrame, fwd := none, act := some ⟨0, 8, 16, 0, 0⟩ }
     let d := sad [k]
     d.pkt? 1 = some k ∧ (16 : W64).getLsbD 4 = true ∧ rdFrame.isTagged = true ∧ (d.grantFrom 0 0).isSome = true ∧ d.freeTag 8 = some 0 ∧
       d.freeCtx = some 0 ∧ (d.outFrame k 8 ⟨0, 8, 16, 0, 0⟩ (some 0)).isSome = true ∧
       (∀ y ∈ d.sad.pkts, y.port / 8 = 0 → y.phase = .ctxWait → 1 ≤ y.id) ∧ (d.wr CTX.TEN_CAP.CAP 0 0).grantFrom 0 0 = none) := by decide

/-- A packet in its queue, toward a port, the pool and a group. -/
def queued (x : Dest) (cells : List Cell) : Pkt :=
  { landed 1 .queued with dest := x, charged := true, credited := true, cells := cells }

theorem wit_CellsPlanesAndMulticast :
    (∀ k ∈ [queued (.port 8) [], queued (.pool 0) [], queued (.group 0) []],
      let d := sad [k]
      d.coreUp = true ∧ d.pkt? 1 = some k ∧ d.offered k = true ∧ d.planeFor k 0 = true ∧ d.scheduled k = true ∧ d.cutFirst k = true ∧
        k.cellCount = k.cells.length + 1) ∧
    (let d := { sad [queued (.group 0) []] with sad := { pkts := [queued (.group 0) []], groups := [(0, ⟨256, true, false, 0, false⟩)] } }
     (d.group 0).valid = true ∧ (d.group 1).valid = false ∧ d.unreachable 8 = false ∧ d.unreachable 9 = true ∧ d.staged? 8 1 = none) ∧
    (let k := queued (.port 8) [⟨0, 5, false⟩, ⟨1, 6, true⟩]
     let d := sad [k]
     d.pkt? 1 = some k ∧ k.cells[0]? = some ⟨0, 5, false⟩ ∧ k.cells[1]? = some ⟨1, 6, true⟩ ∧ k.dest.group? = none ∧
       d.rd PLANE.STATUS.STATE 0 = 0 ∧ d.rd PLANE.STATUS.STATE 1 = 0 ∧ (d.sad.pkts.map (·.id)).Nodup) ∧
    (let d := (up.setOn PLANE.CTL.ISOLATE 3 true).wr PLANE.STATUS.STATE 3 3
     d.coreUp = true ∧ d.on PLANE.CTL.ISOLATE 3 = true ∧ d.rd PLANE.STATUS.STATE 3 = 3 ∧ d.testPassed 1 3 = false ∧
       ({ d with bist := { last := [(259, 1)] } } : Dev).testPassed 1 3 = true ∧ up.on PLANE.CTL.ISOLATE 3 = false) := by decide

/-- One plane alone in service, and two. -/
theorem wit_LastPlaneIsolationRefused :
    (let d := ((up.wr PLANE.STATUS.STATE 1 2).wr PLANE.STATUS.STATE 2 2).wr PLANE.STATUS.STATE 3 3
     d.coreUp = true ∧ d.rd PLANE.STATUS.STATE 0 = 0 ∧ ∀ j : Fin 4, j ≠ 0 → ¬ d.rd PLANE.STATUS.STATE j = 0) ∧
    up.rd PLANE.STATUS.STATE 3 = 0 ∧ (3 : Fin 4) ≠ 0 := by decide

theorem wit_EgressAndGroupCommands :
    (let x : Staged := ⟨queued (.port 8) [⟨0, 5, false⟩], 8, 1, false⟩
     let d := { sad [queued (.port 8) [⟨0, 5, false⟩]] with sad := { staged := [x], credit := [(2 * (8 * 3 + subIdx .posted), 1)] } }
     d.coreUp = true ∧ d.staged? 8 1 = some x ∧ (∀ y ∈ d.sad.staged, y.port = 8 → y.tx = false) ∧ d.linkFlows 8 = true ∧ d.frozen 8 = false ∧
       d.cellsBefore x ≤ x.have_ ∧ d.stagedTurn x = true ∧ d.on PORT.THX_CTL.THEOX 8 = false ∧ x.pkt.segHdr = none ∧
       1 ≤ SMap.get 0 d.sad.credit (2 * (8 * 3 + subIdx (subOf wrFrame))) ∧ d.staged? 9 1 = none) ∧
    (let x : Staged := ⟨{ queued (.port 8) [⟨0, 5, false⟩] with frame := { wrFrame with data := List.replicate 300 0 } }, 8, 1, true⟩
     x.tx = true ∧ x.whole = false ∧ x.pkt.id = 1) ∧
    up.sad.mcgCmd = none ∧ ((up.group 4095).poison || false) = false ∧ ((up.group 4095).poison || true) = true ∧
    ({ up with sad := { mcgCmd := some ⟨0, false⟩ } } : Dev).sad.mcgCmd = some ⟨0, false⟩ := by decide

/-! ### Slots, resets -/

/-- Slot 0: a channel that is ON with good settings, in a state. -/
def chan (st : Nat) : Dev :=
  let d := (up.wr SLOT.PWR_LIMIT.ILIM 0 1000).wr SLOT.PWR_LIMIT.RSENSE 0 1000
  ((d.wr SLOT.PWR_FOLD.LIMIT 0 500).setOn SLOT.PWR_CTL.ON 0 true).wr SLOT.PWR_STATUS.STATE 0 st

/-- The limits at the ends of what R359 allows; the voltages where the comparisons turn. -/
theorem wit_SlotPowerOnAndOff : up.coreUp = true ∧ 3 * (3333 * 1000) ≤ 10000000 ∧ 400000 ≤ 400 * 1000 ∧ ¬ 400000 ≤ 399 * 1000 ∧
    up.rd SLOT.PWR_LIMIT.ILIM 0 = 0 ∧ (chan 0).rd SLOT.PWR_LIMIT.ILIM 0 ≠ 0 ∧ (chan 0).rd SLOT.PWR_FOLD.LIMIT 0 ≠ 0 ∧
    (let d := (chan 1).setOn SLOT.PWR_STATUS.PRSNT_STABLE 0 true
     d.on SLOT.PWR_CTL.ON 0 = true ∧ d.on SLOT.PWR_STATUS.LATCHED 0 = false ∧ d.on SLOT.PWR_STATUS.RESTART_RUN 0 = false ∧
       d.on SLOT.PWR_STATUS.PRSNT_STABLE 0 = true ∧ 10200 ≤ 4 * 2550 ∧ ¬ 10200 ≤ 4 * 2549 ∧ d.on SBIN.STATUS.LEVEL 128 = false ∧
       d.rd SLOT.PWR_STATUS.STATE 0 ≠ 2 ∧ d.rd SLOT.PWR_STATUS.STATE 0 ≠ 3) ∧
    (chan 2).rd SLOT.PWR_STATUS.STATE 0 = 2 ∧ 8000 ≤ 4 * 2000 ∧ (chan 3).rd SLOT.PWR_STATUS.STATE 0 = 3 ∧ 4 * 1749 < 7000 ∧ ¬ 4 * 1750 < 7000 ∧
    (let d := ((chan 3).setOn SLOT.PWR_STATUS.PG 0 true).setOn SLOT.PWR_CTL.PERST 0 false
     d.on SLOT.PWR_STATUS.PG 0 = true ∧ d.on SLOT.PWR_CTL.PERST 0 = false ∧ SMap.get false d.slot.released 0 = false) ∧
    (up.setOn SBIN.STATUS.LEVEL 64 true).on SBIN.STATUS.LEVEL (64 + 0) = true ∧ State.reset.dev.coreUp = false := by decide

theorem wit_SlotTripsAndSidebandInputs : (chan 2).coreUp = true ∧ (chan 2).rd SLOT.PWR_STATUS.STATE 0 = 2 ∧
    3 * 1000 * 1000 < 1201 * 2500 ∧ ¬ 3 * 1000 * 1000 < 1200 * 2500 ∧ 4 * 749 < 3000 ∧ ¬ 4 * 750 < 3000 ∧ 100 < 2 * 51 ∧ 2 * 50 ≤ 100 ∧
    (let d := ((chan 2).setOn SLOT.PWR_CTL.AUTO_RETRY 0 true).wr SLOT.PWR_CTL.RETRY_MAX 0 3
     d.on SLOT.PWR_CTL.AUTO_RETRY 0 = true ∧ d.rd SLOT.PWR_STATUS.RETRIES 0 < d.rd SLOT.PWR_CTL.RETRY_MAX 0) ∧
    up.power ≠ .vaux ∧ (∀ i ∈ [0, 127, 128, 129], up.on SBIN.STATUS.MASKED i = false ∧ up.on SBIN.STATUS.LEVEL i ≠ true) ∧
    (up.setOn SBIN.STATUS.LEVEL 130 true).on SBIN.STATUS.LEVEL 130 ≠ false ∧ (up.setOn SBIN.STATUS.MASKED 0 true).on SBIN.STATUS.MASKED 0 = true ∧
    up.on SBIN.CFG.STUCK_EN 96 = true ∧ (up.setOn SBIN.STATUS.LEVEL 96 true).on SBIN.STATUS.LEVEL 96 = true ∧ up.on SBIN.CFG.CHAT_EN 128 = true ∧
    max 1 (up.rd SBIN.CFG.CHAT_EDGES 128) < 256 ∧ up.on SBIN.CFG.STUCK_EN 95 = false := by decide

/-- An accepted image of a type, with a segment of one byte for the SRAM. -/
def image (type : Nat) : Image := ⟨type, 0, 0, 0, true, true, true, true, [⟨0, 0, [7]⟩]⟩

theorem wit_ColdResetAndBoot :
    (let d : Dev := { power := .vaux, summit := { flash := [(0, some (image 1)), (2, some (image 2))] } }
     d.power = .vaux ∧ (d.chooseSlot 0 1 (d.dirBit 0)).isSome = true ∧ (d.chooseSlot 2 2 (d.dirBit 1)).isSome = true ∧
       State.reset.dev.chooseSlot 0 1 0 = none) ∧
    (let d := (up.setOn DEV.CLK_STATUS.ROOT_LOCK 0 true).setOn SBIN.STATUS.LEVEL 130 true
     d.power ≠ .vaux ∧ d.power ≠ .cold ∧ d.on DEV.CLK_STATUS.ROOT_LOCK = true ∧ d.on SBIN.STATUS.LEVEL 130 = true ∧
       (up.setOn SBIN.STATUS.LEVEL 130 false).on SBIN.STATUS.LEVEL 130 = false) ∧
    (let d := { (up.wr SUMMIT.BOOT_STATUS.STAGE 0 2).wr SUMMIT.BOOT_STATUS.FAIL 0 4 with
       power := .waitCore, summit := { flash := [(4, some (image 3))] } }
     d.power = .waitCore ∧ d.rd SUMMIT.BOOT_STATUS.STAGE = 2 ∧ d.summit.pdRun = false ∧ d.rd SUMMIT.BOOT_STATUS.FAIL = 4 ∧
       (d.chooseSlot 4 3 (d.dirBit 2)).isSome = true ∧ d.rd SPUR.HANDOVER.FAILED = 0 ∧ d.power ≠ .cold ∧ up.power ≠ .waitCore) ∧
    (let d := { up.setOn CAIRN.STATUS.FROZEN 0 true with summit := { saving := some 1 } }
     d.summit.saving = some 1 ∧ d.on CAIRN.STATUS.FROZEN = true ∧ up.summit.saving = none) := by decide

theorem wit_WarmAndTileResetPowerDown :
    (let d := up.wr MGR.PORTS.PORTS 3 (2 ^ 31)
     d.power = .run ∧ d.summit.grant = none ∧ d.mgrPort 127 = true ∧ (0x57520001 : W32).toNat % 2 = 1 ∧
       bits (0x57520001 : W32).toNat 16 16 = 0x5752 ∧ bits (0x57530001 : W32).toNat 16 16 ≠ 0x5752) ∧
    (let d := { up.setOn DEV.CLK_STATUS.ROOT_LOCK 0 true with power := .warm, summit := { flash := [(4, some (image 3))] } }
     d.power = .warm ∧ d.on DEV.CLK_STATUS.ROOT_LOCK = true ∧ d.summit.pdRun = false ∧ (d.chooseSlot 4 3 (d.dirBit 2)).isSome = true) ∧
    ({ up with power := .warm } : Dev).on DEV.CLK_STATUS.ROOT_LOCK = false ∧ up.tileRst 15 = 0 ∧
    (∀ v ∈ [1, 2, 3, 4], (up.setTileRst 15 v).tileRst 15 = v) ∧
    (∀ e ∈ [true, false], let d := { up with summit := { pdRun := true, pdEnd := e } }
      d.summit.pdRun = true ∧ d.coreUp = true ∧ d.drained = true ∧ d.summit.grant = none) ∧ up.summit.pdRun = false := by decide

/-! ### Tarn -/

/-- An access of 64 bytes to region 0 by host domain 0, key 1, and the device with it and that region. -/
def req (f : Frame) (op : TarnOp) (addr : Nat := 0) (ph : TarnPhase := .arrived) : TarnReq :=
  ⟨{ id := 1, port := 0, frame := f, phase := .queued }, op, 0, 1, some 0, addr, 64, 0, ph⟩
def tarn (r : TarnReq) : Dev := let d := pool up; { d with tarn := { d.tarn with reqs := [r] } }
/-- The same with another region 0. -/
def tarnOf (r : TarnReq) (x : Desc) : Dev := let d := tarn r; { d with tarn := { d.tarn with descs := [(0, x)] } }

/-- An access that every check of R147 passes, and for each check one that it is the first to refuse, by the last line of a span and the
first past it. -/
theorem wit_TarnAccessCheckedAndPerformed :
    (let r := req rdFrame .read
     (tarn r).coreUp = true ∧ (tarn r).tarnReq? 1 = some r ∧ rdFrame.fabric = false ∧ r.phase = .arrived ∧ poolFrame rdFrame = true ∧
       (tarn r).poolCheck r.acc = none ∧ region.shared = false ∧ (∀ l ∈ linesOf 0 64, (tarn r).tracked l = false) ∧
       (∀ q ∈ (tarn r).tarn.reqs, q.phase ≠ .waiting) ∧
       ((tarnOf r { region with valid := false }).poolCheck r.acc).map (·.1) = some 1 ∧
       ((tarnOf r { region with tenant := 511 }).poolCheck r.acc).map (·.1) = some 2 ∧
       ((tarnOf r { region with hosts := 2 }).poolCheck r.acc).map (·.1) = some 3 ∧
       ((tarnOf r { region with ejected := 1 }).poolCheck r.acc).map (·.1) = some 4 ∧
       ((tarnOf r { region with read := false }).poolCheck r.acc).map (·.1) = some 5 ∧
       ((tarnOf r { region with key := 15 }).poolCheck r.acc).map (·.1) = some 6 ∧
       (tarn (req rdFrame .read 2097088)).poolCheck (req rdFrame .read 2097088).acc = none ∧
       ((tarn (req rdFrame .read 2097152)).poolCheck (req rdFrame .read 2097152).acc).map (·.1) = some 7) ∧
    (let r := req rdFrame .read
     let d := { tarn r with tarn := { (tarn r).tarn with own := [] } }
     let c := { tarn r with tarn := { (tarn r).tarn with colour := [] } }
     (d.poolCheck r.acc).map (·.1) = some 8 ∧ (c.poolCheck r.acc).map (·.1) = some 9 ∧
       (let z := { tarn r with tarn := { (tarn r).tarn with stackFrozen := [(0, true), (1, true), (2, true), (3, true)] } }
        (z.poolCheck r.acc).map (·.1) = some 11)) ∧
    (let r : TarnReq := { req wrFrame .write with len := 32 }
     let d := { tarn r with tarn := { (tarn r).tarn with poison := [(0, true)] } }
     (d.poolCheck r.acc).map (·.1) = some 10) ∧
    (∀ f ∈ [wrFrame, rdFrame, { frame 2 .nonPosted with h1 := 0 }], let r := req f .write 0 .sched
      (tarn r).tarnReq? 1 = some r ∧ r.phase = .sched ∧ (tarn r).writesBefore r = false ∧ (tarn r).linePoison 0 = false) := by decide

theorem wit_TarnDirectoryAndService :
    (let x := { region with shared := true, hosts := 3 }
     let r := req rdFrame .read
     let d := { tarnOf r x with tarn := { (tarnOf r x).tarn with dir := [(0, ⟨.e, [1]⟩)] } }
     let t : Tracker := ⟨0, 0, 0, [1], false, .req 1⟩
     let r' := { r with phase := .tracked }
     let d' := { tarnOf r' x with tarn := { (tarnOf r' x).tarn with dir := [(0, ⟨.e, [1]⟩)], trackers := [t] } }
     d.coreUp = true ∧ d.tarnReq? 1 = some r ∧ d.poolCheck r.acc = none ∧ x.shared = true ∧ linesOf (x.poolOf 0) 64 = [0] ∧
       d.dirEnt 0 = ⟨.e, [1]⟩ ∧ x.ejected.testBit 1 = false ∧ r.host ≠ some 1 ∧ d.tarn.trackers = [] ∧ (∀ q ∈ d.tarn.reqs, q.phase ≠ .waiting) ∧
       d'.tarnReq? 1 = some r' ∧ d'.tarn.trackers = [t] ∧ linesOf r'.pool r'.len = [0] ∧ d'.dirEnt 0 = ⟨.e, [1]⟩ ∧
       (d'.tarn.trackers.find? fun t => t.tag == 0 && t.pending.contains 1) = some t ∧ 0 / 32768 ∈ x.granules) ∧
    (∀ t ∈ up.tarn.trackers, t.tag ≠ 0 ∨ 63 ∉ t.pending) ∧ (up.wr TARN.ECC_CTL.SCRUB_HOURS 0 0).rd TARN.ECC_CTL.SCRUB_HOURS = 0 ∧
    (up.wr TARN.ECC_CTL.SCRUB_HOURS 0 24).rd TARN.ECC_CTL.SCRUB_HOURS ≠ 0 ∧ max 1 (up.rd TARN.ECC_CTL.CE_LIMIT) ≤ 255 ∧
    (let d := { up.wr TARN.PART.SPARE 0 1 with tarn := { retireQ := [(256, 0)] } }
     (d.tarn.retireQ.find? fun x => x.1 == 256) = some (256, 0) ∧ 0 < min 1024 (d.rd TARN.PART.SPARE) ∧
       min 1024 (({ d with tarn := { d.tarn with spares := [(0, 1)] } } : Dev).rd TARN.PART.SPARE) ≤ 1) ∧
    ({ up with tarn := { evac := some (3, 0) } } : Dev).tarn.evac = some (3, 0) ∧ up.tarn.evac = none := by decide

/-! ### Summit -/

/-- Mailbox 0 holds the word, which is also at the front of the state queue and of the flash queue; parameter words at Spur memory 0. -/
def asks (w : Nat) (ps : List Nat := []) (d : Dev := up) : Dev :=
  let d : Dev := d.wr SUMMIT.BOOT_STATUS.STAGE 0 2
  let d : Dev := { d with summit := { d.summit with mbx := [(0, { full := true, word := BitVec.ofNat 64 w })], stateQ := [⟨0, BitVec.ofNat 64 w, true⟩]
                                                    flashQ := [⟨0, BitVec.ofNat 64 w, true⟩] } }
  (ps.zipIdx.foldl (fun d p => d.store (spurAt (4 * p.2)) 4 p.1) d)

abbrev Turn (op : Nat) (d : Dev) : Prop := d.summitUp = true ∧ (d.mbx 0).full = true ∧ (d.mbx 0).reply = none ∧ (d.mbx 0).word.toNat % 256 = op ∧
  d.summit.stateRun = false ∧ d.summit.flashRun = false ∧ (d.summit.stateQ.head?.map (·.box)) = some 0 ∧
  (d.summit.flashQ.head?.map fun q => (q.box, q.wanted)) = some (0, true)
abbrev par (d : Dev) (i : Nat) : Nat := d.load (spurAt (4 * i)) 4

/-- Each direct command, the smallest and the largest opcodes that no rule lists, a reply to read. -/
theorem wit_SummitDirectCommands : (∀ op ∈ [0, 6, 7, 9, 0x0D, 0x1F, 0x25, 0xFF], Turn op (asks op)) ∧ up.power = .run ∧ up.summit.pdRun = false ∧
    (let d := { spur (core 0) with summit := { mbx := [(0, { full := true, reply := some 0x100 })] } }
     (d.core 0).role = 0 ∧ (d.mbx 0).reply = some 0x100 ∧ d.vauxUp = true ∧ (d.core 1).role ≠ 0) ∧ State.reset.dev.vauxUp = false := by decide

/-- The register staging of descriptor 0 as `region`. -/
def stage (d : Dev) (x : Desc) : Dev := (List.range 6).foldl (fun d i => d.wr TARN.DESC_STAGE.W i (x.word i)) (d.wr TARN.REGION_TOP.GRANULES 0 64365)

/-- Counts at and beside the bounds of R385, addresses in and outside the allow-list, a register without an action of its own; a descriptor
that R145 admits, one it refuses, one with LOCKED, a full key store; the ends of the conditions of the other commands. -/
theorem wit_SummitStateQueue :
    (let w := asks 1 [1, 0x2200008, 7] { up with summit := { policy := some ⟨0, 0, false, false, 0, [(0x2200004, 0x2200008)]⟩ } }
     Turn 1 w ∧ par w 0 = 1 ∧ par w 1 = 0x2200008 ∧ par w 1 % 4 = 0 ∧ (0x2200004 ≤ par w 1 ∧ par w 1 ≤ 0x2200008) ∧
       w.place .summit 0x2200008 = .reg .TARN_BI_CTL 0 ∧ (w.tileWrite .summit .TARN_BI_CTL 0 7).isNone = true ∧
       (w.coreWrite .summit .TARN_BI_CTL 0 7).isNone = true ∧ (w.islandWrite .summit .TARN_BI_CTL 0 7).isNone = true ∧
       par (asks 1 [0]) 0 = 0 ∧ 16 < par (asks 1 [17]) 0 ∧ par (asks 1 [1, 0x2200000]) 1 = 0x2200000) := by decide

theorem wit_SummitStateQueue_commit :
    (let x := Desc.ofWords fun i => (stage up region).rd TARN.DESC_STAGE.W i
     let d := stage (asks 2) region
     Turn 2 d ∧ x = region ∧ d.summit.tarnInit = false ∧ (d.desc 0).locked = false ∧ x.valid = true ∧ x.locked = false ∧
       x.key ≠ 0 ∧ 21 ≤ x.subLog2 ∧ x.subLog2 ≤ 34 ∧ x.hbase % x.span = 0 ∧
       x.pbase * 2097152 + x.span ≤ d.rd TARN.REGION_TOP.GRANULES * 2097152 ∧ x.hosts ≠ 0 ∧ (maskHosts x.hosts).length = 1 ∧
       (∀ g ∈ x.granules, (d.own g).owned = false ∧ (d.own g).clean = true)) ∧
    (let l := { region with locked := true }
     let d := stage (asks 2) l
     let k := { d with tarn := { d.tarn with descs := [(0, l)] }, summit := { d.summit with lockKeys := [(0, 1)] } }
     (Desc.ofWords fun i => d.rd TARN.DESC_STAGE.W i).locked = true ∧ d.lockKey 0 = none ∧ d.summit.lockKeys.length < 512 ∧
       (k.desc 0).locked = true ∧ k.lockKey 0 = some (k.keyBlock 0) ∧
       { k with summit := { k.summit with lockKeys := [(0, 2)] } }.lockKey 0 ≠ some (k.keyBlock 0) ∧
       (let full : SMap Nat := (List.range 512).map fun i => (i + 1, i + 1)
        512 ≤ full.length ∧ ({ up with summit := { lockKeys := full } } : Dev).lockKey 0 = none)) ∧
    (let x : CommitRun := ⟨0, 0, region, []⟩
     let d := { up with tarn := { commit := some x } }
     d.coreUp = true ∧ d.tarn.commit = some x ∧ d.sweepDone x = true) := by decide

theorem wit_SummitStateQueue_others :
    (let d := asks 3 [0, 64365, 1, 1]
     let o := asks 3 [0, 64366, 1, 1]
     let q := pool d
     Turn 3 d ∧ par d 2 % 16 ≠ 0 ∧ par d 0 + par d 1 ≤ d.rd TARN.REGION_TOP.GRANULES ∧ d.tarn.own.length = 0 ∧
       o.rd TARN.REGION_TOP.GRANULES < par o 0 + par o 1 ∧ (q.tarn.own.any fun x => x.1 == 0 && x.2.owned) = true ∧
       par (asks 3 [0, 1, 16]) 2 % 16 = 0) ∧
    (({ asks 2 with summit := { (asks 2).summit with tarnInit := true } } : Dev).summit.tarnInit = true) := by decide

theorem wit_SummitStateQueue_ends :
    (∀ z ∈ [true, false], ({ up with tarn := { recolour := some ⟨0, 0, 2, 3, z⟩ } } : Dev).tarn.recolour = some ⟨0, 0, 2, 3, z⟩) ∧
    (let d := asks (4 + 64 * 2 ^ 32)
     Turn 4 d ∧ d.tarn.descs.length = 0 ∧ d.screeUsed = 0 ∧ d.rd TARN.EVAC_STATUS.COUNT = 0 ∧ ((pool d).tarn.descs.any fun x => x.2.valid) = true) ∧
    (let d := asks (5 + 255 * 2 ^ 32)
     Turn 5 d ∧ d.tarn.evac = none ∧ d.rd TARN.EVAC_STATUS.COUNT = 0 ∧ 255 ∉ d.tarn.evacuated ∧ d.tarn.own.length = 0 ∧
       8 ≤ (d.wr TARN.EVAC_STATUS.COUNT 0 8).rd TARN.EVAC_STATUS.COUNT) ∧
    Turn 8 (asks 8) ∧ (asks 8).power = .run ∧ (asks 8).summit.grant = none := by decide

/-- A read of the first lines of region 0 by Summit. -/
def stageAcc (d : Dev) : PoolAcc :=
  { desc := par d 1 % 4096, tenant := none, key := none, host := none, device := true, addr := (d.desc (par d 1 % 4096)).hbase + par d 2, len := par d 3, op := .read }

/-- Stagings at and beyond the bounds, readable, poisoned and refused; a staged image that verifies; the slot of an update with a spare,
without one, a reload at each step. -/
theorem wit_FirmwareUpdate_stage :
    (let d := pool (asks 10 [3, 0, 0, 64])
     let p := { d with tarn := { d.tarn with poison := [(0, true)] } }
     Turn 10 d ∧ par d 0 = 3 ∧ par d 3 ≠ 0 ∧ par d 3 ≤ 2097152 ∧ (d.poolCheck (stageAcc d)).isNone = true ∧ (d.desc 0).shared = false ∧
       linesOf 0 64 = [0] ∧ d.tracked 0 = false ∧ d.linePoison 0 = false ∧ p.linePoison 0 = true ∧
       (let e := asks 10 [3, 0, 0, 64]; e.poolCheck (stageAcc e)).isSome = true ∧ par (asks 10 [1, 0, 0, 262145]) 3 = 262145 ∧
       par (asks 10 [3, 0, 0, 2097153]) 3 = 2097153 ∧ par (asks 10 [2]) 0 = 2 ∧ par (asks 10 [3]) 3 = 0) ∧
    (let x : Staging := ⟨5, image 3, true⟩
     let d := { asks 10 with summit := { (asks 10).summit with staging := some x, flashRun := true } }
     d.summit.staging = some x ∧ x.byMailbox = true ∧ d.imageOk (5 / 2 + 1) (image 3) = true ∧
       d.imageOk (5 / 2 + 1) { image 3 with hashOk := false } = false ∧ up.summit.staging = none) := by decide

theorem wit_FirmwareUpdate_activate :
    (let base := asks (11 + 2 ^ 32) [] (pair none 0)
     let d := { base with summit := { base.summit with flash := [(5, some (image 3))] } }
     let late := { base with summit := { base.summit with flash := [(5, some { image 3 with stateMin := 1 })] } }
     Turn 11 d ∧ d.coreUp = true ∧ base.slotImage 5 3 = none ∧ d.slotImage 5 3 = some (image 3) ∧ (image 3).stateMin ≤ d.summit.stateVer ∧
       d.spare < 9 ∧ d.spur.moving = none ∧ d.nextRole 0 = some 0 ∧ d.coreOfRole 0 = some 0 ∧
       (late.slotImage 5 3).map (·.stateMin) = some 1 ∧ late.summit.stateVer < 1 ∧ (up.wr SPUR.HANDOVER.SPARE 0 15).spare = 15 ∧ (pair (some (0, false)) 1).spur.moving ≠ none) ∧
    Turn 12 (asks (12 + 2 ^ 32)) ∧ Turn 12 (asks 12) := by decide

theorem wit_FirmwareUpdate_reload : ∀ ab ∈ [true, false], ∀ moved ∈ [0, 1],
    (let f : FwAct := ⟨0, 1, moved, 1, ab, some 8⟩
     let d := { pair none 0 with summit := { fw := some f, flash := [(5, some (image 3))] } }
     d.summit.fw = some f ∧ f.reloading = some 8 ∧ d.slotImage (4 + f.slot) 3 = some (image 3) ∧
       (d.nextRole 0 = some 0 ∧ d.coreOfRole 0 = some 0 ∧ d.nextRole 1 = none) ∧ (pair none 0).slotImage 5 3 = none) := by decide

theorem wit_FirmwareUpdate_i3c :
    (let p : Policy := ⟨0, 0, false, true, 0, []⟩
     up.vauxUp = true ∧ ({ up with summit := { policy := some p } } : Dev).summit.policy = some p ∧ p.i3cFlash = true ∧
       (up.wr SUMMIT.BOOT_STATUS.STAGE 0 15).rd SUMMIT.BOOT_STATUS.STAGE = 15 ∧ up.summit.policy = none ∧ up.rd SUMMIT.BOOT_STATUS.STAGE ≠ 15) := by decide

/-! ### Accesses and debugging -/

/-- Accesses of each kind of place, at the ends of the space and of a block; a register without an action, one with RWL fields only. -/
theorem wit_RegisterReadsAndWrites : up.vauxUp = true ∧ up.mgrPort 0 = false ∧ (Master.core 8 ≠ .debug ∧ Master.summit ≠ .debug) ∧
    268435455 % 4 ≠ 0 ∧ 268435452 % 4 = 0 ∧ up.place .summit 268435452 = .reserved ∧ up.place .summit 0x2200028 = .blank ∧
    up.place .summit 0x2200010 = .reg .TARN_ECC_CTL 0 ∧ (up.tileWrite .summit .TARN_ECC_CTL 0 7).isNone = true ∧
    (up.coreWrite .summit .TARN_ECC_CTL 0 7).isNone = true ∧ (up.islandWrite .summit .TARN_ECC_CTL 0 7).isNone = true ∧
    (∀ f ∈ Reg.flds .TARN_PORT_HOST, f.acc = .rwl) ∧ up.rwlTouched .TARN_PORT_HOST 0 64 = true ∧
    (up.tileWrite .debug .TARN_PORT_HOST 0 64).isNone = true ∧ (up.coreWrite .debug .TARN_PORT_HOST 0 64).isNone = true ∧
    (up.islandWrite .debug .TARN_PORT_HOST 0 64).isNone = true ∧ up.on CAIRN.STATUS.FROZEN = false ∧
    (up.cnt64 .TARN_ECC_CTL 0).isNone = true ∧ latches .TARN_ECC_CTL = [] ∧ latchOf .TARN_ECC_CTL = none ∧
    ({ up with power := .waitCore } : Dev).coreUp = false ∧ State.reset.dev.vauxUp = false := by decide

/-- The device with Summit at work and a grant. -/
def granted (scope : Nat) (k : SpurCore := core 0) : Dev :=
  let d := (pool (spur k)).wr SUMMIT.BOOT_STATUS.STAGE 0 2
  { d with timeBase := 9, summit := { d.summit with grant := some ⟨scope, [], 10⟩, halted := if k.mode = .halted then [0] else [] } }

/-- The token of reset is refused: its DURATION is 0. -/
theorem tokenBad_zero : ∃ k, up.tokenBad up.token = some k := by
  have h : fieldAt up.token 20 4 < 1 := by decide
  unfold Dev.tokenBad
  simp only []
  split <;> (try exact ⟨_, rfl⟩)
  split <;> (try exact ⟨_, rfl⟩)
  split <;> (try exact ⟨_, rfl⟩)
  split <;> (try exact ⟨_, rfl⟩)

/-- A token is accepted when Summit's cryptography accepts it, which no file fixes: with the serial, the nonce, no locked region, a scope that
the policy allows and a duration at either end. -/
theorem tokenBad_none (d : Dev) (t : List Byte) (hs : fieldAt t 0 8 = Config.serial)
    (hn : fieldAt t 8 8 = d.rd SUMMIT.DBG_NONCE_LO.V + 2 ^ 32 * d.rd SUMMIT.DBG_NONCE_HI.V) (hk : Config.tokenKeyOk t = true)
    (hg : Config.tokenSigOk t = true) (h0 : fieldAt t 24 2 = 0) (hc : fieldAt t 16 4 = 0) (hd : fieldAt t 20 4 = 1 ∨ fieldAt t 20 4 = 86400) :
    d.tokenBad t = none := by
  unfold Dev.tokenBad
  simp only [hs, hn, hk, hg, h0, hc, ne_eq, not_true_eq_false, if_false, Bool.not_true, Bool.false_eq_true, List.range_zero, List.all_nil,
    Nat.zero_and, or_false]
  rcases hd with h | h <;> simp [h]

/-- A grant of every scope, before and at its end; a core running and halted by the debugger; the ends of the SRAMs; a descriptor open to
the grant, and one that is locked. -/
theorem wit_DebugGrantsAndRequests :
    (let d := granted 22
     let h := granted 22 { core 0 with mode := .halted }
     d.summitUp = true ∧ d.coreUp = true ∧ d.summit.scanned = false ∧ d.summit.grant = some ⟨22, [], 10⟩ ∧ Nat.testBit 22 1 = true ∧
       Nat.testBit 22 2 = true ∧ Nat.testBit 22 4 = true ∧ d.timeBase < 10 ∧ 10 ≤ ({ d with timeBase := 10 } : Dev).timeBase ∧
       (d.core 0).mode = .running ∧ (h.core 0).mode = .halted ∧ 0 ∈ h.summit.halted ∧
       (up.wr SUMMIT.BOOT_STATUS.STAGE 0 2).summit.grant = none ∧ up.summitUp = false ∧ debugOpen 0x2200000 = false) ∧
    (let d := granted 22
     (0xFFF8 % 8 = 0 ∧ 0xFFF8 < 0x10000 ∧ 0x3FFF8 % 8 = 0 ∧ 0x20000 ≤ 0x3FFF8 ∧ 0x3FFF8 < 0x40000 ∧ ¬ 0x10000 < 0x10000) ∧
       (d.desc 0).locked = false ∧ (d.desc 0).shared = false ∧
       (∀ op ∈ [TarnOp.read, .write], (d.poolCheck { desc := 0, tenant := none, key := none, host := none, device := true, addr := 0, len := 64,
                                                     op := op }).isNone = true) ∧
       linesOf 0 64 = [0] ∧ d.tracked 0 = false ∧ d.linePoison 0 = false) ∧
    (let d := { granted 22 with tarn := { descs := [(0, { region with locked := true })] } }
     (d.desc 0).locked = true ∧ d.summit.grant.map (·.locked) = some []) ∧
    ({ granted 22 with summit := { scanned := true } } : Dev).summit.scanned = true ∧ (granted 22).power = .run := by decide

/-! ### The manager -/

/-- Foothill runs, port 0 is an upstream port of host domain 0, one manager port, with the command in its page; tenant 5 exists; VFs 0 to 511
belong to the domain. -/
def mgr (op : Nat) : Dev :=
  let d := (((up.wr SUMMIT.BOOT_STATUS.STAGE 0 4).wr MGR.PORTS.PORTS 0 1).setOn FN.PF_VFS.VALID 0 true).wr FN.PF_VFS.TOTALVFS 0 512
  let d := (d.setOn PORT.CFG.ENABLE 0 true).wr PORT.CFG.ROLE 0 1
  { d with trv := { d.trv with mgr := [(0, { cmd := [op + 7 * 65536], busy := true })], tenants := [(5, { exists_ := true })] } }
def tenant (st : Nat) (d : Dev) : Dev := { d with trv := { d.trv with tenants := [(5, { exists_ := true, st := st })] } }

abbrev Asked (op : Nat) (d : Dev) : Prop := d.coreUp = true ∧ d.rd SUMMIT.BOOT_STATUS.STAGE = 4 ∧ d.mgrPort 0 = true ∧ (d.mgrPage 0).busy = true ∧
  (d.mgrPage 0).taken = false ∧ (d.mgrPage 0).cmd.headD 0 % 256 = op ∧ (d.mgrPage 0).cmd.headD 0 / 65536 % 65536 = 7 ∧ (d.mgrPage 129).busy = false

theorem wit_ManagerCommands : (∀ op ∈ [1, 2, 3, 4, 5, 6, 7, 8, 9, 10, 11, 12, 13, 14, 15], Asked op (mgr op)) ∧
    (∀ n ∈ [0, 4, 6, 511], ((mgr 1).tenant n).exists_ = false) ∧ ((mgr 1).tenant 5).exists_ = true ∧ (mgr 1).on FN.PF_VFS.VALID 0 = true ∧
    (mgr 1).on FN.PF_VFS.VALID 63 = false ∧ ((tenant 2 (mgr 2)).tenant 5).st = 2 ∧ (mgr 2).vfsOf 5 = [] ∧ (mgr 2).tarn.descs.length = 0 ∧
    ((mgr 2).tenant 5).st ≠ 2 ∧ (mgr 3).on FN.PF_VFS.VALID 0 = true ∧ ((mgr 3).fn 0).vfEnable = false ∧
    ((List.range 64).foldl (fun a j => if j = 1 then a else a + (mgr 3).rd FN.PF_VFS.TOTALVFS j) 0) = 512 ∧ 512 + 0 ≤ 512 ∧ 512 < 512 + 1 := by decide

theorem wit_ManagerCommands_vf : (∀ v ∈ [0, 511], (mgr 4).on FN.VF_BIND.BOUND v = false ∧ (mgr 4).domainOfVf v = some ((mgr 4).tenant 5).domain ∧
      ((mgr 15).setOn FN.VF_BIND.BOUND v true).on FN.VF_BIND.BOUND v = true ∧
      (((mgr 15).setOn FN.VF_BIND.BOUND v true).wr FN.VF_BIND.STATE v 2).rd FN.VF_BIND.STATE v = 2 ∧
      ((mgr 15).setOn FN.VF_BIND.BOUND v true).rd FN.VF_BIND.STATE v ≠ 2) ∧
    ((mgr 4).wr FN.PF_VFS.TOTALVFS 0 511).domainOfVf 511 ≠ some 0 := by decide

/-- The minimums of a tile at the bound of R116. -/
theorem wit_ManagerCommands_shares : 65536 - (mgr 5).tileLanding 0 - (mgr 5).rd TILE.VOQ_SHARE.MIN 0 = 51904 ∧
    65536 - (mgr 5).tileLanding 15 - (mgr 5).rd TILE.VOQ_SHARE.MIN 15 = 57344 ∧
    (∀ t ∈ [0, 15], (mgr 5).sumMin t - (mgr 5).rd TILE.VOQ_TEN_MIN.MIN (t * 512 + 5) = 0 ∧ (mgr 5).rd TILE.VOQ_TEN_IDX.TENANT t = 0) := by decide

theorem wit_ManagerCommands_regions :
    (∀ l ∈ [false, true], let x := { region with locked := l }
      let w : Vector W32 6 := #v[BitVec.ofNat 32 (x.word 0), BitVec.ofNat 32 (x.word 1), BitVec.ofNat 32 (x.word 2), BitVec.ofNat 32 (x.word 3),
        BitVec.ofNat 32 (x.word 4), BitVec.ofNat 32 (x.word 5)]
      (Desc.ofWords fun k => (w.toList.getD k 0).toNat) = x ∧ (mgr 8).commitOk 0 x false = true) ∧
    (mgr 8).commitOk 0 { region with key := 0 } false = false ∧ (mgr 8).stateIdle = true ∧ (mgr 8).summit.tarnInit = false ∧
    ({ mgr 8 with summit := { tarnInit := true } } : Dev).summit.tarnInit = true ∧ (mgr 9).tarn.own.length = 0 ∧
    (mgr 9).rd TARN.REGION_TOP.GRANULES = 64364 + 1 ∧ (asks 0).stateIdle = false ∧
    ((pool (mgr 9)).tarn.own.any fun y => y.1 == 0 && y.2.owned) = true := by decide

/-- Downstream port 8 of this device, on a slot that its tile's bifurcation uses. -/
def down (d : Dev) : Dev := d.wr PORT.CFG.ROLE 8 2

theorem wit_ManagerCommands_functions :
    (let d := down (mgr 10)
     let t := (d.setOn PORT.CFG.TRANSPARENT 8 true)
     d.downstream 8 = true ∧ d.rd FABRIC.ID.DEV = 0 ∧ d.on VSW.VDSP_MAP.VALID 1 = false ∧ d.on VSW.VDSP_MAP.VALID 31 = false ∧ d.vdspsAt 0 8 = [] ∧
       d.host.intx = [] ∧ t.on PORT.CFG.TRANSPARENT 8 = true ∧ d.downstream 9 = false ∧
       (let u := ((d.setOn VSW.VDSP_MAP.VALID 32 true).wr VSW.VDSP_MAP.PORT 32 8)
        u.vdspsAt 0 8 = [32] ∧ 32 / 32 ≠ 0)) ∧
    (let d := (((mgr 3).setOn FN.PF_VFS.VALID 0 true).setFn 0 { vfEnable := true })
     (d.fn (d.rd FN.PF_VFS.PORT 0)).vfEnable = true) ∧ (List.replicate 4 (0 : Fin 4096)).length ≤ 4 ∧ 4 < (List.replicate 5 (0 : Fin 4096)).length ∧
    State.reset.dev.coreUp = false := by decide

/-! ### Queues, functions, quiesce -/

/-- VFs 0 to 511 of host domain 0 enabled, VF 0 and VF 511 bound to tenant 5, with bus mastering. -/
def vfs (op : Nat) : Dev :=
  let d := ((mgr op).setOn FN.VF_BIND.BOUND 0 true).setOn FN.VF_BIND.BOUND 511 true
  let d := (d.wr FN.VF_BIND.TENANT 0 5).wr FN.VF_BIND.TENANT 511 5
  let d := ((d.setOn TARN.PORT_HOST.VALID 0 true).wr FN.PF_VFS.PORT 0 0)
  ((d.setFn 0 { vfEnable := true, numVfs := 512 }).setFn 128 { bme := true }).setFn 639 { bme := true }

def queue (q : Nat) (k : Queue) (d : Dev) : Dev := { d with trv := { d.trv with queues := [(q, k)] } }

/-- Queue 4095 of VF 511 and queue 0 of VF 0: disabled with and without a context to give, running, waiting, stopped. -/
theorem wit_QueuesFunctionsAndQuiesce_queues : (∀ q ∈ [0, 4095], let d := vfs 12
      let none_ := (vfs 12).wr CTX.TEN_CAP.CAP 5 0
      (d.queue q).st = 0 ∧ (d.queue q).enable = false ∧ (d.queue q).holdNew = false ∧ d.vfEnabled (q / 8) = true ∧
        (d.allocCtx (d.queueCtx q)).isSome = true ∧ (none_.allocCtx (none_.queueCtx q)).isNone = true ∧
        (let e := queue q { enable := true, st := 2, ctx := some 0 } d
         (e.queue q).st = 2 ∧ e.vfRuns (q / 8) = true ∧ e.tenFrozen (e.queueTenant q) = false ∧ (e.queue q).ctx ≠ none ∧
           (queue q { enable := true, st := 1, ctx := some 0 } d).queue q = { enable := true, st := 1, ctx := some 0 })) ∧
    ((vfs 12).fn 639).bme = true ∧ ((vfs 12).fn 639).flr = false ∧ ((vfs 12).fn 129).bme = false ∧ (vfs 12).domainOfPort 0 = some 0 ∧
    (vfs 12).domainOfPort 1 = none ∧ (((vfs 12).setFn 639 { flr := true }).fn 639).flr = true := by decide

theorem wit_QueuesFunctionsAndQuiesce_drain :
    (let d := vfs 12
     Asked 12 d ∧ d.trv.quiesces = [] ∧ (d.tenant 5).exists_ = true ∧ (d.tenant 4).exists_ = false ∧ d.on FN.VF_BIND.BOUND 511 = true ∧
       d.on FN.VF_BIND.BOUND 1 = false ∧ d.targetQuiet 5 = true ∧ (d.queue 4095).idle false = true ∧
       (queue 4095 { st := 1, tail := 1 } d).vfsOf 5 = [0, 511] ∧ ((queue 4095 { st := 1, tail := 1 } d).queue 4095).idle false = false) ∧
    (∀ st ∈ [1, 2], let y : Quiesce := ⟨5, false, 0, 7, 100⟩
      let d := queue 4095 { st := st, tail := 1 } (vfs 12)
      let d := { d with timeBase := 100, trv := { d.trv with quiesces := [y] } }
      d.trv.quiesces = [y] ∧ y.source ≠ 999 ∧ y.deadline ≤ d.timeBase ∧ ¬ d.timeBase < 100 ∧ d.quiesced y = (st == 2)) ∧
    Asked 13 (vfs 13) ∧ ((vfs 13).wr FN.VF_BIND.STATE 511 2).rd FN.VF_BIND.STATE 511 = 2 ∧
    (let d := { up with timeBase := 100, summit := { timers := [(1023, 100)] } }
     d.coreUp = true ∧ SMap.get 0 d.summit.timers 1023 ≠ 0 ∧ SMap.get 0 d.summit.timers 1023 ≤ d.timeBase) := by decide

/-! ### Traverse -/

/-- A descriptor's words: its word 0, its length, source and destination. -/
def words (w0 len src dst : Nat) : List Nat := [w0, len, src, dst, 0x40, 0, 0, 0]
def xfer (ws : List Nat) (reads : List EngRead := []) : Xfer := ⟨31, 0, ws, 0, reads, 0, none, 0, false⟩
/-- Queue 0 running with work, port 0 live. -/
def ring (x : Option Xfer) (d : Dev := vfs 12) : Dev :=
  queue 0 { enable := true, st := 1, tail := 15, ctx := some 0, xfer := x, descs := [0] } (port0 d)

/-- A NOP, a FILL of one byte and a COPY across a 4 KiB boundary of its source, that start; a descriptor with a reserved bit; a dead port. -/
theorem wit_TraverseTransfers_start :
    (let d := ring none
     d.coreUp = true ∧ (d.queue 0).st = 1 ∧ (d.queue 0).xfer = none ∧ (d.queue 0).head ≠ (d.queue 0).tail % 2 ^ min 15 (max 4 (d.queue 0).size) ∧
       d.vfRuns 0 = true ∧ (d.rd TRV.ENG_STATUS.FAULTED).testBit 31 = false ∧ d.tenFrozen (d.queueTenant 0) = false ∧
       d.rd TRV.TEN_CFG.WEIGHT (d.queueTenant 0) ≠ 0 ∧ d.vfPort 0 = some 0 ∧ d.portDead 0 = false ∧ 14 ≤ SMap.get 14 d.trv.tagBits 0 ∧
       (ring none ((vfs 12).setOn PORT.CTN_STATUS.FROZEN 0 true)).frozen 0 = false) ∧
    (let nop := xfer (words 0 0 0 0)
     let fill := xfer (words 2 1 0xAB 0)
     let copy := xfer (words 1 513 0xFFF 0)
     nop.bad [0] = false ∧ nop.op = 0 ∧ nop.flush = false ∧ fill.bad [0] = false ∧ fill.op = 2 ∧ fill.dstSpace ≠ 1 ∧ copy.bad [0] = false ∧
       copy.op = 1 ∧ copy.srcSpace = 0 ∧ copy.dstSpace ≠ 1 ∧ (xfer (words (2 ^ 9) 0 0 0)).bad [0] = true) ∧
    (port0 (vfs 12)).portDead 0 = false ∧ (vfs 12).portDead 0 = true := by decide

/-- Reads of a port and of the pool outstanding, and their last entry; a late one. -/
theorem wit_TraverseTransfers_completion :
    (let r : EngRead := ⟨255, some 0, false, 0, 2, none, none, false⟩
     let x := xfer (words 1 2 0 0) [r]
     let d := ring (some x)
     d.queueOfEngine 31 = some 0 ∧ (d.queue 0).xfer = some x ∧ x.flushing = false ∧
       (x.reads.find? fun r => r.entry == 255 && r.data.isNone && !d.readWaits r) = some r ∧ r.port = some 0 ∧ r.ctx = none ∧
       [(1 : Byte), 2].length = r.len ∧ (ring none).queueOfEngine 31 = none) ∧
    (let r : EngRead := ⟨0, none, false, 0, 64, none, none, false⟩
     let x := xfer (words (1 + 2 * 2 ^ 16) 64 0 0) [r]
     let d := pool (ring (some x))
     let y := { region with tenant := 5 }
     let acc : PoolAcc := { desc := 0, tenant := some 5, key := none, host := none, device := true, addr := 0, len := 64, op := .read }
     let e := { d with tarn := { d.tarn with descs := [(0, y)], own := [(0, { owner := 0, owned := true, tenant := 5, clean := false })] } }
     (x.reads.find? fun r => r.entry == 0 && r.data.isNone && !d.readWaits r) = some r ∧ r.port = none ∧ d.queueTenant 0 = 5 ∧
       (d.poolCheck acc).isSome = true ∧ e.poolCheck acc = none ∧ y.shared = false ∧ linesOf 0 64 = [0] ∧ e.tracked 0 = false ∧ e.linePoison 0 = false ∧
       e.poolCheck { acc with op := .write } = none) ∧
    (let l : LateRead := ⟨31 * 256 + 255, none, some 0⟩
     let d := { up with trv := { up.trv with late := [l] } }
     (d.trv.late.find? fun l => l.key == 31 * 256 + 255) = some l ∧ d.queueOfEngine 31 = none ∧ ∀ l ∈ up.trv.late, l.key ≠ 0) := by decide

theorem wit_TraverseTransfers_write :
    (let cmp (b : Byte) := xfer (words 3 2 0 0) [⟨0, some 0, false, 0, 2, some [1, 2], none, false⟩, ⟨1, some 0, true, 0, 2, some [1, b], none, false⟩]
     (∀ b ∈ [2, 3], let x := cmp b
       let d := ring (some x)
       d.coreUp = true ∧ (d.queue 0).st = 1 ∧ (d.queue 0).xfer = some x ∧ x.status = none ∧ (∀ r ∈ x.reads, r.data ≠ none) ∧ d.vfRuns 0 = true ∧
         x.op = 3 ∧ x.len ≤ x.done + min (x.len - x.done) (4096 - (x.dst + x.done) % 4096) ∧ x.flush = false)) ∧
    (let x := xfer (words 2 2 0xAB 0xFFF)
     let z := xfer (words 2 1 0xAB 0xFFF)
     let t := xfer (words (2 + 2 * 2 ^ 18) 64 0xAB 0)
     let d := ring (some z)
     x.dstSpace = 0 ∧ min (x.len - x.done) (4096 - (x.dst + x.done) % 4096) = 1 ∧ z.dstSpace = 0 ∧
       z.len ≤ z.done + min (z.len - z.done) (4096 - (z.dst + z.done) % 4096) ∧ d.theox 0 = false ∧ 128 ≤ SMap.get 128 d.host.mps 0 ∧
       d.portDead 0 = false ∧ t.dstSpace = 2 ∧ t.dstDesc = 0) ∧
    (∀ st ∈ [0, 8, 7, 255], let x := { xfer (words 0x30 0 0 0) with status := some st }
      (ring (some x)).queue 0 = { enable := true, st := 1, tail := 15, ctx := some 0, xfer := some x, descs := [0] } ∧ x.flushing = false ∧
        st < 256 ∧ x.record = true ∧ x.irq = true ∧ (ring (some x)).frozen 0 = false ∧ ((ring (some x)).fn 128).bme = true) := by decide

/-! ### Theox -/

/-- Port 120 a Theox port in a state of R223. -/
def thx (st : Nat) (t : ThxSt := {}) (d : Dev := up) : Dev :=
  let d := (d.setOn PORT.THX_CTL.THEOX 120 true).setOn PORT.THX_CTL.ENABLE 120 true
  (d.wr PORT.THX_STATUS.STATE 120 st).setThx 120 t

/-- A flit with its frame header, the word at byte 224 and the link-control bytes. -/
def flit (head h lc : Nat) (frames : List Frame := []) (good : Bool := true) : Flit :=
  ⟨natBytes 2 head ++ List.replicate 222 0 ++ natBytes 12 h ++ natBytes 6 lc ++ List.replicate 14 0, good, [], frames⟩

theorem wit_TheoxLinksTrainFlitsSpares_states : (∀ st ∈ [0, 1, 2, 3, 4, 5, 6, 7], (thx st).coreUp = true ∧ (thx st).theox 120 = true ∧
      (thx st).rd PORT.THX_STATUS.STATE 120 = st ∧ (thx st).on PORT.THX_CTL.ENABLE 120 = true) ∧
    up.on PORT.THX_CTL.ENABLE 120 = false ∧ up.theox 120 = false ∧ (0x0000000E : W32).toNat.testBit 3 = true ∧ (0x8 : W32).toNat.testBit 16 = false ∧
    4 ≤ (4 : Fin 17).val ∧
    (let b : List Byte := [0, 0, 2, 0, 0, 1, 127]
     let e : List Byte := [0, 0, 0, 0, 0, 0, 0]
     let d := thx 3
     fieldAt b 4 1 = d.rd FABRIC.ID.FABRIC ∧ fieldAt b 5 1 ≠ d.rd FABRIC.ID.DEV ∧ (fieldAt b 2 1).testBit 1 = true ∧
       fieldAt e 5 1 = d.rd FABRIC.ID.DEV ∧ (3 : Fin 16).val % 4 ≠ 0 ∧ 0 < 2 ^ d.maxWidth 120 ∧
       (d.setOn PORT.THX_CTL.RATE128 120 true).on PORT.THX_CTL.RATE128 120 = true) ∧
    ((thx 6 { spared := true }).thx 120).spared = true ∧ (thx 6).on PORT.THX_STATUS.SPARE_USED 120 = false ∧
    ((thx 6).setOn PORT.THX_STATUS.SPARE_USED 120 true).on PORT.THX_STATUS.SPARE_USED 120 = true := by decide

/-- Flits: not good; control flits plain, with NAK, with a spare under way; payload flits in and out of order, empty, stomped, with one frame of
the largest length, of a reserved KIND; the replays of R235 at their bounds. -/
theorem wit_TheoxLinksTrainFlitsSpares_flits :
    (let lc (x : Flit) := fieldAt x.bytes 236 6
     let h (x : Flit) := fieldAt x.bytes 224 8
     lc (flit 0 0 0) % 4096 = 0 ∧ lc (flit 0 0 4095) % 4096 = 4095 ∧ lc (flit 0 0 (2 ^ 25)) / 2 ^ 25 % 8 = 1 ∧
       lc (flit 0 0 (2 ^ 25 + 2 ^ 24)) / 2 ^ 25 % 8 = 1 ∧ (lc (flit 0 0 (2 ^ 25 + 2 ^ 24))).testBit 24 = true ∧
       lc (flit 0 0 (3 * 2 ^ 25)) / 2 ^ 25 % 8 = 3 ∧ (flit 0 0 0).corrected = [] ∧ (flit 0 0 0 [] false).good = false ∧
       (h (flit 0 4 0)).testBit 0 = false ∧ (h (flit 0 4 0)).testBit 1 = false ∧ (h (flit 0 4 0)).testBit 2 = true ∧
       (∀ k ∈ [1, 4, 5, 7], let x := flit (k + 222 * 8) 1 0 [frame 0 .nonPosted]
         (h x).testBit 0 = true ∧ (h x).testBit 1 = false ∧ fieldAt x.bytes 0 2 % 8 = k ∧ fieldAt x.bytes 0 2 / 8 = 222 ∧
           224 < (222 + 3) / 2 * 2 + 2 ∧ x.frames = [frame 0 .nonPosted])) ∧
    ((thx 5).thx 120).rx = 0 ∧ ((thx 5).thx 120).sparing = 0 ∧ ((thx 5).thx 120).rest = 0 ∧ ((thx 5 { rest := 1 }).thx 120).rest = 1 ∧
    ((thx 5 { sparing := 15 }).thx 120).sparing = 14 + 1 := by decide

theorem wit_TheoxLinksTrainFlitsSpares_sparing :
    (let recent (d : Dev) := ((d.thx 120).replays.filter fun r => decide (d.timeBase - r ≤ 250000)).length
     recent (thx 5) < 64 ∧ ((thx 5).thx 120).naks < 3 ∧ ((thx 5 { nakSeq := 1, naks := 3 }).thx 120).nakSeq = (0 + 1) % 4096 ∧
       3 ≤ ((thx 5 { nakSeq := 1, naks := 3 }).thx 120).naks ∧ 64 ≤ recent (thx 5 { replays := List.replicate 64 0 })) ∧
    (let d := thx 5 { spared := true }
     (d.thx 120).spared = true ∧ d.on PORT.THX_STATUS.SPARE_USED 120 = false ∧ (d.thx 120).sparing = 0 ∧ (14 : Fin 16).val < 15) ∧
    ((thx 5 { driving := 15 }).thx 120).driving = (14 : Fin 16).val + 1 := by decide

/-! ### Fabric, Col, time -/

/-- A Col message's header: type, flags, source, destination, payload. -/
def msg (type flags src dst : Nat) (pl : List Byte) : List Byte :=
  natBytes 1 type ++ natBytes 1 flags ++ natBytes 2 pl.length ++ natBytes 1 src ++ natBytes 1 dst ++ List.replicate 10 0 ++ pl

theorem wit_FabricColAndTime_routes :
    (let d := (thx 5)
     let moved := bits (0x00000001 : W32).toNat 0 8 ≠ d.rd FABRIC.ID.DEV
     moved ∧ (d.on PORT.THX_CTL.THEOX 120 = true ∧ d.rd PORT.THX_STATUS.STATE 120 = 5) ∧ bits (0 : W32).toNat 0 8 = d.rd FABRIC.ID.DEV ∧
       bits (0 : W32).toNat 8 8 = d.rd FABRIC.ID.FABRIC) ∧
    (∀ n ∈ [0x80000000, 0xFFFFFFFF], (BitVec.ofNat 32 n).toNat.testBit 31 = true) ∧ (0x7FFFFFFF : W32).toNat.testBit 31 = false ∧
    (let w := max 1 (up.rd FABRIC.ROUTE_CTL.DRAIN_WAIT) * 250
     let d := { up with timeBase := 1 + w, fab := { holds := [(255, 2)] } }
     SMap.get 0 d.fab.holds 255 ≠ 0 ∧ w ≤ d.timeBase - (SMap.get 0 d.fab.holds 255 - 1) ∧ d.oldSegments 255 = false ∧ SMap.get 0 d.fab.holds 0 = 0) ∧
    (∀ n ∈ [0, 1], let x : PdKey := ⟨255, 127, 511, 0, n, 0, 0, 1, 0⟩
      let d := { up with timeBase := 2500, fab := { pd := [x] } }
      (d.fab.pd.find? fun x => x.same 255 127 511) = some x ∧ 2500 ≤ d.timeBase - x.sentAt ∧ ¬ (2499 : Nat) - 0 ≥ 2500 ∧
        (d.fab.pd.find? fun x => x.same 0 127 511) = none ∧ d.routeTo 255 = false ∧ (d.setOn FABRIC.ROUTE.VALID 255 true).routeTo 255 = true) := by decide

/-- Messages of each type that its rules name, with room in the receive ring and without; a ring frame for this member, one that goes on, one of
this member's own, with its hops spent, one with a bad CRC. -/
theorem wit_FabricColAndTime_messages :
    (∀ t ∈ [0, 1, 2, 3, 4, 5, 6, 8, 9, 10, 11, 127, 128, 255], msgType (msg t 0 1 0 []) = t ∧ 8 ≤ (msg t 0 1 0 []).length ∧ (msg t 0 1 0 []).length ≤ 256) ∧
    (let d := up.wr COL.RX_STATUS.HEAD 0 1
     (d.rd COL.RX_STATUS.TAIL + 1) % 16 = d.rd COL.RX_STATUS.HEAD % 16 ∧ (up.rd COL.RX_STATUS.TAIL + 1) % 16 ≠ up.rd COL.RX_STATUS.HEAD % 16 ∧
       max 4 (d.rd COL.RX_CTL.SIZE) = 4) ∧
    (let m := msg 9 0 3 0 (natBytes 2 7 ++ natBytes 2 8191)
     msgSrc m = 3 ∧ fieldAt (msgPayload m) 0 2 = 7 ∧ fieldAt (msgPayload m) 2 2 = 8191) ∧
    (let d := (up.wr COL.LINK_STATUS.STATE 0 2).wr COL.LINK_STATUS.STATE 1 2
     d.rd COL.LINK_STATUS.STATE 0 = 2 ∧ d.rd COL.LINK_STATUS.STATE 1 = 2 ∧ up.rd COL.LINK_STATUS.STATE 0 ≠ 2) ∧
    (∀ x ∈ [(0, 1, 0), (1, 1, 0), (1, 1, 2), (1, 0, 0), (31, 1, 0)], let f := ringFrame 0 x.1 (msg 6 0 x.2.1 x.2.2 [])
      let body := (f.drop 1).take (f.length - 5)
      fieldAt f 0 1 = 0xC5 ∧ 22 ≤ f.length ∧ ringCrc body = fieldAt f (f.length - 4) 4 ∧ fieldAt f 1 1 / 2 = x.1 ∧ msgSrc (body.drop 1) = x.2.1 ∧
        msgDst (body.drop 1) = x.2.2 ∧ msgBySerial (body.drop 1) = false ∧ msgBcast (body.drop 1) = false) ∧
    msgBcast (msg 6 4 1 0 []) = true ∧ ¬ 22 ≤ (List.replicate 21 (0 : Byte)).length := by decide

/-- A Spur queue that sends by each route, an engine read's destination found by a notice; time: a source on Col, a slave, JOIN. -/
theorem wit_FabricColAndTime_time :
    (let d := (up.wr COL.LINK_STATUS.STATE 0 2).setOn FABRIC.TIME_CTL.ENABLE 0 true
     d.on FABRIC.TIME_CTL.ENABLE = true ∧ d.on FABRIC.TIME_CTL.MASTER = false ∧ d.rd FABRIC.TIME_CTL.SOURCE = 0 ∧
       (d.wr FABRIC.TIME_CTL.SOURCE 0 1).rd FABRIC.TIME_CTL.SOURCE ≠ 0 ∧ up.on FABRIC.TIME_CTL.ENABLE = false ∧ d.fab.stepDue = false ∧
       ({ d with fab := { stepDue := true } } : Dev).fab.stepDue = true ∧ (1000000 : Int).natAbs ≤ 1000000 ∧ 1000000 < (1000001 : Int).natAbs) ∧
    (let j := up.setOn COL.CTL.JOIN 0 true
     j.on COL.CTL.JOIN = true ∧ up.on COL.CTL.JOIN = false ∧ (∀ k ∈ [0, 1], ∀ v ∈ [1, 2, 3], (j.wr COL.LINK_STATUS.STATE k v).rd COL.LINK_STATUS.STATE k = v)) ∧
    (∀ r ∈ [0, 1, 2, 3, 4], msgRoute ([0, 0, 0, 0, 0, 0, 0] ++ natBytes 1 r) = r) ∧ (0 + 1) % 2 ^ min 8 (max 4 0) = 1 ∧
    (let x := xfer (words 2 64 0xAB 0x1000)
     let d := ring (some x)
     d.xferAt 0 0x1000 = some 0 ∧ d.xferAt 0 0x103F = some 0 ∧ d.xferAt 0 0x1040 = none ∧ (d.vfRid 0).isSome = true ∧ d.vfOfRid 0xFFFFFF = none) := by decide

/-! ### Containment -/

/-- A context of tenant 0 whose request left through port 8. -/
def ctx (user : CtxUser) (q : Bool) (egress : Nat := 8) (dev : Nat := 0) : CtxEnt :=
  ⟨user, 0, 0, egress, 3, 7, 9, dev, 0, true, none, 64, q, false⟩
def ctxAt (e : CtxEnt) (d : Dev := port8 (port0 up)) : Dev := { d with trv := { d.trv with ctx := [(16383, some e)] } }

theorem wit_ContainmentFreezesTimesOutReleases :
    up.coreUp = true ∧ up.frozen 127 = true ∧ (port0 up).frozen 0 = false ∧ up.tenFrozen 511 = false ∧
    (up.setOn CTN.TEN_STATUS.FROZEN 511 true).tenFrozen 511 = true ∧
    (let x : Pkt := { id := 1, port := 0, frame := rdFrame, phase := .ctxWait }
     let d := sad [x]
     d.pkt? 1 = some x ∧ d.rd CTX.TEN_USE.USED 0 < d.rd CTX.TEN_CAP.CAP 0 ∧
       (d.wr CTX.TEN_USE.USED 0 8).rd CTX.TEN_CAP.CAP 0 ≤ (d.wr CTX.TEN_USE.USED 0 8).rd CTX.TEN_USE.USED 0 ∧
       (∀ b ∈ [true, false], ((d.wr CTX.TEN_USE.USED 0 8).setOn CTN.TEN_CTL.CTX_TRIG 0 b).on CTN.TEN_CTL.CTX_TRIG 0 = b) ∧
       (sad [running rdFrame]).pkt? 1 = some (running rdFrame) ∧ (running rdFrame).phase ≠ .ctxWait ∧ up.pkt? 1 = none) ∧
    (∀ u ∈ [CtxUser.remap, .tunnel], ∀ e ∈ [8, 127], ∀ dev ∈ [0, 255],
      (ctxAt (ctx u false e dev)).ctx? 16383 = some (ctx u false e dev) ∧ (ctx u false e dev).quarantined = false ∧ u ≠ .queue ∧ u ≠ .engine ∧ e < 128) ∧
    (ctxAt (ctx .remap true)).ctx? 16383 = some (ctx .remap true) ∧ up.ctx? 16383 = none := by decide

theorem wit_ContainmentFreezesTimesOutReleases_reads :
    (let r : EngRead := ⟨255, some 0, false, 0, 2, none, none, false⟩
     let x := xfer (words 1 2 0 0) [r]
     let d := ring (some x)
     d.queueOfEngine 31 = some 0 ∧ (d.queue 0).xfer = some x ∧ (x.reads.find? fun r => r.entry == 255 && r.data.isNone && !d.readWaits r && r.port.isSome) = some r ∧
       (∀ b ∈ [true, false], (d.setOn PORT.CTN_CTL.CTO_TRIG 0 b).on PORT.CTN_CTL.CTO_TRIG 0 = b)) ∧
    (let l : LateRead := ⟨31 * 256 + 255, some 0, some 0⟩
     let d := { up with trv := { up.trv with late := [l] } }
     (d.trv.late.find? fun l => l.key == 31 * 256 + 255) = some l) := by decide

/-- Each kind of domain at the last index it has and the first it has not; frozen and ready, frozen only, not frozen. -/
theorem wit_ContainmentFreezesTimesOutReleases_release :
    (let d := ((port8 up).setOn PORT.CTN_STATUS.FROZEN 8 true).setOn SBIN.STATUS.LEVEL 64 true
     let e := { d with ctn := { trained := [(8, true)] } }
     e.frozen 8 = true ∧ SMap.get false e.ctn.trained 8 = true ∧ e.linkUp 8 = true ∧ e.portTrig 8 = false ∧ e.dpcClear 8 = true ∧
       SMap.get false d.ctn.trained 8 = false) ∧
    (let d := { up.setOn CTN.TILE_STATUS.FROZEN 15 true with ctn := { tileReset := [(15, 3)] }, bist := { last := [(15, 1)] } }
     d.on CTN.TILE_STATUS.FROZEN 15 = true ∧ d.tileRst 15 = 3 ∧ d.testPassed 0 15 = true ∧ up.on CTN.TILE_STATUS.FROZEN 15 = false ∧ up.tileRst 15 ≠ 3) ∧
    (let d := (up.wr TARN.EVAC_STATUS.STATE 0 2).wr TARN.EVAC_STATUS.PC 0 255
     (d.setPcFrozen 255 true).pcFrozen 255 = true ∧ d.pcFrozen 255 = false ∧ d.rd TARN.EVAC_STATUS.STATE = 2 ∧ d.rd TARN.EVAC_STATUS.PC = 255 ∧
       up.rd TARN.EVAC_STATUS.STATE ≠ 2) ∧
    ¬ 128 ≤ 127 ∧ ¬ 16 ≤ 15 ∧ ¬ 256 ≤ 255 ∧ (511 : Fin 512).val ≥ 256 := by decide

/-! ### Ports -/

theorem wit_PortsConfiguredLinksUpAndDown_config :
    (up.rd TILE.BIFUR.MODE 0 = 0 ∧ (∀ i, i < 8 → up.on PORT.CFG.ENABLE (8 * 15 + i) = false ∧ up.frozen (8 * 15 + i) = true) ∧
       bits (3 : W32).toNat 0 2 ≠ up.rd TILE.BIFUR.MODE 15 ∧ bits (4 : W32).toNat 0 2 = up.rd TILE.BIFUR.MODE 15 ∧ (port0 up).on PORT.CFG.ENABLE 0 = true) ∧
    (let d := (List.range 64).foldl (fun d q => d.wr PORT.CFG.ROLE q 1) up
     ((List.range 128).filter fun q => q != 127 && d.rd PORT.CFG.ROLE q == 1).length = 64 ∧ d.rd PORT.CFG.ROLE 127 ≠ 1 ∧ bits (1 : W32).toNat 0 2 = 1 ∧
       ((List.range 128).filter fun q => q != 63 && d.rd PORT.CFG.ROLE q == 1).length = 63) ∧
    (let d := (up.setOn PORT.CFG.SLOT_V 0 true).wr PORT.CFG.SLOT 0 31
     (0x3F00 : W32).toNat.testBit 13 = true ∧ d.on PORT.CFG.SLOT_V 0 = true ∧ d.rd PORT.CFG.SLOT 0 = bits (0x3F00 : W32).toNat 8 5) ∧
    (port8 up).on PORT.CFG.ENABLE 8 = true ∧ (port8 up).on PORT.THX_CTL.THEOX 8 = false ∧ (port8 up).on PORT.LINK_STATUS.DL_ACTIVE 8 = true ∧
    (up.wr PORT.CFG.ROLE 8 2).downstream 8 = true ∧ (thx 5).linkUp 120 = true ∧ (thx 4).linkUp 120 = false ∧ (port0 up).upstream 0 = true := by decide

/-- Links in each state a row starts from; DLLPs of each kind; a replay buffer with a TLP. -/
theorem wit_PortsConfiguredLinksUpAndDown_links :
    (let d := port8 up
     let t (st : Nat) := d.wr PORT.LINK_STATUS.STATE 8 st
     d.coreUp = true ∧ d.slotUsed 8 = true ∧ d.on PORT.THX_CTL.THEOX 8 = false ∧ d.mayTrain 8 = true ∧
       (∀ st ∈ [0, 1, 4, 8, 9], (t st).rd PORT.LINK_STATUS.STATE 8 = st) ∧
       (t 1).mayTrain 8 = true ∧ d.rd PORT.LINK_STATUS.STATE 8 = 4 ∧ d.downstream 8 = true ∧ up.mayTrain 8 = false ∧
       (let a := (t 1).setOn PORT.LINK_STATUS.DL_ACTIVE 8 false
        a.mayTrain 8 = true ∧ a.on PORT.LINK_STATUS.DL_ACTIVE 8 = false) ∧
       (let l := ((d.setOn PORT.CFG.L0P_EN 8 true).setOn PORT.LINK_STATUS.FLIT 8 true).wr PORT.LINK_STATUS.WIDTH 8 4
        l.on PORT.CFG.L0P_EN 8 = true ∧ l.on PORT.LINK_STATUS.FLIT 8 = true ∧ l.rd PORT.LINK_STATUS.WIDTH 8 = 4) ∧
       (∀ n ∈ [0, 3], let e := d.setThx 8 { flight := [⟨1, 0, 0⟩], nakSeq := 1, naks := n }
         (e.thx 8).flight = [⟨1, 0, 0⟩] ∧ (e.thx 8).nakSeq = (0 + 1) % 4096 ∧ (e.thx 8).naks = n) ∧ (d.thx 8).flight = []) ∧
    Dllp.pmL1 ≠ .pmL2 ∧ (4095 + 1) % 4096 = 0 := by decide

/-! ### Presented functions -/

/-- A configuration request of the USP's host: its type code, its routing ID, its offset; the device with it, whose USP has bus 1 below, vDSP 0
bus 2, vDSP 1 bus 3, and a function of port 8 presented behind vDSP 1. -/
def cfgFrame (code id off : Nat) : Frame :=
  { frame 3 .nonPosted with h1 := BitVec.ofNat 64 (code * 2 ^ 36), h2 := 15 * 2 ^ 24, h4 := BitVec.ofNat 64 id, h5 := BitVec.ofNat 64 off
                            data := if code < 64 then [] else natBytes 4 0x030201 }
def cfgPkt (code id off : Nat) (ph : Phase := .cfg) : Pkt := { id := 1, port := 0, frame := cfgFrame code id off, phase := ph }
def hostDev (x : Pkt) : Dev :=
  let d := port8 (port0 (vfs 12))
  let d := ((d.setCfg 0 fnUsp 0x18 0x050100).setCfg 0 (fnVdsp 0) 0x18 0x020200).setCfg 0 (fnVdsp 1) 0x18 0x030300
  let d := (d.setOn VSW.VDSP_MAP.VALID 1 true).wr VSW.VDSP_MAP.PORT 1 8
  { d with sad := { d.sad with pkts := [x] }
           host := { d.host with idmap := [(4095, { dsId := 7, dsPort := 8, valid := true, vdsp := 1, hfn := 0 })] } }

theorem wit_PresentedFunctionsAndControls_config :
    (∀ x ∈ [(4, 0, CfgAt.fn .usp), (4, 1, .ur), (5, 0x100, .fn (.vdsp 0)), (5, 0x1F8, .fn (.vdsp 31)), (5, 0x200, .fn .pf), (5, 0x201, .fn (.vf 0)),
        (5, 0x400, .ur)], let k := cfgPkt x.1 x.2.1 0
      (hostDev k).coreUp = true ∧ (hostDev k).pkt? 1 = some k ∧ k.frame.fabric = false ∧ k.frame.isCfg = true ∧ (hostDev k).cfgTarget 0 k.frame = x.2.2 ∧
        k.frame.isWrite = false ∧ k.frame.h5.toNat % 4096 / 4 * 4 = 0) ∧
    (let k := cfgPkt 5 0x200 0
     ((hostDev k).setFn 0 { flr := true }).cfgTarget 0 k.frame = .crs) ∧
    (let k := cfgPkt 5 0x300 0x27
     (hostDev k).cfgTarget 0 k.frame = .shared 1 { dsId := 7, dsPort := 8, valid := true, vdsp := 1, hfn := 0 } ∧
       shadowed (k.frame.h5.toNat % 4096 / 4 * 4) = true) ∧
    (∀ ph ∈ [Phase.cfg, .cfgHold], let k := cfgPkt 0x44 0 0x18 ph
     (hostDev k).pkt? 1 = some k ∧ k.phase = ph ∧ k.frame.isCfg = true ∧ k.frame.isWrite = true ∧ k.frame.h5.toNat % 4096 / 4 * 4 = 0x18 ∧
       bits k.frame.h2.toNat 24 4 = 15 ∧ FnKind.usp.bridge = true ∧ (hostDev k).cfgTarget 0 k.frame = .fn .usp) ∧ up.pkt? 1 = none := by decide

def plain : Dev := hostDev (cfgPkt 4 0 0)
def transp : Dev := plain.setOn PORT.CFG.TRANSPARENT 8 true

/-- The ID map staged with another entry's keys, with its own, and with none's; a source of INTx that is new, that is asserted alone and beside
another on its wire. -/
theorem wit_PresentedFunctionsAndControls_map :
    plain.host.idCmd = none ∧ { plain with host := { plain.host with idCmd := some ⟨0, false⟩ } }.host.idCmd = some ⟨0, false⟩ ∧
    (let d := ((plain.wr IDMAP.ENTRY_LO.DS_ID 0 7).wr IDMAP.ENTRY_LO.DS_PORT 0 8).setOn IDMAP.ENTRY_LO.VALID 0 true
     d.idStaged.valid = true ∧ d.idStaged.dsDev = 0 ∧ d.idStaged.dsPort = 8 ∧ d.idStaged.dsId = 7 ∧ plain.idStaged.valid = false) ∧
    (let x : IntxSrc := ⟨0, 0, 8, 65536 + 4095⟩
     plain.intxSource 0 8 7 3 = some x ∧ plain.intxSource 0 8 8 3 = none ∧ x ∉ plain.host.intx ∧ plain.frozen 0 = false ∧
       (let one := { plain with host := { plain.host with intx := [x] } }
        let two := { plain with host := { plain.host with intx := [x, { x with src := 9 }] } }
        one.intxSource 0 8 7 3 = some x ∧ two.intxSource 0 8 7 3 = some x ∧ x ∈ one.host.intx ∧ x ∈ two.host.intx ∧
          (∀ y ∈ one.host.intx, y = x) ∧ { x with src := 9 } ≠ x)) := by decide

theorem wit_PresentedFunctionsAndControls_vdsp :
    transp.ownPort 1 = some 8 ∧ plain.ownPort 1 = none ∧ transp.rd PORT.LINK_STATUS.STATE 8 = 4 ∧
    (let d := (transp.setOn PORT.CFG.SLOT_V 8 true).wr PORT.CFG.SLOT 8 31
     d.vdspSlot 1 = some (8, 31) ∧ plain.vdspSlot 1 = none ∧ d.on SLOT.PWR_CTL.ON 31 = false ∧
       (let e := ((d.wr SLOT.PWR_LIMIT.ILIM 31 1).wr SLOT.PWR_LIMIT.RSENSE 31 1).wr SLOT.PWR_FOLD.LIMIT 31 1
        e.vdspSlot 1 = some (8, 31) ∧ e.rd SLOT.PWR_LIMIT.ILIM 31 ≠ 0 ∧ e.rd SLOT.PWR_LIMIT.RSENSE 31 ≠ 0 ∧ e.rd SLOT.PWR_FOLD.LIMIT 31 ≠ 0)) ∧
    (let d := plain.setVdsp 1 { dpcEnable := true }
     (d.vdsp 1).dpcEnable = true ∧ d.on VSW.VDSP_MAP.VALID 1 = true ∧ d.rd VSW.VDSP_MAP.DEV 1 = d.rd FABRIC.ID.DEV) := by decide

theorem wit_PresentedFunctionsAndControls_device :
    plain.slotUsed 0 = true ∧ plain.on PORT.THX_CTL.THEOX 0 = false ∧ plain.downstream 8 = true ∧ plain.on PORT.LINK_STATUS.DL_ACTIVE 8 = true ∧
    (let d := plain.setCfg 0 fnUsp 0x328 1
     d.upstream 0 = true ∧ (d.cfg 0 fnUsp 0x328).testBit 0 = true) ∧
    (let d := plain.setOn PORT.LINK_STATUS.CXL_ACTIVE 0 true
     d.upstream 0 = true ∧ d.on PORT.LINK_STATUS.CXL_ACTIVE 0 = true ∧ d.dpaSpace 0 = 2097152 ∧ d.dpaBase 0 7 0 + 2097152 ≤ d.dpaSpace 0 ∧
       d.dpaSpace 0 < d.dpaBase 0 7 1 + 2097152 ∧ (∀ q, q < 8 → (d.hdm 0 q).committed = false) ∧
       (let e := d.setHdm 0 0 ⟨0, 256, 0, true, false⟩
        (e.hdm 0 0).committed = true ∧ 255 < (e.hdm 0 0).base + (e.hdm 0 0).size)) ∧ 0x4300 ∈ cxlOps ∧ 0xFFFF ∉ cxlOps := by decide

/-! ### Lanes -/

/-- Lane 128 (lane 0 of port 64's slot) on a link in L0; Col lane 257 with its link up. -/
def laneUp : Dev := ((up.wr PORT.LINK_STATUS.STATE 64 4).setOn COL.CTL.JOIN 0 true).wr COL.LINK_STATUS.STATE 1 2

theorem wit_LanesEqualiseCheckScanAndTest_lanes :
    up.coreUp = true ∧
    (let t := Taps.ofWords (up.lane 257).staged 0
     let u := Taps.ofWords (up.lane 257).staged 1
     t.cm3.natAbs + t.cm2.natAbs + t.cm1.natAbs + t.c0.natAbs + t.cp1.natAbs + t.cp2.natAbs = 64 ∧ 24 ≤ t.c0 ∧
       u.cm3.natAbs + u.cm2.natAbs + u.cm1.natAbs + u.c0.natAbs + u.cp1.natAbs + u.cp2.natAbs ≠ 64) ∧
    (up.setOn LANE.CFG.TX_OVERRIDE 257 true).on LANE.CFG.TX_OVERRIDE 257 = true ∧ up.on LANE.CFG.TX_OVERRIDE 257 = false ∧
    (∀ n ∈ [128, 257], laneUp.laneUp n = true ∧ laneUp.on LANE.CFG.ADAPT_HOLD n = false ∧ laneUp.on LANE.ADAPT_STATUS.FROZEN n = false ∧
      laneUp.rd LANE.MARGIN_CTL.PERIOD n ≠ 0 ∧ (laneUp.lane n).margins = false) ∧ up.laneUp 128 = false ∧
    (∀ b ∈ [true, false], let d := up.setLane 0 { resumeDue := b, resuming := b, periodic := !b }
      (d.lane 0).resumeDue = b ∧ ((d.lane 0).resuming = true ∨ (d.lane 0).periodic = true)) ∧
    ((up.lane 0).resuming = false ∧ (up.lane 0).periodic = false) := by decide

/-- A check's end at the bound of EYE_MIN; a lane that can be spared, one that cannot; a recovery that may be asked for, one too soon. -/
theorem wit_LanesEqualiseCheckScanAndTest_checks :
    (let d := laneUp
     d.lanePam4 128 = false ∧ d.rd LANE.MARGIN_CTL.EYE_MIN_NRZ 128 ≤ 255 ∧ 0 < d.rd LANE.MARGIN_CTL.EYE_MIN_NRZ 128 ∧
       d.on LANE.MARGIN_CTL.RERUN_EN 128 = true ∧ (d.setOn LANE.MARGIN_CTL.RERUN_EN 128 false).on LANE.MARGIN_CTL.RERUN_EN 128 = false ∧
       SMap.get 0 d.phy.reran 64 = 0 ∧ d.laneHome 128 = 64 ∧ d.on PORT.THX_CTL.THEOX 64 = false ∧
       (let e := { d with timeBase := 24999999, phy := { d.phy with reran := [(64, 1)] } }
        SMap.get 0 e.phy.reran 64 ≠ 0 ∧ e.timeBase < SMap.get 0 e.phy.reran 64 - 1 + 25000000)) ∧
    (let d := thx 5 { spared := true }
     d.laneHome 240 = 120 ∧ d.on PORT.THX_CTL.THEOX 120 = true ∧ (d.thx 120).spared = true ∧ d.on PORT.THX_STATUS.SPARE_USED 120 = false ∧
       d.thxState 120 = 5 ∧ (d.thx 120).sparing = 0 ∧ 240 % 16 < 15) := by decide

theorem wit_LanesEqualiseCheckScanAndTest_scans :
    ((0x400000 : W32).toNat.testBit 22 = true ∧ up.on LANE.EYE_CTL.BUSY 257 = false ∧ (up.lane 257).margins = false ∧
       ((up.setLane 257 { marginType := 4 }).lane 257).margins = true ∧ (up.setOn LANE.EYE_CTL.BUSY 257 true).on LANE.EYE_CTL.BUSY 257 = true) ∧
    (let d := (port8 (port0 up)).wr PORT.LINK_STATUS.RATE 0 2
     let d := d.wr PORT.LINK_STATUS.STATE 0 4
     d.on PORT.THX_CTL.THEOX 0 = false ∧ d.upstream 0 = true ∧ 2 ≤ d.rd PORT.LINK_STATUS.RATE 0 ∧ d.linkState 0 = 4 ∧ 15 < 2 ^ d.maxWidth 0) ∧
    ((marginReport 0x88).isSome = true ∧ (marginReport 0x8C).isNone = true) ∧
    (up.on PORT.CFG.ENABLE 64 = false ∧ up.on PORT.THX_CTL.ENABLE 64 = false ∧ (port8 up).on PORT.CFG.ENABLE 8 = true ∧
       (port8 up).configured 8 = true ∧ (port8 up).laneHome 16 = 8) ∧
    (let set (w : Nat) := bits w LANE.CFG.LOOP.lsb LANE.CFG.LOOP.width
     set (3 * 2 ^ LANE.CFG.LOOP.lsb) = 3 ∧ up.rd LANE.CFG.LOOP 257 = 0 ∧ laneUp.on COL.CTL.JOIN = true) ∧
    (let set (w : Nat) (f : Fld) := bits w f.lsb f.width
     set (3 * 2 ^ LANE.PRBS_CTL.GEN_PAT.lsb) LANE.PRBS_CTL.GEN_PAT = up.rd LANE.PRBS_CTL.GEN_PAT 0 ∧ set (5 * 2 ^ LANE.PRBS_CTL.GEN_PAT.lsb) LANE.PRBS_CTL.GEN_PAT = 5 ∧
       6 ≤ set (6 * 2 ^ LANE.PRBS_CTL.CHK_PAT.lsb) LANE.PRBS_CTL.CHK_PAT ∧ up.lanePam4 0 = false) ∧
    (let d := (((up.setOn LANE.PRBS_CTL.LOCK 0 true).wr LANE.CFG.LOOP 0 2).setOn LANE.PRBS_CTL.GEN_EN 0 true).setOn LANE.PRBS_CTL.CHK_EN 0 true
     d.on LANE.PRBS_CTL.LOCK 0 = true ∧ d.rd LANE.CFG.LOOP 0 = 2 ∧ d.on LANE.PRBS_CTL.GEN_EN 0 = true ∧ d.on LANE.PRBS_CTL.CHK_EN 0 = true ∧
       up.on LANE.PRBS_CTL.LOCK 0 = false ∧ up.on LANE.PRBS_CTL.GEN_EN 0 = false ∧ up.on LANE.PRBS_CTL.CHK_EN 0 = false) := by decide

/-! ### Counters and the Cairn -/

theorem wit_CountersSnapshotsDumpsAndCairn :
    (let k (n : Nat) : Dev := up.wr CNT.IDX.K 0 n
     (k 1280).rd CNT.IDX.K 0 = 1280 ∧ (k 1279).rd CNT.IDX.K 0 = 1279 ∧ (k 1023).rd CNT.IDX.K 0 = 1023 ∧ 0x01A ∈ eventCodes ∧ 0x160 ∈ eventCodes ∧
       (∀ c ∈ [0, 0x0B, 0x103, 0x3FF], c ∉ eventCodes)) ∧
    (let d := up.setOn CNT.SNAP_STATUS.PENDING 0 true
     d.coreUp = true ∧ d.on CNT.SNAP_STATUS.PENDING = true ∧ up.on CNT.SNAP_STATUS.PENDING = false ∧ d.cnt.dumping = none ∧ d.cnt.bank = 0 ∧
       d.dumpUse.2.1 = false ∧
       (let f := { d with cnt := { dumping := some 1, dumpUse := some (1000, true, false, 1) } }
        f.cnt.dumping = some (1 - f.cnt.bank) ∧ f.dumpUse.2.1 = true ∧ f.dumpFull = false ∧ (f.wr CNT.DUMP_RING.HEAD 0 1).dumpFull = true) ∧
       { d with cnt := { dumpUse := some (1000, true, false, 1) } }.cnt.dumping = none) ∧
    (let bad (d : Dev) (w : Nat) := bits w 20 1 = 1 ∧ bits w 21 1 = 0 ∧ 0x400000 < (d.rd CNT.DUMP_BASE.BASE + 2 ^ max 1 (bits w 22 4)) * 32768
     bad up (0x100000 + 8 * 2 ^ 22) ∧ ¬ bad up (0x100000 + 7 * 2 ^ 22) ∧ bad (up.wr CNT.DUMP_BASE.BASE 0 1) (0x100000 + 7 * 2 ^ 22)) ∧
    (∀ t ∈ [false, true], let d := { up with cnt := { dumping := some 1, dumpUse := some (1000, true, t, 1) } }
      d.cnt.dumping = some 1 ∧ d.dumpUse.2.2.1 = t ∧ (d.poolCheck ⟨0, none, none, none, true, 0, 18496, .write⟩).isSome = true) := by decide

theorem wit_CountersSnapshotsDumpsAndCairn_records :
    (let r : CairnRec := .zero
     let d := { up with cairn := { srcs := [(cairnKey 255 255, { queue := [r] })] } }
     d.vauxUp = true ∧ d.on CAIRN.STATUS.FROZEN = false ∧ (SMap.get ({} : CairnSrc) d.cairn.srcs (cairnKey 255 255)).queue = [r] ∧
       (SMap.get ({} : CairnSrc) d.cairn.srcs (cairnKey 0 0)).queue = [] ∧ (d.setOn CAIRN.STATUS.FROZEN 0 true).on CAIRN.STATUS.FROZEN = true) ∧
    Master.core 0 ≠ .summit ∧ State.reset.dev.vauxUp = false := by decide

theorem wit_RefusedCounterSelection : up.coreUp = true ∧ (up.wr CNT.IDX.K 0 1023).rd CNT.IDX.K 0 < 1024 ∧ 0x100 ≤ (0x100 : W32).toNat % 1024 ∧
    (0 : W32).toNat % 1024 ∉ eventCodes ∧ 1024 ≤ (up.wr CNT.IDX.K 0 1279).rd CNT.IDX.K 0 ∧ (up.wr CNT.IDX.K 0 1279).rd CNT.IDX.K 0 < 1280 ∧
    (0xA : W32).toNat % 1024 ∈ eventCodes := by decide

/-! ### Self-test -/

def waiting (ts : List BTest) (d : Dev) : Dev := { d with bist := { d.bist with waiting := ts } }
def testing (ts : List BTest) (d : Dev) : Dev := { d with bist := { d.bist with running := ts } }

/-- Requests at the bounds of each argument, with and without the precondition, before 8 waiting tests and after 7; tests that fit and that do
not. -/
theorem wit_SelfTestRepairAndReturn_start :
    (∀ x ∈ [(0, 0, 1), (0, 15, 15), (1, 3, 3), (2, 8, 3), (3, 31, 3), (4, 0, 1), (0, 16, 1), (0, 0, 0), (1, 0, 4)],
      let w := 0x20 + (x.1 + x.2.1 * 16 + x.2.2 * 4096) * 2 ^ 32
      Turn 0x20 (asks w) ∧ w / 2 ^ 32 % 16 = x.1 ∧ bits (w / 2 ^ 32) 4 8 = x.2.1 ∧ bits (w / 2 ^ 32) 12 4 = x.2.2) ∧
    (∀ t ∈ (asks 0x20).bist.running ++ (asks 0x20).bist.waiting, t.box ≠ 0) ∧ up.rd PLANE.STATUS.STATE 3 = 0 ∧
    ((up.wr PLANE.STATUS.STATE 3 2).rd PLANE.STATUS.STATE 3 = 2 ∧ ((up.wr SPUR.HANDOVER.FAILED 0 256).rd SPUR.HANDOVER.FAILED).testBit 8 = true ∧
      ((up.wr TRV.ENG_STATUS.FAULTED 0 (2 ^ 31)).rd TRV.ENG_STATUS.FAULTED).testBit 31 = true) ∧
    (waiting (List.replicate 8 ⟨0, 0, 1, 0, 0, 0⟩) up).bist.waiting.length = 8 ∧
    (let t : BTest := ⟨0, 15, 5, 0, 0, 0⟩
     let u : BTest := ⟨1, 0, 1, 1, 0, 0⟩
     let d := waiting [t] (asks 0)
     d.bist.waiting = [] ++ t :: [] ∧ d.summitUp = true ∧ d.coreUp = true ∧ 224 ≤ d.rd BIST.BUDGET.WATTS * 10 ∧
       (let e := testing [⟨0, 0, 1, 2, 0, 0⟩, ⟨0, 1, 1, 3, 0, 0⟩] (waiting [t, u] (asks 0))
        (e.bist.running.filter fun x => x.kind = 0).length = 2 ∧ 224 + 224 + 160 ≤ e.rd BIST.BUDGET.WATTS * 10 ∧ e.bist.waiting = [t] ++ u :: [])) := by decide

theorem wit_SelfTestRepairAndReturn_end :
    (let t : BTest := ⟨0, 15, 15, 0, 0, 0⟩
     let d := testing [t] up
     d.bist.running.find? (fun t => t.kind == 0 && t.index == 15) = some t ∧ up.bist.running.find? (fun t => t.kind == 0 && t.index == 15) = none ∧
       (∀ p : Fin 4, let f : BistFail := ⟨0x1000, 7, 0, p, 0⟩
         [f].filter (fun f => t.mask.testBit f.part) = [f] ∧ d.repaired ⟨0x1000, 7⟩ = false ∧ 0 < d.sparesLeft 0x1000) ∧ d.bist.soft.length < 2048) ∧
    (let t : BTest := ⟨0, 15, 15, 1, 0, 0⟩
     let w := 0x21 + (15 * 16) * 2 ^ 32
     Turn 0x21 (asks w) ∧ w / 2 ^ 32 % 16 = 0 ∧ bits (w / 2 ^ 32) 4 8 = 15 ∧ t.box ≠ 0 ∧ (testing [t] (asks w)).bist.running = [t] ∧
       (waiting [t] (asks w)).bist.waiting = [t] ∧ (asks w).bist.waiting = []) := by decide

theorem wit_SelfTestRepairAndReturn_repair :
    (∀ op ∈ [0x22, 0x23, 0x24], Turn op (asks op)) ∧ up.bist.pend = [] ∧ instOk 0x1000 = true ∧ instOk 0 = false ∧ up.repaired ⟨0x1000, 0⟩ = false ∧
    ({ up with bist := { soft := [⟨0x1000, 0⟩] } } : Dev).repaired ⟨0x1000, 0⟩ = true ∧ up.instIdle 0x1000 = false ∧ 0 < up.sparesLeft 0x1000 ∧
    ({ up with bist := { soft := (List.range 8).map fun i => ⟨0x1000, i + 1⟩ } } : Dev).sparesLeft 0x1000 = 0 ∧
    (let d := (up.setOn CTN.TILE_STATUS.FROZEN 0 true).setTileRst 0 2
     d.instIdle 0x1000 = true) ∧
    (let d := { asks 0 with bist := { pend := [⟨⟨0x1000, 0⟩, some (0, 0)⟩] } }
     d.summitUp = true ∧ (d.bist.pend.any fun q => q.row == ⟨0x1000, 0⟩) = true) ∧ (up.wr BIST.CE_ROW.LIMIT 0 0).rd BIST.CE_ROW.LIMIT = 0 ∧
    (up.wr BIST.CE_ROW.LIMIT 0 1).rd BIST.CE_ROW.LIMIT ≠ 0 ∧
    (∀ x ∈ [(2, 8), (3, 31)], let d := (up.wr SPUR.HANDOVER.FAILED 0 256).wr TRV.ENG_STATUS.FAULTED 0 (2 ^ 31)
      let d := { d with bist := { last := [(2 * 256 + 8, 2), (3 * 256 + 31, 2)] } }
      SMap.get 0 d.bist.last (x.1 * 256 + x.2) = 2 ∧ d.bist.running = [] ∧ d.bist.waiting = [] ∧ d.summit.fw = none) := by decide

/-! ### Memory -/

/-- A state whose memory has its canonical form and holds bytes at both ends of a region of memory. -/
theorem wit_MemoryKeepsCanonicalForm : Memory.wf [] = true ∧ Memory.wf ((up.store 0 8 1).store (tarnBase + 137438953471) 1 255).mem = true ∧
    ((up.store 0 8 1).store (tarnBase + 137438953471) 1 255).mem.length = 2 ∧ Memory.wf [(1, 1), (0, 1)] = false ∧ Memory.wf [(0, 0)] = false := by decide

end Sys2Proof.Tests
end

section
/-! PROOFS. What the machine holds at reset (R6, R19, R89, R412). -/

namespace Sys2Proof.Machine

open Sys2Proof

/-- A register field that nothing has written reads its Reset value (R6). -/
@[simp] theorem State.reset_rd (f : Fld) (i : Nat) : State.reset.dev.rd f i = f.resetAt i := rfl

@[simp] theorem State.reset_byte (a : Nat) : State.reset.dev.byte a = 0 := rfl

/-- Every core starts as the core of R189: held in reset, with every value at zero. -/
@[simp] theorem State.reset_core (c : Nat) : State.reset.dev.core c = {} := rfl

/-- A general register that nothing has written reads zero, as g0 always does (log entry 6). -/
theorem SpurCore.rdG_of_unwritten {k : SpurCore} (h : k.g = []) (n : Nat) : k.rdG n = 0 := by
  simp [SpurCore.rdG, h]

/-- Settles O3: a table of the reset state lists nothing, so every entry reads as its table's default. -/
theorem resetStateFields : Obligations.ResetStateFields := by
  have core (c : Nat) : let k := State.reset.dev.core c
      k.mode = .held ∧ k.pc = 0 ∧ k.flags = {} ∧ k.handler = false ∧ k.rsv = none ∧ ∀ n, k.rdG n = 0 := by
    rw [State.reset_core]
    exact ⟨rfl, rfl, rfl, rfl, rfl, SpurCore.rdG_of_unwritten rfl⟩
  exact ⟨rfl, rfl, State.sound_reset, State.reset_rd, State.reset_byte, core, fun t b _ => SMap.get_nil 0 (t * 2 + b),
    fun k => ⟨SMap.get_nil 0 k, SMap.get_nil _ k⟩, SMap.get_nil _⟩

end Sys2Proof.Machine
end

section
/-! PROOFS. Taking a synchronous exception: what draining the store buffer leaves of the core, and what it writes (R62, R63, R178). -/

namespace Sys2Proof.Machine

open Sys2Proof

/-! ### Draining -/

@[simp] theorem Dev.core_setPoison (d : Dev) (a : Nat) (b : Bool) (c : Nat) : (d.setPoison a b).core c = d.core c := rfl

@[simp] theorem Dev.summit_setPoison (d : Dev) (a : Nat) (b : Bool) : (d.setPoison a b).summit = d.summit := rfl

/-- A core's own store leaves the core alone: only the reservations of the others are lost (R51). -/
theorem Dev.core_breakRsv_self (d : Dev) (c a : Nat) : (d.breakRsv (some c) a).core c = d.core c := by
  refine Dev.each_keeps (·.core c) 9 _ (fun k d => ?_) d
  by_cases h : k = c
  · simp [h, Dev.when]
  · exact Dev.when_keeps (·.core c) _ _ (fun d => Dev.core_updCore_ne d _ (Ne.symm h)) d

theorem Dev.summit_breakRsv (d : Dev) (by_ : Option Nat) (a : Nat) : (d.breakRsv by_ a).summit = d.summit :=
  Dev.each_keeps (·.summit) 9 _ (fun _ d => Dev.when_keeps (·.summit) _ _ (fun d => Dev.updCore_summit d _ _) d) d

/-- What `setPoison`, a Cairn record, the loss of reservations and a store leave alone, performing a store leaves alone. -/
theorem Dev.performStore_keeps {β : Type} (g : Dev → β) (c : Nat) (hs : ∀ d a n v, g (Dev.store d a n v) = g d)
    (hp : ∀ d a b, g (Dev.setPoison d a b) = g d) (hc : ∀ d src inst event x y, g (Dev.cairnPush d src inst event x y) = g d)
    (hb : ∀ d a, g (Dev.breakRsv d (some c) a) = g d) (d : Dev) (e : StoreEnt) : g (d.performStore c e) = g d := by
  unfold Dev.performStore
  dsimp only
  rw [Dev.when_keeps g _ _ (fun d => hb d _), Dev.when_keeps g _ _ (fun d => hc d _ _ _ _ _), Dev.when_keeps g _ _ (fun d => hp d _ _), hs]

theorem Dev.core_performStore (d : Dev) (c : Nat) (e : StoreEnt) : (d.performStore c e).core c = d.core c :=
  Dev.performStore_keeps (·.core c) c (fun d a n v => d.core_store n a v c) (fun d a b => d.core_setPoison a b c)
    (fun d s i v x y => d.core_cairnPush s i v x y c) (fun d a => d.core_breakRsv_self c a) d e

theorem Dev.summit_performStore (d : Dev) (c : Nat) (e : StoreEnt) : (d.performStore c e).summit = d.summit :=
  Dev.performStore_keeps (·.summit) c (fun d a n v => d.store_summit n a v) (fun d a b => d.summit_setPoison a b)
    (fun d s i v x y => d.cairnPush_summit s i v x y) (fun d a => d.summit_breakRsv _ a) d e

/-- The oldest entry leaves the buffer; the rest of the core stays. -/
theorem Dev.core_drainOne (d : Dev) (c : Nat) : (d.drainOne c).core c = { d.core c with sb := (d.core c).sb.tail } := by
  unfold Dev.drainOne
  split
  next h => rw [h, List.tail_nil, ← h]
  next e es h => rw [Dev.core_performStore, Dev.core_updCore_same, h, List.tail_cons]

theorem Dev.summit_drainOne (d : Dev) (c : Nat) : (d.drainOne c).summit = d.summit := by
  unfold Dev.drainOne
  split
  · rfl
  · rw [Dev.summit_performStore, Dev.updCore_summit]

theorem Dev.core_drainN (n : Nat) (d : Dev) (c : Nat) : (d.drainN c n).core c = { d.core c with sb := (d.core c).sb.drop n } := by
  induction n generalizing d with
  | zero => rfl
  | succ n ih => rw [Dev.drainN, ih, Dev.core_drainOne, List.drop_tail]

theorem Dev.summit_drainN (n : Nat) (d : Dev) (c : Nat) : (d.drainN c n).summit = d.summit := by
  induction n generalizing d with
  | zero => rfl
  | succ n ih => rw [Dev.drainN, ih, Dev.summit_drainOne]

@[simp] theorem Dev.core_drainAll (d : Dev) (c : Nat) : (d.drainAll c).core c = { d.core c with sb := [] } := by
  rw [Dev.drainAll, Dev.core_drainN, List.drop_length]

@[simp] theorem Dev.summit_drainAll (d : Dev) (c : Nat) : (d.drainAll c).summit = d.summit := Dev.summit_drainN _ d c

/-! ### The bytes a drain writes depend on the buffer and on memory alone -/

theorem Dev.mem_store_congr (n : Nat) {d e : Dev} (h : d.mem = e.mem) (a v : Nat) : (d.store a n v).mem = (e.store a n v).mem := by
  induction n generalizing d e a v with
  | zero => exact h
  | succ n ih =>
    have hb : (d.setByte a (BitVec.ofNat 8 v)).mem = (e.setByte a (BitVec.ofNat 8 v)).mem := by simp only [Dev.setByte, h]
    exact ih hb (a + 1) (v / 256)

theorem Dev.mem_drainOne_congr {d e : Dev} {c : Nat} (hm : d.mem = e.mem) (hs : (d.core c).sb = (e.core c).sb) :
    (d.drainOne c).mem = (e.drainOne c).mem := by
  unfold Dev.drainOne
  rw [← hs]
  split
  · exact hm
  · rw [Dev.performStore_mem, Dev.performStore_mem]
    refine Dev.mem_store_congr _ ?_ _ _
    rw [Dev.updCore_mem, Dev.updCore_mem, hm]

theorem Dev.mem_drainN_congr (n : Nat) {d e : Dev} {c : Nat} (hm : d.mem = e.mem) (hs : (d.core c).sb = (e.core c).sb) :
    (d.drainN c n).mem = (e.drainN c n).mem := by
  induction n generalizing d e with
  | zero => exact hm
  | succ n ih =>
    refine ih (Dev.mem_drainOne_congr hm hs) ?_
    rw [Dev.core_drainOne, Dev.core_drainOne, hs]

theorem Dev.mem_drainAll_congr {d e : Dev} {c : Nat} (hm : d.mem = e.mem) (hs : (d.core c).sb = (e.core c).sb) :
    (d.drainAll c).mem = (e.drainAll c).mem := by
  rw [Dev.drainAll, Dev.drainAll, ← hs]
  exact Dev.mem_drainN_congr _ hm hs

/-! ### What the body of an instruction sees at a quiet boundary -/

/-- A core whose breakpoint suppression of HRETB is over (R67). -/
def SpurCore.unskipped (k : SpurCore) : SpurCore := { k with bpSkip := false }

/-- The device as the body of an instruction meets it (`Dev.spurInstr_quiet`): the breakpoint suppression is over and the
instruction is counted (R398). -/
def Dev.counted (d : Dev) (c : Nat) : Dev := (d.updCore c SpurCore.unskipped).event 0x140 c

@[simp] theorem Dev.core_counted (d : Dev) (c : Nat) : (d.counted c).core c = (d.core c).unskipped := by
  have h : (d.counted c).spur = (d.updCore c SpurCore.unskipped).spur := Dev.event_spur _ _ _ _ _
  rw [Dev.core_congr (congrArg SpurSt.cores h), Dev.core_updCore_same]

@[simp] theorem Dev.mem_counted (d : Dev) (c : Nat) : (d.counted c).mem = d.mem := Dev.event_mem _ _ _ _ _
@[simp] theorem Dev.timeBase_counted (d : Dev) (c : Nat) : (d.counted c).timeBase = d.timeBase := Dev.event_timeBase _ _ _ _ _
@[simp] theorem Dev.summit_counted (d : Dev) (c : Nat) : (d.counted c).summit = d.summit := Dev.event_summit _ _ _ _ _

/-- An instruction that replaces its core's state and does nothing else: the core takes that state, and nothing else changes but the
counters. -/
theorem Dev.spurInstr_setCore (d : Dev) (c : Nat) {body : Dev → Dev} {k : SpurCore} (h : d.quiet c = true)
    (hs : d.summit.stepping.contains c = false) (hb : body (d.counted c) = (d.counted c).setCore c k) :
    (d.spurInstr c body).core c = k ∧ d.onlyCore c (d.spurInstr c body) := by
  have e : d.spurInstr c body = d.spurInstr c fun d => d.updCore c fun _ => k := by
    rw [Dev.spurInstr_quiet d c _ h, Dev.spurInstr_quiet d c _ h]
    exact congrArg (Dev.stepEnd · c) hb
  rw [e]
  exact Dev.spurAlu_quiet d c _ h hs

/-- An instruction that writes a general register and goes on. -/
theorem Dev.spurInstr_wrote (d : Dev) (c rd : Nat) (v : W64) {body : Dev → Dev} (h : d.quiet c = true)
    (hs : d.summit.stepping.contains c = false) (hb : body (d.counted c) = (d.counted c).updCore c fun k => (k.wrG rd v).advance) :
    (d.core c).wrote ((d.spurInstr c body).core c) rd v ∧ d.onlyCore c (d.spurInstr c body) := by
  rw [Dev.updCore, Dev.core_counted] at hb
  obtain ⟨hc, ho⟩ := Dev.spurInstr_setCore d c h hs hb
  exact ⟨hc ▸ SpurCore.wrote_wrG (d.core c) rd v, ho⟩

/-- Outside a handler a synchronous exception drains the store buffer and writes the entry (R63). -/
theorem Dev.takeSync_outside (d : Dev) (c code detail : Nat) (hpc haddr : W64) (h : (d.core c).handler = false) :
    d.takeSync c code detail hpc haddr = (d.drainAll c).updCore c fun k => k.enter code detail 0 hpc haddr := by
  simp [Dev.takeSync, h]

/-- An instruction that ends in a synchronous exception outside a handler. -/
theorem Dev.spurInstr_takeSync (d : Dev) (c code detail : Nat) (hpc haddr : W64) {body : Dev → Dev} (h : d.quiet c = true)
    (hs : d.summit.stepping.contains c = false) (hh : (d.core c).handler = false)
    (hb : body (d.counted c) = (d.counted c).takeSync c code detail hpc haddr) :
    d.tookSync (d.spurInstr c body) c code detail hpc haddr := by
  have hout : ((d.counted c).core c).handler = false := by rw [Dev.core_counted]; exact hh
  rw [Dev.takeSync_outside _ _ _ _ _ _ hout] at hb
  have e : d.spurInstr c body = ((d.counted c).drainAll c).updCore c fun k => k.enter code detail 0 hpc haddr := by
    rw [Dev.spurInstr_quiet d c _ h]
    show (body (d.counted c)).stepEnd c = _
    rw [hb, Dev.stepEnd_none _ _ (by simpa using hs)]
  rw [e]
  constructor
  · rw [Dev.core_updCore_same, Dev.core_drainAll, Dev.core_counted]
    rfl
  · exact Dev.mem_drainAll_congr (d.mem_counted c) (by rw [Dev.core_counted]; rfl)

end Sys2Proof.Machine
end

section
/-! PROOFS. CSR accesses (R58 to R61). -/

namespace Sys2Proof.Machine

open Sys2Proof

/-! ### Which numbers are CSRs -/

/-- The numbers that R59 and R60 assign. -/
def csrAssigned (n : Nat) : Prop := n ≤ 6 ∨ (0x10 ≤ n ∧ n ≤ 0x16) ∨ (0x20 ≤ n ∧ n ≤ 0x24)

theorem Dev.csr_unassigned (d : Dev) (c : Nat) {n : Nat} (h : ¬ csrAssigned n) : d.csr c n = none := by
  unfold csrAssigned at h
  unfold Dev.csr
  split
  case h_20 => rfl
  all_goals omega

theorem SpurCore.setCsr_unassigned (k : SpurCore) (v : W64) {n : Nat} (h : ¬ csrAssigned n) : k.setCsr n v = none := by
  unfold csrAssigned at h
  unfold SpurCore.setCsr
  split
  case h_14 => rfl
  all_goals omega

theorem SpurCore.setCsr_pc {k k' : SpurCore} {n : Nat} {v : W64} (h : k.setCsr n v = some k') : k'.pc = k.pc := by
  unfold SpurCore.setCsr at h
  split at h
  case h_14 => cases h
  all_goals
    cases h
    rfl

/-- HCAUSE, HADDR, TIME, CORE_ID, DLSTATUS and MBX_STATUS take no write (R59). -/
theorem SpurCore.setCsr_readOnly (k : SpurCore) (v : W64) {n : BitVec 14} (h : n ∈ [1#14, 3, 0x10, 0x11, 0x12, 0x16]) :
    k.setCsr n.toNat v = none := by
  simp only [List.mem_cons, List.not_mem_nil, or_false] at h
  rcases h with rfl | rfl | rfl | rfl | rfl | rfl <;> rfl

theorem csr_bpaddr_ne_devfault : ∀ i : Fin 4, (0x020 + BitVec.ofNat 14 i.val).toNat ≠ 0x015 := by decide

/-- CSR 0x020 + i is breakpoint address i. -/
theorem Dev.csr_bpaddr (d : Dev) (c : Nat) (i : Fin 4) :
    d.csr c (0x020 + BitVec.ofNat 14 i.val).toNat = some (SMap.get 0 (d.core c).bpaddr i) := by
  match i with
  | 0 | 1 | 2 | 3 => rfl

theorem SpurCore.setCsr_bpaddr (k : SpurCore) (i : Fin 4) (v : W64) :
    k.setCsr (0x020 + BitVec.ofNat 14 i.val).toNat v = some { k with bpaddr := SMap.put 0 k.bpaddr i v } := by
  match i with
  | 0 | 1 | 2 | 3 => rfl

/-- Counting the instruction changes no CSR. -/
theorem Dev.csr_counted (d : Dev) (c n : Nat) : (d.counted c).csr c n = d.csr c n := by
  have hm (r : Nat) : (d.counted c).mbxStatus r = d.mbxStatus r := by simp only [Dev.mbxStatus, Dev.summit_counted]
  simp only [Dev.csr, Dev.core_counted, Dev.timeBase_counted, hm]
  rfl

/-- A write of DEVFAULT clears the fields that have a 1 (R5, R61). -/
theorem SpurCore.clearDevfault_eq (k : SpurCore) (v : W64) : k.clearDevfault v.toNat =
    { k with dfDiscard := k.dfDiscard && !v.getLsbD 0, dfLate := k.dfLate && !v.getLsbD 1, dfBarLate := k.dfBarLate && !v.getLsbD 2,
             dfCount := if v.toNat / 2 ^ 16 % 2 ^ 16 = 0 then k.dfCount else 0 } := by
  have one (i : Nat) : (bits v.toNat i 1 == 0) = !v.getLsbD i := by
    rw [BitVec.getLsbD, Nat.testBit_eq_decide_div_mod_eq, bits]
    rcases Nat.mod_two_eq_zero_or_one (v.toNat / 2 ^ i) with e | e <;> simp [e]
  simp only [SpurCore.clearDevfault, one]
  rfl

/-! ### The instructions at a quiet boundary -/

section
variable {s : State} {c : Fin 9} (h : s.atInstr c) (g : Fin 32)
include h

/-- CSRR of an assigned number. -/
theorem State.csrr_reads {csr : BitVec 14} {w : W64} (hv : s.dev.csr c csr.toNat = some w) :
    Completes (.csrr c g csr) s fun d => (s.dev.core c).wrote (d.core c) g w ∧ s.dev.onlyCore c d := by
  obtain ⟨hq, hstep⟩ := h
  refine ⟨_, rfl, Dev.spurInstr_wrote s.dev c g w hq hstep ?_⟩
  rw [Dev.csr_counted, hv]

/-- CSRR of an unassigned number. -/
theorem State.csrr_illegal (hh : (s.dev.core c).handler = false) {csr : BitVec 14} (hn : ¬ csrAssigned csr.toNat) :
    Completes (.csrr c g csr) s fun d => s.dev.tookSync d c 1 2 (s.dev.core c).pc (BitVec.ofNat 64 (wordS 0x10 g csr.toNat)) := by
  obtain ⟨hq, hstep⟩ := h
  refine ⟨_, rfl, Dev.spurInstr_takeSync s.dev c _ _ _ _ hq hstep hh ?_⟩
  rw [Dev.csr_unassigned _ _ hn]
  dsimp only
  rw [Dev.illegal, Dev.core_counted]
  rfl

/-- A write of a CSR that takes one: the core holds what `setCsr` gives. -/
theorem State.csrUpdate_sets {csr fn : Nat} (f : W64 → W64 → W64) {old : W64} {k : SpurCore} (hold : s.dev.csr c csr = some old)
    (hset : (s.dev.core c).unskipped.setCsr csr (if csr = 0x015 then (s.dev.core c).rdG g else f old ((s.dev.core c).rdG g)) = some k) :
    (s.dev.csrUpdate c fn g csr f).core c = k.advance ∧ s.dev.onlyCore c (s.dev.csrUpdate c fn g csr f) := by
  obtain ⟨hq, hstep⟩ := h
  have hg : (s.dev.core c).unskipped.rdG g = (s.dev.core c).rdG g := rfl
  refine Dev.spurInstr_setCore s.dev c hq hstep ?_
  dsimp only
  rw [Dev.csr_counted, hold, Dev.core_counted, hg, Option.getD_some, hset]

/-- A write of a CSR that takes none. -/
theorem State.csrUpdate_illegal (hh : (s.dev.core c).handler = false) {csr : Nat} (fn : Nat) (f : W64 → W64 → W64)
    (hset : ∀ k v, SpurCore.setCsr k csr v = none) :
    s.dev.tookSync (s.dev.csrUpdate c fn g csr f) c 1 2 (s.dev.core c).pc (BitVec.ofNat 64 (wordS fn g csr)) := by
  obtain ⟨hq, hstep⟩ := h
  refine Dev.spurInstr_takeSync s.dev c _ _ _ _ hq hstep hh ?_
  dsimp only
  rw [hset]
  dsimp only
  rw [Dev.illegal, Dev.core_counted]
  rfl

/-- CSRW, CSRS and CSRC of a CSR that takes any value: `old` is what it read as, `mk` puts a value into it. -/
theorem State.csr_sets {csr : BitVec 14} {old : W64} {mk : W64 → SpurCore} (hold : s.dev.csr c csr.toNat = some old)
    (hset : ∀ w, (s.dev.core c).unskipped.setCsr csr.toNat w = some (mk w).unskipped) (hcsr : csr.toNat ≠ 0x015) :
    let v := (s.dev.core c).rdG g
    let gone (w : W64) := { mk w with pc := (s.dev.core c).pc + 4, bpSkip := false }
    (Completes (.csrw c g csr) s fun d => d.core c = gone v ∧ s.dev.onlyCore c d) ∧
    (Completes (.csrs c g csr) s fun d => d.core c = gone (old ||| v) ∧ s.dev.onlyCore c d) ∧
    (Completes (.csrc c g csr) s fun d => d.core c = gone (old &&& ~~~v) ∧ s.dev.onlyCore c d) := by
  intro v gone
  have put (fn : Nat) (f : W64 → W64 → W64) : (s.dev.csrUpdate c fn g csr.toNat f).core c = gone (f old v) ∧
      s.dev.onlyCore c (s.dev.csrUpdate c fn g csr.toNat f) := by
    have hpc : (mk (f old v)).unskipped.pc = (s.dev.core c).unskipped.pc := SpurCore.setCsr_pc (hset (f old v))
    have e : (mk (f old v)).unskipped.advance = gone (f old v) :=
      congrArg (fun x => ({ mk (f old v) with pc := x + 4, bpSkip := false } : SpurCore)) hpc
    exact e ▸ State.csrUpdate_sets h g f hold (by rw [if_neg hcsr, hset])
  exact ⟨⟨_, rfl, put _ _⟩, ⟨_, rfl, put _ _⟩, ⟨_, rfl, put _ _⟩⟩

/-- CSRW, CSRS and CSRC of DEVFAULT all clear the fields that have a 1 in the register (log entry 9). -/
theorem State.csrUpdate_devfault (fn : Nat) (f : W64 → W64 → W64) :
    let k := s.dev.core c
    let v := k.rdG g
    (s.dev.csrUpdate c fn g 0x015 f).core c =
      { k with dfDiscard := k.dfDiscard && !v.getLsbD 0, dfLate := k.dfLate && !v.getLsbD 1, dfBarLate := k.dfBarLate && !v.getLsbD 2,
               dfCount := if v.toNat / 2 ^ 16 % 2 ^ 16 = 0 then k.dfCount else 0, pc := k.pc + 4, bpSkip := false } ∧
    s.dev.onlyCore c (s.dev.csrUpdate c fn g 0x015 f) :=
  State.csrUpdate_sets h g (csr := 0x015) f rfl (congrArg some ((s.dev.core c).unskipped.clearDevfault_eq ((s.dev.core c).rdG g)))

end

/-- Settles O20: by number, what a CSR reads as and what a write of it leaves; every other number takes no access. -/
theorem spurCsrAccess : Obligations.SpurCsrAccess := by
  intro s c g n h q v p sets reads
  have rd {csr w} (e : s.dev.csr c csr.toNat = some w) : reads csr w := State.csrr_reads h g e
  have set {csr old mk} (hold : s.dev.csr c csr.toNat = some old) (hset : ∀ w, q.unskipped.setCsr csr.toNat w = some (mk w).unskipped)
      (hcsr : csr.toNat ≠ 0x015 := by decide) : sets csr old mk := State.csr_sets h g hold hset hcsr
  clear_value reads sets
  refine ⟨⟨rd rfl, rd rfl, rd rfl, rd rfl, rd rfl, rd rfl, rd rfl, rd rfl, rd rfl, rd rfl, rd rfl, rd rfl, rd rfl, rd rfl,
      fun i => rd (Dev.csr_bpaddr _ _ i), rd rfl⟩,
    ⟨set rfl fun _ => rfl, set rfl fun _ => rfl, set rfl fun _ => rfl, set rfl fun _ => rfl,
      set rfl fun _ => rfl, set rfl fun _ => rfl, set rfl fun _ => rfl,
      fun i => set (Dev.csr_bpaddr _ _ i) (SpurCore.setCsr_bpaddr _ i) (csr_bpaddr_ne_devfault i), set rfl fun _ => rfl⟩, ?_, ?_⟩
  · intro i hi
    simp only [List.mem_cons, List.not_mem_nil, or_false] at hi
    rcases hi with rfl | rfl | rfl <;> exact ⟨_, rfl, State.csrUpdate_devfault h g _ _⟩
  · intro hh assigned
    refine ⟨fun hn => State.csrr_illegal h g hh hn, fun hn => ?_⟩
    have none (k : SpurCore) (v : W64) : k.setCsr n.toNat v = none := by
      rcases hn with hn | hn
      · exact SpurCore.setCsr_unassigned k v hn
      · exact SpurCore.setCsr_readOnly k v hn
    exact ⟨⟨_, rfl, State.csrUpdate_illegal h g hh _ _ none⟩, ⟨_, rfl, State.csrUpdate_illegal h g hh _ _ none⟩,
      ⟨_, rfl, State.csrUpdate_illegal h g hh _ _ none⟩⟩

end Sys2Proof.Machine
end

section
/-! PROOFS. The fields of a register: each has a place of its own, and a write of the register writes each by its access code (R2 to
R4); the word a register reads as. -/

namespace Sys2Proof.Machine

open Sys2Proof

/-- The fields of one register have different numbers, so that none is stored where another is. -/
theorem Reg.flds_num_nodup (r : Reg) : (r.flds.map Fld.num).Nodup := by
  cases r <;> decide

theorem Fld.key_inj {f g : Fld} {i : Nat} : f.key i = g.key i ↔ f.num = g.num := Nat.add_right_cancel_iff

/-- What field `f` holds after `v` has been written to its register by a master that is Summit or not. -/
def Fld.after (f : Fld) (summit : Bool) (old v : Nat) : Nat :=
  if f.acc = .ro ∨ f.acc = .wo then old else f.written summit old (f.of v) % 2 ^ f.width

/-- The write of one field within a write of its register. -/
def Dev.writeField (summit : Bool) (i v : Nat) (d : Dev) (f : Fld) : Dev :=
  if f.acc = .ro ∨ f.acc = .wo then d else d.wr f i (f.written summit (d.rd f i) (f.of v))

theorem Dev.writeFields_eq_foldl (d : Dev) (summit : Bool) (r : Reg) (i v : Nat) :
    d.writeFields summit r i v = r.flds.foldl (Dev.writeField summit i v) d := rfl

theorem Dev.rd_writeField_same (d : Dev) (summit : Bool) (i v : Nat) (f : Fld) :
    (d.writeField summit i v f).rd f i = f.after summit (d.rd f i) v := by
  unfold Dev.writeField Fld.after
  split
  · rfl
  · exact Dev.rd_wr_same _ _ _ _

theorem Dev.rd_writeField_ne (d : Dev) (summit : Bool) (v : Nat) {i j : Nat} {f g : Fld} (h : g.key j ≠ f.key i) :
    (d.writeField summit i v f).rd g j = d.rd g j := by
  unfold Dev.writeField
  split
  · rfl
  · exact Dev.rd_wr_ne _ _ h

/-- Writing fields leaves every field elsewhere alone. -/
theorem Dev.rd_foldl_writeField_out (summit : Bool) (v : Nat) {i j : Nat} {f : Fld} {l : List Fld} (h : ∀ g ∈ l, f.key j ≠ g.key i)
    (d : Dev) : (l.foldl (Dev.writeField summit i v) d).rd f j = d.rd f j := by
  induction l generalizing d with
  | nil => rfl
  | cons g l ih =>
    obtain ⟨hg, hl⟩ := List.forall_mem_cons.mp h
    rw [List.foldl_cons, ih hl, Dev.rd_writeField_ne _ _ _ hg]

/-- Of fields with different places each takes its own bits, whatever is written before and after it. -/
theorem Dev.rd_foldl_writeField_mem (summit : Bool) (i v : Nat) {f : Fld} {l : List Fld} (hl : (l.map Fld.num).Nodup) (hf : f ∈ l)
    (d : Dev) : (l.foldl (Dev.writeField summit i v) d).rd f i = f.after summit (d.rd f i) v := by
  induction l generalizing d with
  | nil => cases hf
  | cons g l ih =>
    rw [List.map_cons, List.nodup_cons] at hl
    obtain ⟨hg, hl⟩ := hl
    have apart (x : Fld) (hx : x ∈ l) : g.key i ≠ x.key i :=
      fun e => hg (Fld.key_inj.mp e ▸ List.mem_map_of_mem hx)
    rw [List.foldl_cons]
    rcases List.mem_cons.mp hf with rfl | hf
    · rw [Dev.rd_foldl_writeField_out _ _ apart, Dev.rd_writeField_same]
    · rw [ih hl hf, Dev.rd_writeField_ne _ _ _ (apart f hf).symm]

/-- After a write of its register a field holds what its access code lets through (R2, R4). -/
theorem Dev.rd_writeFields (d : Dev) (summit : Bool) (i v : Nat) {r : Reg} {f : Fld} (hf : f ∈ r.flds) :
    (d.writeFields summit r i v).rd f i = f.after summit (d.rd f i) v :=
  Dev.rd_foldl_writeField_mem summit i v r.flds_num_nodup hf d

theorem Dev.rd_writeFields_out (d : Dev) (summit : Bool) (v : Nat) {r : Reg} {i j : Nat} {f : Fld}
    (h : ∀ g ∈ r.flds, f.key j ≠ g.key i) : (d.writeFields summit r i v).rd f j = d.rd f j :=
  Dev.rd_foldl_writeField_out summit v h d

/-- A write of fields changes the register fields alone. -/
theorem Dev.writeFields_eq (d : Dev) (summit : Bool) (r : Reg) (i v : Nat) :
    d.writeFields summit r i v = { d with regs := (d.writeFields summit r i v).regs } := by
  rw [Dev.writeFields_eq_foldl]
  generalize r.flds = l
  induction l generalizing d with
  | nil => rfl
  | cons f l ih =>
    have one : d.writeField summit i v f = { d with regs := (d.writeField summit i v f).regs } := by
      unfold Dev.writeField
      split <;> rfl
    rw [List.foldl_cons, ih, one]

/-- The word of a register is the sum of its readable fields at their places. -/
theorem Dev.word_eq_sum (d : Dev) (r : Reg) (i : Nat) :
    d.word r i = (r.flds.map fun f => if f.acc = .wo then 0 else d.rd f i * 2 ^ f.lsb).sum := by
  have go (l : List Fld) (w : Nat) : l.foldl (fun w f => if f.acc = .wo then w else w + d.rd f i * 2 ^ f.lsb) w =
      w + (l.map fun f => if f.acc = .wo then 0 else d.rd f i * 2 ^ f.lsb).sum := by
    induction l generalizing w with
    | nil => rfl
    | cons f l ih =>
      rw [List.foldl_cons, ih, List.map_cons, List.sum_cons]
      split <;> omega
  rw [Dev.word, go, Nat.zero_add]

end Sys2Proof.Machine
end

section
/-! PROOFS. Accesses of the management space (R7, R471 to R473, R476, R478). -/

namespace Sys2Proof.Machine

open Sys2Proof

/-! ### Which writes have an action of their own does not depend on the state -/

theorem Dev.tileWrite_eq_none_iff (d e : Dev) (m : Master) (r : Reg) (i v : Nat) :
    d.tileWrite m r i v = none ↔ e.tileWrite m r i v = none := by
  cases r <;> simp [Dev.tileWrite]

theorem Dev.coreWrite_eq_none_iff (d e : Dev) (m : Master) (r : Reg) (i v : Nat) :
    d.coreWrite m r i v = none ↔ e.coreWrite m r i v = none := by
  cases r <;> simp [Dev.coreWrite]

theorem ite_some_ne_none {α : Type} (p : Prop) [Decidable p] (a b : α) : (if p then some a else some b) ≠ none := by
  split
  · exact Option.some_ne_none a
  · exact Option.some_ne_none b

theorem Dev.islandWrite_eq_none_iff (d e : Dev) (m : Master) (r : Reg) (i v : Nat) :
    d.islandWrite m r i v = none ↔ e.islandWrite m r i v = none := by
  cases r <;> simp [Dev.islandWrite, ite_some_ne_none]

/-- The register has no action or refusal of its own for this write. -/
def Dev.plainWrite (d : Dev) (m : Master) (r : Reg) (i v : Nat) : Prop :=
  d.tileWrite m r i v = none ∧ d.coreWrite m r i v = none ∧ d.islandWrite m r i v = none

theorem Dev.plainWrite.congr {d : Dev} {m : Master} {r : Reg} {i v : Nat} (h : d.plainWrite m r i v) (e : Dev) : e.plainWrite m r i v := by
  obtain ⟨ht, hc, hi⟩ := h
  exact ⟨(Dev.tileWrite_eq_none_iff d e m r i v).mp ht, (Dev.coreWrite_eq_none_iff d e m r i v).mp hc,
    (Dev.islandWrite_eq_none_iff d e m r i v).mp hi⟩

/-- A plain write gives every field its bits by its access code. -/
theorem Dev.regWrite_plain {d : Dev} {m : Master} {r : Reg} {i v : Nat} (h : d.plainWrite m r i v) :
    d.regWrite m r i v = d.writeFields (m == .summit) r i v := by
  obtain ⟨ht, hc, hi⟩ := h
  simp only [Dev.regWrite, ht, hc, hi]

/-- The place is written without a refusal: by Summit, or with no RWL field to change (R4). -/
theorem Dev.placeWrite_plain {d : Dev} {m : Master} {r : Reg} {i v : Nat} (off : Nat) (h : d.plainWrite m r i v)
    (ha : m = .summit ∨ d.rwlTouched r i v = false) : d.placeWrite m off v (.reg r i) = d.writeFields (m == .summit) r i v := by
  have open_ : (m != .summit && d.rwlTouched r i v) = false := by
    rcases ha with rfl | ha
    · rfl
    · rw [ha, Bool.and_false]
  rw [Dev.placeWrite, open_, Dev.when_false, Dev.regWrite_plain h]

/-- A write that would change an RWL field, by a master other than Summit, is counted and recorded, and then written (R4). -/
theorem Dev.placeWrite_refused {d : Dev} {m : Master} {r : Reg} {i v : Nat} (off : Nat) (h : d.plainWrite m r i v)
    (hm : m ≠ .summit) (ht : d.rwlTouched r i v = true) :
    d.placeWrite m off v (.reg r i) = (d.refuseRwl m off v).writeFields false r i v := by
  have hs : (m == .summit) = false := beq_eq_false_iff_ne.mpr hm
  rw [Dev.placeWrite, bne, hs, ht, Bool.not_false, Bool.and_self, Dev.when_true, Dev.regWrite_plain (h.congr _), hs]

/-- While the Cairn takes records, a record leaves the register fields alone (R414). -/
theorem Dev.cairnPush_regs {d : Dev} (h : d.on CAIRN.STATUS.FROZEN = false) (src inst event x y : Nat) :
    (d.cairnPush src inst event x y).regs = d.regs := by
  simp [Dev.cairnPush, h]

theorem Dev.refuseRwl_regs {d : Dev} (h : d.on CAIRN.STATUS.FROZEN = false) (m : Master) (off v : Nat) :
    (d.refuseRwl m off v).regs = d.regs := Dev.cairnPush_regs (d := { d with rwlRefused := d.rwlRefused + 1 }) h _ _ _ _ _

@[simp] theorem Dev.refuseRwl_mem (d : Dev) (m : Master) (off v : Nat) : (d.refuseRwl m off v).mem = d.mem :=
  Dev.cairnPush_mem _ _ _ _ _ _

@[simp] theorem Dev.refuseRwl_rwlRefused (d : Dev) (m : Master) (off v : Nat) : (d.refuseRwl m off v).rwlRefused = d.rwlRefused + 1 :=
  Dev.cairnPush_rwlRefused _ _ _ _ _ _

/-- An RWL field takes nothing from a master other than Summit. -/
theorem Fld.after_rwl {f : Fld} (h : f.acc = .rwl) (old v : Nat) : f.after false old v = old % 2 ^ f.width := by
  simp [Fld.after, Fld.written, h]

/-! ### How an access ends -/

section
variable {d : Dev} {m : Master} (off : Nat) (w : Option Nat)

/-- The port of a management function is no manager port. -/
theorem Dev.mgmt_unreached (h : d.reaches m = false) (size : Nat) : d.mgmt m off size w = (.ur, 0, d) := by
  simp [Dev.mgmt, h]

section
variable (hr : d.reaches m = true) (hm : m ≠ .debug)
include hr hm

/-- An access that is no aligned 32-bit one. -/
theorem Dev.mgmt_narrow {size : Nat} (h : size ≠ 4 ∨ off % 4 ≠ 0) : d.mgmt m off size w = (widthStatus m, 0, d) := by
  have hd : (m == .debug) = false := beq_eq_false_iff_ne.mpr hm
  simp only [Dev.mgmt, hr, Bool.not_true, Bool.false_eq_true, if_false, h, if_true, hd, Dev.when_false]

/-- A reserved offset. -/
theorem Dev.mgmt_reserved (ha : off % 4 = 0) (h : d.place m off = .reserved) : d.mgmt m off 4 w = (reservedStatus m, 0, d) := by
  simp [Dev.mgmt, hr, hm, ha, h]

/-- A write of any other place. -/
theorem Dev.mgmt_write (ha : off % 4 = 0) (h : d.place m off ≠ .reserved) (v : Nat) :
    d.mgmt m off 4 (some v) = (.ok, 0, d.placeWrite m off (v % 2 ^ 32) (d.place m off)) := by
  simp [Dev.mgmt, hr, hm, ha]

/-- A read of any other place. -/
theorem Dev.mgmt_read (ha : off % 4 = 0) (h : d.place m off ≠ .reserved) :
    d.mgmt m off 4 none = (.ok, (d.placeRead m (d.place m off)).1, (d.placeRead m (d.place m off)).2) := by
  simp [Dev.mgmt, hr, hm, ha]

end
end

/-- A core block does not answer while the core domain is down (R473). -/
theorem Dev.place_core_down {d : Dev} {off : Nat} (m : Master) (h : 0x100000 ≤ off) (hc : d.coreUp = false) :
    d.place m off = .reserved := by
  simp [Dev.place, Nat.not_lt.mpr h, hc]

/-! ### The two rows -/

section
variable {s : State} (hv : s.dev.vauxUp = true) {m : Master} {off : Fin 268435456} {sz : Size}
include hv

theorem State.registerWrite_completes {v : W64} {st : AccStatus} {n : Nat} {d : Dev} {P : Dev → Prop}
    (h : s.dev.mgmt m off sz.bytes (some v.toNat) = (st, n, d)) (hP : P (d.emit (.access m st n))) :
    Completes (.registerWrite m off sz v) s P := by
  refine ⟨_, rfl, ?_⟩
  dsimp only
  rw [if_pos hv, Dev.mgmtEnd, h]
  exact hP

theorem State.halfLatchRead_completes {st : AccStatus} {n : Nat} {d : Dev} {P : Dev → Prop}
    (h : s.dev.mgmt m off sz.bytes none = (st, n, d)) (hP : P (d.emit (.access m st n))) : Completes (.halfLatchRead m off sz) s P := by
  refine ⟨_, rfl, ?_⟩
  dsimp only
  rw [if_pos hv, Dev.mgmtEnd, h]
  exact hP

/-- A write and a read that both end without touching anything. -/
theorem State.access_ends (v : W64) {st : AccStatus} (h : ∀ w, s.dev.mgmt m off sz.bytes w = (st, 0, s.dev)) :
    (Completes (.registerWrite m off sz v) s fun d => d = { s.dev with out := .access m st 0 :: s.dev.out }) ∧
    Completes (.halfLatchRead m off sz) s fun d => d = { s.dev with out := .access m st 0 :: s.dev.out } :=
  ⟨State.registerWrite_completes hv (h _) rfl, State.halfLatchRead_completes hv (h _) rfl⟩

end

section
variable {s : State} (hv : s.dev.vauxUp = false) {m : Master} {off : Fin 268435456} {sz : Size}
include hv

theorem State.registerWrite_vauxDown (v : W64) : NoEffect (.registerWrite m off sz v) s := by
  show execRegisterWrite m off sz v s = _
  rw [execRegisterWrite, State.lift_next, hv, if_neg Bool.false_ne_true]

theorem State.halfLatchRead_vauxDown : NoEffect (.halfLatchRead m off sz) s := by
  show execHalfLatchRead m off sz s = _
  rw [execHalfLatchRead, State.lift_next, hv, if_neg Bool.false_ne_true]

end

/-! ### Plain registers, and the nonce -/

/-- A read of a register without an effect on reading (R2). -/
theorem Dev.regRead_plain {d : Dev} {r : Reg} {i : Nat} (m : Master) (hc : d.cnt64 r i = none) (hl : latches r = []) (ho : latchOf r = none)
    (hf : d.refresh r i = d)
    (hr : r ∉ [.CAIRN_RD_DATA, .TARN_DESC_READ, .CNT_BW_VAL, .CNT_BW_PEAK, .SUMMIT_MBX_RPLY_LO, .SUMMIT_MBX_RPLY_HI]) :
    d.regRead m r i = (d.word r i, d) := by
  simp only [List.mem_cons, List.not_mem_nil, or_false, not_or] at hr
  obtain ⟨h1, h2, h3, h4, h5, h6⟩ := hr
  simp only [Dev.regRead, hc, ho, hl, hf]
  rfl

/-- Where the two halves of the debug nonce lie (R476). -/
theorem Dev.place_nonceLo {d : Dev} (h : d.vauxUp = true) (m : Master) : d.place m 0x20010 = .reg .SUMMIT_DBG_NONCE_LO 0 := by
  simp only [Dev.place, h]
  rfl

theorem Dev.place_nonceHi {d : Dev} (h : d.vauxUp = true) (m : Master) : d.place m 0x20014 = .reg .SUMMIT_DBG_NONCE_HI 0 := by
  simp only [Dev.place, h]
  rfl

theorem Dev.word_nonceLo (d : Dev) : d.word .SUMMIT_DBG_NONCE_LO 0 = d.rd SUMMIT.DBG_NONCE_LO.V := by
  simp [Dev.word_eq_sum, Reg.flds, SUMMIT.DBG_NONCE_LO.V]

theorem Dev.word_nonceHi (d : Dev) : d.word .SUMMIT_DBG_NONCE_HI 0 = d.rd SUMMIT.DBG_NONCE_HI.V := by
  simp [Dev.word_eq_sum, Reg.flds, SUMMIT.DBG_NONCE_HI.V]

/-- A half that has been latched reads as it was then (R478). -/
theorem Dev.latched_of_latchHalf {d e : Dev} {f : Fld} {inst code v : Nat} (h : e.latch = (d.latchHalf f inst code v).latch) (live : Nat) :
    e.latched f inst code live = v % 2 ^ 32 := by
  simp [Dev.latched, h, Dev.latchHalf]

/-- Reading the lower half of the nonce latches the upper one for the master. -/
theorem Dev.regRead_nonceLo (d : Dev) (m : Master) : d.regRead m .SUMMIT_DBG_NONCE_LO 0 =
    (d.rd SUMMIT.DBG_NONCE_LO.V, d.latchHalf SUMMIT.DBG_NONCE_HI.V 0 m.code (d.rd SUMMIT.DBG_NONCE_HI.V)) := by
  rw [← Dev.word_nonceLo, ← Dev.word_nonceHi]
  rfl

/-- The upper half reads through the master's latch. -/
theorem Dev.regRead_nonceHi (d : Dev) (m : Master) : d.regRead m .SUMMIT_DBG_NONCE_HI 0 =
    (d.latched SUMMIT.DBG_NONCE_HI.V 0 m.code (d.word .SUMMIT_DBG_NONCE_HI 0), d) := rfl

/-! ### The clauses of O45 -/

section
variable {s : State} (hv : s.dev.vauxUp = true)
include hv

section
variable {m : Master} {off : Fin 268435456} {x : Reg} {i : Nat} (hr : s.dev.reaches m = true) (hm : m ≠ .debug)
  (ha : off.val % 4 = 0) (hp : s.dev.place m off = .reg x i)
include hr hm ha hp

theorem State.registerWrite_plain (v : W64) (hw : s.dev.plainWrite m x i (v.toNat % 2 ^ 32))
    (hs : m = .summit ∨ s.dev.rwlTouched x i (v.toNat % 2 ^ 32) = false) :
    Completes (.registerWrite m off .w v) s fun d =>
      (∀ f ∈ x.flds, d.rd f i = f.after (m == .summit) (s.dev.rd f i) (v.toNat % 2 ^ 32)) ∧
      (∀ f j, (∀ g ∈ x.flds, f.key j ≠ g.key i) → d.rd f j = s.dev.rd f j) ∧
      d.out = .access m .ok 0 :: s.dev.out ∧ { d with regs := s.dev.regs, out := s.dev.out } = s.dev := by
  have e := Dev.mgmt_write off.val hr hm ha (by rw [hp]; exact Place.noConfusion) v.toNat
  rw [hp, Dev.placeWrite_plain off hw hs] at e
  refine State.registerWrite_completes hv e ⟨?_, ?_, ?_, ?_⟩
  · exact fun f hf => Dev.rd_writeFields s.dev _ i _ hf
  · exact fun f j hf => Dev.rd_writeFields_out s.dev _ _ hf
  · rw [Dev.writeFields_eq]
    rfl
  · rw [Dev.writeFields_eq]
    rfl

theorem State.registerWrite_refused (v : W64) (hw : s.dev.plainWrite m x i (v.toNat % 2 ^ 32)) (hs : m ≠ .summit)
    (hl : ∀ f ∈ x.flds, f.acc = .rwl) (ht : s.dev.rwlTouched x i (v.toNat % 2 ^ 32) = true)
    (hz : s.dev.on CAIRN.STATUS.FROZEN = false) :
    Completes (.registerWrite m off .w v) s fun d =>
      d.rwlRefused = s.dev.rwlRefused + 1 ∧ (∀ f ∈ x.flds, d.rd f i = s.dev.rd f i % 2 ^ f.width) ∧ d.mem = s.dev.mem := by
  have e := Dev.mgmt_write off.val hr hm ha (by rw [hp]; exact Place.noConfusion) v.toNat
  rw [hp, Dev.placeWrite_refused off hw hs ht] at e
  refine State.registerWrite_completes hv e ⟨?_, fun f hf => ?_, ?_⟩
  · rw [Dev.writeFields_eq]
    exact Dev.refuseRwl_rwlRefused _ _ _ _
  · rw [← Fld.after_rwl (hl f hf) _ (v.toNat % 2 ^ 32)]
    refine (Dev.rd_writeFields _ _ i _ hf).trans ?_
    rw [Dev.rd_congr (Dev.refuseRwl_regs hz _ _ _)]
  · rw [Dev.writeFields_eq]
    exact Dev.refuseRwl_mem _ _ _ _

theorem State.halfLatchRead_plain (hc : s.dev.cnt64 x i = none) (hl : latches x = []) (ho : latchOf x = none)
    (hf : s.dev.refresh x i = s.dev)
    (hx : x ∉ [.CAIRN_RD_DATA, .TARN_DESC_READ, .CNT_BW_VAL, .CNT_BW_PEAK, .SUMMIT_MBX_RPLY_LO, .SUMMIT_MBX_RPLY_HI]) :
    Completes (.halfLatchRead m off .w) s fun d =>
      d = s.dev.emit (.access m .ok (x.flds.map fun f => if f.acc = .wo then 0 else s.dev.rd f i * 2 ^ f.lsb).sum) := by
  have e := Dev.mgmt_read off.val hr hm ha (by rw [hp]; exact Place.noConfusion)
  rw [hp, Dev.placeRead, Dev.regRead_plain m hc hl ho hf hx, Dev.word_eq_sum] at e
  exact State.halfLatchRead_completes hv e rfl

end

/-- A core that reads the lower half of the nonce latches the upper one. -/
theorem State.halfLatchRead_nonceLo (c : Fin 9) : Completes (.halfLatchRead (.core c) 0x20010 .w) s fun d =>
    d = (s.dev.latchHalf SUMMIT.DBG_NONCE_HI.V 0 (Master.core c).code (s.dev.rd SUMMIT.DBG_NONCE_HI.V)).emit
      (.access (.core c) .ok (s.dev.rd SUMMIT.DBG_NONCE_LO.V)) := by
  have hp := Dev.place_nonceLo hv (.core c)
  have e := Dev.mgmt_read (d := s.dev) (m := .core c) 0x20010 rfl Master.noConfusion rfl (by rw [hp]; exact Place.noConfusion)
  rw [hp, Dev.placeRead, Dev.regRead_nonceLo] at e
  exact State.halfLatchRead_completes hv e rfl

/-- A core's later read of the upper half returns what was latched. -/
theorem State.halfLatchRead_nonceHi {d : Dev} (c : Fin 9) {v : Nat}
    (hl : s.dev.latch = (d.latchHalf SUMMIT.DBG_NONCE_HI.V 0 (Master.core c).code v).latch) :
    Completes (.halfLatchRead (.core c) 0x20014 .w) s fun e =>
      e = { s.dev with out := .access (.core c) .ok (v % 2 ^ 32) :: s.dev.out } := by
  have hp := Dev.place_nonceHi hv (.core c)
  have e := Dev.mgmt_read (d := s.dev) (m := .core c) 0x20014 rfl Master.noConfusion rfl (by rw [hp]; exact Place.noConfusion)
  rw [hp, Dev.placeRead, Dev.regRead_nonceHi, Dev.latched_of_latchHalf hl] at e
  exact State.halfLatchRead_completes hv e rfl

end

theorem Size.bytes_eq_four_iff {sz : Size} : sz.bytes = 4 ↔ sz = .w := by
  cases sz <;> decide

/-- A master reaches the space unless it is the management function of a port that is no manager port (R7). -/
theorem Dev.reaches_of {d : Dev} {m : Master} (h : ∀ p : Fin 128, m = .mgmt p → d.mgrPort p = true) : d.reaches m = true := by
  cases m with
  | mgmt p => exact h p rfl
  | summit | debug | core c => rfl

/-- Settles O45: an access is refused, meets nothing, or reads and writes the fields of one register. -/
theorem registerReadsAndWrites : Obligations.RegisterReadsAndWrites := by
  intro s m off sz v c d₀ write read ends both may wide
  refine ⟨fun hv => ⟨?_, ?_, ?_, ?_, ?_, ?_⟩, fun hv => ?_⟩
  · rintro p rfl hp
    exact State.access_ends hv v fun w => Dev.mgmt_unreached (m := .mgmt p) _ w hp _
  · rintro ⟨hr, hm⟩ hw
    have hn : sz.bytes ≠ 4 ∨ off.val % 4 ≠ 0 := by rwa [Ne, Ne, ← Decidable.not_and_iff_not_or_not, Size.bytes_eq_four_iff]
    have e := State.access_ends hv v fun w => Dev.mgmt_narrow off.val w (Dev.reaches_of hr) hm hn
    cases m <;> exact e
  · rintro ⟨hr, hm⟩ ⟨rfl, ha⟩ hp
    have hp : d₀.place m off = .reserved := hp.elim id fun ⟨hb, hc⟩ => Dev.place_core_down m hb hc
    have e := State.access_ends (sz := .w) hv v fun w => Dev.mgmt_reserved off.val w (Dev.reaches_of hr) hm ha hp
    cases m <;> exact e
  · rintro ⟨hr, hm⟩ ⟨rfl, ha⟩ hp
    have hb : d₀.place m off ≠ .reserved := by rw [hp]; exact Place.noConfusion
    refine State.access_ends (sz := .w) hv v fun w => ?_
    cases w with
    | some w => rw [Size.bytes, Dev.mgmt_write _ (Dev.reaches_of hr) hm ha hb, hp, Dev.placeWrite]
    | none => rw [Size.bytes, Dev.mgmt_read _ (Dev.reaches_of hr) hm ha hb, hp, Dev.placeRead]
  · rintro x i ⟨hr, hm⟩ ⟨rfl, ha⟩ hp
    have hr := Dev.reaches_of hr
    refine ⟨fun ht hc hi hs => ?_, fun hs hl ht hc hi ht' hz => ?_, fun hc hl ho hf hx => ?_⟩
    · exact State.registerWrite_plain hv hr hm ha hp v ⟨ht, hc, hi⟩ hs
    · exact State.registerWrite_refused hv hr hm ha hp v ⟨ht, hc, hi⟩ hs hl ht' hz
    · exact State.halfLatchRead_plain hv hr hm ha hp hc hl ho hf hx
  · obtain ⟨d, hd, rfl⟩ := State.halfLatchRead_nonceLo hv c
    exact ⟨_, hd, rfl, rfl, fun t ht hvt => State.halfLatchRead_nonceHi hvt c ht⟩
  · exact ⟨State.registerWrite_vauxDown hv v, State.halfLatchRead_vauxDown hv⟩

end Sys2Proof.Machine
end
